-- ==== Sys2Proof/Word.lean ====
section
/-! DEFINITION. The word types of the TK7 model and the index types of its units (spec 00_scope Notation, 01_module_map). -/

namespace Sys2Proof

/-- One byte (bit 0 least significant, 00_scope Notation). -/
abbrev Byte := BitVec 8

/-- One 32-bit word: a scalar register, a vector lane, a scratchpad word (R58, R186). -/
abbrev W32 := BitVec 32

/-- One 64-bit register word of the control space or a tile register block (R527). -/
abbrev W64 := BitVec 64

/-- A tile_id, 0 to 5,119 (R18). -/
abbrev TileId := Fin 5120

/-- A half index, 0 to 7 (R15). -/
abbrev HalfId := Fin 8

/-- A partition P0 to P7. -/
abbrev PartId := Fin 8

/-- A Tether (0 to 47) or Spar (48 to 50) port, and its reduction engine (R22, R334). -/
abbrev PortId := Fin 51

/-- A Plaelle stack S0 to S31 (R20). -/
abbrev StackId := Fin 32

end Sys2Proof
end

