-- ==== Sys2Proof/Syntax.lean ====
section
/-! DEFINITION. The commands of the TK7: one constructor per row of spec/opcode_table.json, and the operand types they carry.
A slot instruction carries its tile, its predicate fields and its BODY as the slot word holds them (R64). -/

namespace Sys2Proof

/-- The four slots of a bundle (R63). -/
inductive Slot where
  | s | v | m | x
  deriving DecidableEq, Repr

/-- How a slot instruction is issued: its tile, PRED and PNEG of the slot word (R64), and whether a further slot of the same
bundle follows as the next command of this tile (slots come in the order S, V, M, X; R69). -/
structure Issue where
  tile : TileId
  pred : BitVec 3
  pneg : Bool
  more : Bool
  deriving DecidableEq, Repr

/-- A COMMAND frame on Kiteline (R419, R420): SEQ, whether its CRC holds, the argument block w0 to w15, the command data; its TYPE, where
that is a reserved one in place of COMMAND; its OPCODE, where that is an unlisted one in place of the row's (R431). -/
structure Frame where
  seq : W32
  crcOk : Bool
  w : List W32
  data : List Byte
  ftype : BitVec 8 := 1
  opcode : Option (BitVec 16) := none
  deriving DecidableEq, Repr

/-- A sideband symbol less its TYPE, which the row names (R387). -/
structure Sym where
  jobTag : BitVec 16
  seq : W32
  arg : W32
  deriving DecidableEq, Repr

/-- A DMA packet less its OP, which the row names (R381). `crcOk` says whether the CRC-32C of R377 holds. -/
structure DmaPkt where
  destModule : BitVec 16
  srcModule : BitVec 16
  srcTile : BitVec 16
  jobTag : BitVec 16
  addr : BitVec 48
  length : W32
  signal : Byte
  mode : Byte
  hops : Byte
  payload : List W32
  crcOk : Bool
  /-- is it the last packet of its descriptor (R265)? The header of R381 has no field for it. -/
  last : Bool := true
  deriving DecidableEq, Repr

/-- The kinds of channel packet (R256). -/
inductive PktKind where
  | openReq | openReply | close | closeNotice | closeAck | credit | drop | opq | ring
  deriving DecidableEq, Repr

/-- A channel packet. `conn` names the connection in module `connModule`: its pool entry in the low 15 bits, and above them which opening of
that entry it is; `ep` the target endpoint in module
`epModule`, `tgt` the index of the target in the connection's channel group. The spec gives what a packet carries, not its bits
on the link (R256, R381: "in its fabric form"), so a packet is held as its contents. -/
structure ChanPkt where
  kind : PktKind
  conn : Nat
  connModule : Nat
  ep : Nat
  epModule : Nat
  tgt : Nat
  jobTag : BitVec 16
  srcTile : Nat
  /-- quota asked or granted, credit returned, or message length -/
  amount : Nat
  /-- status of an open reply (R242), or SEQ of a message (R254) -/
  code : Nat
  words : List W32
  /-- links crossed so far (R382) -/
  hops : Byte := 0
  deriving DecidableEq, Repr

/-- Where an arriving channel packet comes from: the k-th packet in flight inside the module, or a link. -/
inductive PktFrom where
  | flight (k : Nat)
  | port (q : PortId) (pkt : ChanPkt)
  deriving DecidableEq, Repr

/-- What the FEC of R374, R378 and R379 made of a codeword: given with the first beat it carries; its further beats are clean (log entry
110). -/
inductive FecResult where
  | clean | corrected | redecoded | failed
  deriving DecidableEq, Repr

/-- Who sends a burst request to a stack channel (R292). -/
inductive ReqSource where
  /-- the k-th unsent burst piece of a tile's stream engine (R284) -/
  | stream (t : TileId) (k : Nat)
  /-- the k-th burst of an active Reel entry of a partition (R290) -/
  | reel (p : PartId) (k : Nat)
  /-- the next unit of 64 elements that an NMU has to update of a shard, on this stack (R321) -/
  | nmu (n : StackId)
  /-- the next burst a Winch agent has to copy of a moving page (R278) -/
  | winch (page : Nat)
  /-- the k-th burst of a remote DMA access that a port holds (R300) -/
  | remote (q : PortId) (k : Nat)
  /-- a burst read by Gondola at a DRAM address (R292 rank 1) -/
  | gondola (addr : BitVec 48)
  deriving DecidableEq, Repr

/-- The draw that a power sample measures (R469, R475), in W: at the input, outside the halves, of each half. -/
structure PowerDraw where
  watt : Nat
  outsideW : Nat
  halfW : List Nat
  deriving DecidableEq, Repr

/-- A sample of the input (R475) with the draw that Ballast measures beside it (R469): voltage in 10 mV, current in 0.1 A. -/
structure PowerTelemetry extends PowerDraw where
  tenMilliVolt : Nat
  deciAmp : Nat
  deriving DecidableEq, Repr

/-- How a transaction on the telemetry pair begins (R516): the address of its target, the first byte written, how many bytes are written. -/
structure TelStart where
  addr : BitVec 7
  offset : Nat
  written : Nat
  deriving DecidableEq, Repr

/-- An inter-module event of a job that the system master does not run (R43, R384, R393): its job tag, superstep number, scheduled tick and
ready lead, the slips of its step and the job's limit, the tree ports that lead to its modules, the step that it commits if it is a commit.
No register or command of the spec brings this to the master; the row does (log entry 137). -/
structure OtherEvent where
  tag : BitVec 16
  seq : W32
  tick : BitVec 48
  lead : Nat
  slips : Nat
  limit : Nat
  ports : Nat
  commit : Option W32
  deriving DecidableEq, Repr

/-- Whose next event a decision is for: that of the job of a partition of the system master, or that of another job. -/
inductive DecisionFor where
  | own (p : PartId)
  | other (e : OtherEvent)
  deriving DecidableEq, Repr

/-- A temperature sample (R475, R476): hottest die sensor of each half, hottest stack sensor, coolant inlet and outlet, °C. -/
structure ThermalTelemetry where
  dieHalf : List Nat
  stackMax : Nat
  inlet : Nat
  outlet : Nat
  deriving DecidableEq, Repr

/-- What the board and the stacks present to a cold or warm reset (R487, R490, R515). -/
structure BootEnv where
  pos : BitVec 2
  masterStrap : Bool
  resetNLow : Bool
  stacksOk : BitVec 32
  deriving DecidableEq, Repr

/-- The commands: one constructor per row of spec/opcode_table.json. -/
inductive Instr where
  /-- NOP (R64). No operation in any slot; its BODY must be zero. -/
  | nop (i : Issue) (slot : Slot) (op : BitVec 6) (body : BitVec 22)
  /-- ADD (R103). Scalar add modulo 2^32. -/
  | add (i : Issue) (body : BitVec 22)
  /-- SUB (R103). Scalar subtract modulo 2^32. -/
  | sub (i : Issue) (body : BitVec 22)
  /-- AND (R103). Scalar bitwise AND. -/
  | and (i : Issue) (body : BitVec 22)
  /-- OR (R103). Scalar bitwise OR. -/
  | or (i : Issue) (body : BitVec 22)
  /-- XOR (R103). Scalar bitwise XOR. -/
  | xor (i : Issue) (body : BitVec 22)
  /-- SHL (R104). Scalar shift left by b[4:0]. -/
  | shl (i : Issue) (body : BitVec 22)
  /-- SHR (R104). Scalar logical shift right by b[4:0]. -/
  | shr (i : Issue) (body : BitVec 22)
  /-- SRA (R104). Scalar arithmetic shift right by b[4:0]. -/
  | sra (i : Issue) (body : BitVec 22)
  /-- MUL (R103). Low 32 bits of the scalar product. -/
  | mul (i : Issue) (body : BitVec 22)
  /-- MULHS (R103). High 32 bits of the signed 64-bit product. -/
  | mulhs (i : Issue) (body : BitVec 22)
  /-- MULHU (R103). High 32 bits of the unsigned 64-bit product. -/
  | mulhu (i : Issue) (body : BitVec 22)
  /-- MIN (R103). Signed scalar minimum. -/
  | min (i : Issue) (body : BitVec 22)
  /-- MAX (R103). Signed scalar maximum. -/
  | max (i : Issue) (body : BitVec 22)
  /-- MINU (R103). Unsigned scalar minimum. -/
  | minu (i : Issue) (body : BitVec 22)
  /-- MAXU (R103). Unsigned scalar maximum. -/
  | maxu (i : Issue) (body : BitVec 22)
  /-- ADDI (R105). Scalar add of the sign-extended IMM12. -/
  | addi (i : Issue) (body : BitVec 22)
  /-- ANDI (R105). Scalar AND with the sign-extended IMM12. -/
  | andi (i : Issue) (body : BitVec 22)
  /-- ORI (R105). Scalar OR with the sign-extended IMM12. -/
  | ori (i : Issue) (body : BitVec 22)
  /-- XORI (R105). Scalar XOR with the sign-extended IMM12. -/
  | xori (i : Issue) (body : BitVec 22)
  /-- SHLI (R104). Scalar shift left by IMM12[4:0]. -/
  | shli (i : Issue) (body : BitVec 22)
  /-- SHRI (R104). Scalar logical shift right by IMM12[4:0]. -/
  | shri (i : Issue) (body : BitVec 22)
  /-- SRAI (R104). Scalar arithmetic shift right by IMM12[4:0]. -/
  | srai (i : Issue) (body : BitVec 22)
  /-- LIL (R67). Load the zero-extended IMM16 into sd. -/
  | lil (i : Issue) (body : BitVec 22)
  /-- LIH (R67). Load IMM16 into sd[31:16] and keep sd[15:0]. -/
  | lih (i : Issue) (body : BitVec 22)
  /-- CMP (R106). Integer comparison writing a predicate. -/
  | cmp (i : Issue) (body : BitVec 22)
  /-- PLOGIC (R59). Predicate logic operation FN on pa and pb. -/
  | plogic (i : Issue) (body : BitVec 22)
  /-- LD (R75). Load a 32-bit scratchpad word through the six-cycle pipeline. -/
  | ld (i : Issue) (body : BitVec 22)
  /-- ST (R75). Store a 32-bit word to the scratchpad. -/
  | st (i : Issue) (body : BitVec 22)
  /-- BR (R77). Branch to an absolute bundle index when enabled. -/
  | br (i : Issue) (body : BitVec 22)
  /-- CALL (R77). Write the return index to s31 and branch. -/
  | call (i : Issue) (body : BitVec 22)
  /-- JR (R77). Branch to sa[11:0]. -/
  | jr (i : Issue) (body : BitVec 22)
  /-- LOOP (R79). Push a hardware loop level, or skip the body for a count of 0. -/
  | loop (i : Issue) (body : BitVec 22)
  /-- TIME (R89). Read a tick, phase or sequence value, latching the 48-bit tick on selector 0. -/
  | time (i : Issue) (body : BitVec 22)
  /-- CSRR (R95). Read 32 bits of a tile CSR. -/
  | csrr (i : Issue) (body : BitVec 22)
  /-- CSRW (R95). Write a tile CSR that the program may write. -/
  | csrw (i : Issue) (body : BitVec 22)
  /-- BREAK (R93). Debug stop when BREAK_ENABLE is 1, otherwise no operation. -/
  | brk (i : Issue) (body : BitVec 22)
  /-- EXIT (R82). Request program end once issued instructions complete. -/
  | exit (i : Issue) (body : BitVec 22)
  /-- VADD (R103). Lane-wise integer add. -/
  | vadd (i : Issue) (body : BitVec 22)
  /-- VSUB (R103). Lane-wise integer subtract. -/
  | vsub (i : Issue) (body : BitVec 22)
  /-- VAND (R103). Lane-wise bitwise AND. -/
  | vand (i : Issue) (body : BitVec 22)
  /-- VOR (R103). Lane-wise bitwise OR. -/
  | vor (i : Issue) (body : BitVec 22)
  /-- VXOR (R103). Lane-wise bitwise XOR. -/
  | vxor (i : Issue) (body : BitVec 22)
  /-- VSHL (R104). Lane-wise shift left. -/
  | vshl (i : Issue) (body : BitVec 22)
  /-- VSHR (R104). Lane-wise logical shift right. -/
  | vshr (i : Issue) (body : BitVec 22)
  /-- VSRA (R104). Lane-wise arithmetic shift right. -/
  | vsra (i : Issue) (body : BitVec 22)
  /-- VMUL (R103). Lane-wise low 32 bits of the product. -/
  | vmul (i : Issue) (body : BitVec 22)
  /-- VFADD (R107). Lane-wise FP32 add rounded once under RNE. -/
  | vfadd (i : Issue) (body : BitVec 22)
  /-- VFSUB (R107). Lane-wise FP32 subtract rounded once under RNE. -/
  | vfsub (i : Issue) (body : BitVec 22)
  /-- VFMUL (R109). Lane-wise FP32 multiply. -/
  | vfmul (i : Issue) (body : BitVec 22)
  /-- VFMA (R111). Lane-wise fused multiply-add with a single rounding. -/
  | vfma (i : Issue) (body : BitVec 22)
  /-- VFMIN (R112). Lane-wise FP32 minimum with canonical NaN. -/
  | vfmin (i : Issue) (body : BitVec 22)
  /-- VFMAX (R112). Lane-wise FP32 maximum with canonical NaN. -/
  | vfmax (i : Issue) (body : BitVec 22)
  /-- VCMP (R106). Lane-wise comparison writing a predicate. -/
  | vcmp (i : Issue) (body : BitVec 22)
  /-- VSEL (R67). Lane-wise select by a predicate. -/
  | vsel (i : Issue) (body : BitVec 22)
  /-- VCVT (R135). Format conversion selected by PART and CODE. -/
  | vcvt (i : Issue) (body : BitVec 22)
  /-- VRCP (R114). Lane-wise correctly rounded reciprocal. -/
  | vrcp (i : Issue) (body : BitVec 22)
  /-- VRSQ (R114). Lane-wise correctly rounded reciprocal square root. -/
  | vrsq (i : Issue) (body : BitVec 22)
  /-- VEXP2 (R114). Lane-wise correctly rounded 2^x. -/
  | vexp2 (i : Issue) (body : BitVec 22)
  /-- VLOG2 (R114). Lane-wise correctly rounded log2. -/
  | vlog2 (i : Issue) (body : BitVec 22)
  /-- VLD (R105). Load a 128-byte line into a vector register. -/
  | vld (i : Issue) (body : BitVec 22)
  /-- VST (R105). Store the enabled lanes of a vector register. -/
  | vst (i : Issue) (body : BitVec 22)
  /-- VLDC (R75). Load a column of a 32 x 32 block. -/
  | vldc (i : Issue) (body : BitVec 22)
  /-- VSTC (R75). Store a vector register to a column of a block. -/
  | vstc (i : Issue) (body : BitVec 22)
  /-- VRED (R116). Exact lane reduction over the enabled lanes, rounded once. -/
  | vred (i : Issue) (body : BitVec 22)
  /-- VBCAST (R102). Broadcast a scalar to every lane. -/
  | vbcast (i : Issue) (body : BitVec 22)
  /-- VEXTR (R59). Extract one lane into a scalar register. -/
  | vextr (i : Issue) (body : BitVec 22)
  /-- VSHUF (R67). Lane permutation by indices taken from vb. -/
  | vshuf (i : Issue) (body : BitVec 22)
  /-- MLDW (R159). Issue a weight-buffer load into the M queue. -/
  | mldw (i : Issue) (body : BitVec 22)
  /-- MRUN (R153). Issue an activation stream run into the M queue. -/
  | mrun (i : Issue) (body : BitVec 22)
  /-- MZERO (R161). Issue a zeroing of collector rows into the M queue. -/
  | mzero (i : Issue) (body : BitVec 22)
  /-- MDRAIN (R162). Issue a conversion of collector rows to the scratchpad into the M queue. -/
  | mdrain (i : Issue) (body : BitVec 22)
  /-- MWGB (R164). Issue an add of collector rows into a WGB block into the M queue. -/
  | mwgb (i : Issue) (body : BitVec 22)
  /-- MRUN_START (R170). A queued MRUN starts once its start conditions hold and streams beats into the arrays. -/
  | mrunStart (t : TileId)
  /-- MLDW_START (R170). A queued MLDW starts on a free weight path and reads its image. -/
  | mldwStart (t : TileId)
  /-- MDRAIN_START (R170). A queued MDRAIN starts on a free drain path and reads collector rows. -/
  | mdrainStart (t : TileId)
  /-- MWGB_START (R172). A queued MWGB starts and adds rows into the WGB. -/
  | mwgbStart (t : TileId)
  /-- MZERO_START (R170). A queued MZERO starts and sets the named rows to +0. -/
  | mzeroStart (t : TileId)
  /-- ROW_COMMIT (R174). An MRUN commits the collector rows of vector t at s + L_A + P x t. -/
  | rowCommit (t : TileId) (v : Nat)
  /-- WEIGHT_BUFFER_READY (R172). An MLDW buffer becomes ready at start + 8 + C. -/
  | weightBufferReady (t : TileId) (buf : Fin 8)
  /-- DRAIN_LAND (R172). An MDRAIN beat or row lands in the scratchpad at start + 6 + k. -/
  | drainLand (t : TileId)
  /-- XSEND (R218). Send compiled beats from the scratchpad or the WGB quantiser into the fabric. -/
  | xsend (i : Issue) (body : BitVec 22)
  /-- XRECV (R220). Arm a tagged receive for compiled beats. -/
  | xrecv (i : Issue) (body : BitVec 22)
  /-- QISSUE (R279). Issue a stream descriptor to a queue and return an issue status. -/
  | qissue (i : Issue) (body : BitVec 22)
  /-- WAITQ (R68). Wait until COUNT descriptors of a queue have completed, then retire them. -/
  | waitq (i : Issue) (body : BitVec 22)
  /-- QPOLL (R279). Return the number of completed and unretired descriptors of a queue. -/
  | qpoll (i : Issue) (body : BitVec 22)
  /-- COPEN (R245). Open a send connection to an endpoint or a channel group. -/
  | copen (i : Issue) (body : BitVec 22)
  /-- CCLOSE (R247). Close a send handle or a receive endpoint. -/
  | cclose (i : Issue) (body : BitVec 22)
  /-- CSEND (R252). Blocking send of a channel message. -/
  | csend (i : Issue) (body : BitVec 22)
  /-- CSENDNB (R252). Non-blocking send of a channel message. -/
  | csendnb (i : Issue) (body : BitVec 22)
  /-- CRECV (R255). Blocking receive from an operand queue. -/
  | crecv (i : Issue) (body : BitVec 22)
  /-- CRECVNB (R255). Non-blocking receive from an operand queue. -/
  | crecvnb (i : Issue) (body : BitVec 22)
  /-- SYNC (R86). Arrive at the local sync and wait until it closes. -/
  | sync (i : Issue) (body : BitVec 22)
  /-- BARRIVE (R262). Arrive at a barrier object. -/
  | barrive (i : Issue) (body : BitVec 22)
  /-- BWAIT (R263). Wait for a barrier generation to be released. -/
  | bwait (i : Issue) (body : BitVec 22)
  /-- DMA (R205). Queue a PUT or GET descriptor to a remote window. -/
  | dma (i : Issue) (body : BitVec 22)
  /-- SWAIT (R265). Wait until a completion signal reaches COUNT, then subtract COUNT. -/
  | swait (i : Issue) (body : BitVec 22)
  /-- TILE_ENDED (R82). After EXIT the tile enters ENDED, leaves the sync, closes its endpoints and breaks or retires barriers. -/
  | tileEnded (t : TileId)
  /-- WAIT_RELEASE (R84). The condition of a waiting instruction is met and the next bundle issues 2 cycles later. -/
  | waitRelease (t : TileId)
  /-- WAIT_TIMEOUT (R87). A WAITQ or SWAIT exceeds WAIT_LIMIT x 1,024 cycles and traps. -/
  | waitTimeout (t : TileId)
  /-- TILE_GO (R96). A GO write starts a tile from IDLE or resumes it from DEBUG_STOP. -/
  | tileGo (t : TileId)
  /-- TILE_STOP (R93). A STOP write stops a tile before its next bundle with trap STOPPED. -/
  | tileStop (t : TileId) (byGondola : Bool)
  /-- COUNTER_CLEAR (R97). The CLEAR bit of COUNTER_CONTROL sets every tile counter to zero. -/
  | counterClear (t : TileId)
  /-- NF_CLEAR (R122). The CLEAR bit of NF_CONTROL zeroes the non-finite counters. -/
  | nfClear (t : TileId)
  /-- CV_CLEAR (R146). The CLEAR bit of CV_CONTROL zeroes the conversion counters. -/
  | cvClear (t : TileId)
  /-- REGION_CONFIG_WRITE (R198). A REGION_CONFIG write configures a region; enabling it zeroes HEAD, TAIL and the mirror words. -/
  | regionConfigWrite (t : TileId) (g : Fin 16) (v : W64)
  /-- MIRROR_REREAD (R195). The hardware side of a region re-reads the program's mirror pointer every 16 cycles. -/
  | mirrorReread (t : TileId) (g : Fin 16)
  /-- REGISTER_WRITE (R11). A write to a register with no behaviour of its own follows its access codes. -/
  | registerWrite (addr : BitVec 48) (v : W64)
  /-- TICK_COUNTER_ADVANCE (R30). The tick counter advances by one at cycle 0 of each tick. -/
  | tickCounterAdvance
  /-- TICK_EDGE (R33). A rising tick input edge is classified as chatter, accepted or phase error. -/
  | tickEdge (lowBits : Option (BitVec 16))
  /-- TICK_LOST (R34). With no accepted edge for 8 tick periods the receiver enters holdover. -/
  | tickLost
  /-- HOLDOVER_EXPIRY (R37). Holdover reaching 1,024 ticks enters EXPIRED and faults the step. -/
  | holdoverExpiry
  /-- CLOCK_RETURN (R212). A half at 400 MHz begins its 64-cycle return to 800 MHz at z + 1. -/
  | clockReturn (h : HalfId)
  /-- CLOCK_SWITCH_COMPLETE (R464). A 64-cycle clock switch of a half completes. -/
  | clockSwitchComplete (h : HalfId)
  /-- DECISION (R43). At T_x - L/2 the system master broadcasts GO, SLIP or FAULT. -/
  | decision (what : DecisionFor)
  /-- EXCHANGE_PHASE_START (R212). The exchange phase begins at e0, at z + 26, z + 90 or its scheduled tick. -/
  | exchangePhaseStart (p : PartId)
  /-- SUPERSTEP_BOUNDARY (R39). After E exchange cycles the superstep ends and SUPERSTEP_NUM increments. -/
  | superstepBoundary (p : PartId)
  /-- COMMIT (R51). At the commit tick STEP_NUM increments and the step's state is committed. -/
  | commit (p : PartId)
  /-- CHECKPOINT_START (R441). At the checkpoint start event the tiles are held and the image is written. -/
  | checkpointStart (p : PartId)
  /-- CKPT_SAVE_COMPLETE (R441). The image is written, the schedule moves and the tiles are released. -/
  | ckptSaveComplete (p : PartId) (remoteOk : Bool)
  /-- CLOCK_EVENT (R467). At a clock event tick the masked halves switch clock or stay FULL. -/
  | clockEvent (p : PartId)
  /-- OPTIONAL_DECISION (R470). Ballast chooses 800 or 400 MHz for an OPTIONAL event at T - 16. -/
  | optionalDecision (p : PartId)
  /-- BEAT_LANDING (R220). A compiled beat enters a tile and lands in its armed receive. -/
  | beatLanding (p : PartId) (k : Nat)
  /-- INBOUND_BEAT (R231). A compiled beat entering a port is forwarded, relayed or held until W_START. -/
  | inboundBeat (q : PortId) (transfer : BitVec 16) (tag : BitVec 4) (data : List W32)
  /-- HELD_BEAT_FORWARD (R231). A held inbound beat is forwarded from W_START in a free cycle. -/
  | heldBeatForward (q : PortId)
  /-- EXCHANGE_STALL (R232). A transfer not forwarded by F stalls the partition's exchange at F + 1. -/
  | exchangeStall (p : PartId)
  /-- STALL_LIMIT (R232). A stall reaching 4 ticks raises a module fault and fails the step. -/
  | stallLimit (p : PartId)
  /-- OPEN_REQUEST (R245). A target endpoint decides a COPEN request and grants quota. -/
  | openRequest (src : PktFrom)
  /-- COPEN_REPLY (R246). The last target reply completes a COPEN. -/
  | copenReply (src : PktFrom)
  /-- COPEN_TIMEOUT (R246). A COPEN with no reply after STALL_LIMIT x 1,024 cycles completes with TIMEOUT. -/
  | copenTimeout (t : TileId) (h : Fin 64)
  /-- CLOSE_NOTICE (R249). A close notice closes the connection and ends a waiting CSEND with CLOSED. -/
  | closeNotice (src : PktFrom)
  /-- CLOSE_ACK (R247). The target acknowledges a close and the pool entry becomes free. -/
  | closeAck (src : PktFrom)
  /-- CREDIT_RETURN (R250). A returned credit reaches the sending connection. -/
  | creditReturn (src : PktFrom)
  /-- DROP_NOTICE (R249). A drop notice reaches the sender and increments DROPPED. -/
  | dropNotice (src : PktFrom)
  /-- OPQ_LANDING (R255). A channel message lands in an operand queue or is dropped at a closed endpoint. -/
  | opqLanding (src : PktFrom)
  /-- RING_RECORD_LANDING (R254). A channel message lands as a record in a ring and TAIL advances. -/
  | ringRecordLanding (src : PktFrom)
  /-- SEND_TIMEOUT (R253). A blocking CSEND waiting STALL_LIMIT x 1,024 cycles for credit traps. -/
  | sendTimeout (t : TileId)
  /-- RECV_TIMEOUT (R255). A blocking CRECV ends with TIMEOUT at the stall limit. -/
  | recvTimeout (t : TileId)
  /-- BARRIER_ARRIVAL (R262). A BARRIVE is counted at the barrier 24 cycles after issue. -/
  | barrierArrival (b : Fin 4096)
  /-- BARRIER_LIMIT_EXPIRY (R264). A generation older than LIMIT x 65,536 cycles breaks the barrier. -/
  | barrierLimitExpiry (b : Fin 4096)
  /-- DMA_COMPLETION (R265). A DMA descriptor completes and increments its signal under its mode. -/
  | dmaCompletion (t : TileId)
  /-- PUT_DATA (R201). A DMA PUT packet arrives, is window-checked and lands or is forwarded. -/
  | putData (q : PortId) (pkt : DmaPkt)
  /-- GET_REQUEST (R201). A DMA GET request arrives, is checked and its data is read back. -/
  | getRequest (q : PortId) (pkt : DmaPkt)
  /-- GET_DATA (R381). Returned GET data lands in the issuing tile. -/
  | getData (q : PortId) (pkt : DmaPkt)
  /-- DMA_ACK (R381). A PUT acknowledgement reaches the issuing module. -/
  | dmaAck (q : PortId) (pkt : DmaPkt)
  /-- DENY (R202). A refusal reaches the sending DMA engine and its step faults. -/
  | deny (q : PortId) (pkt : DmaPkt)
  /-- STREAM_READ_DATA (R284). Read data of a stream request lands and may complete its descriptor. -/
  | streamReadData (t : TileId) (k : Nat)
  /-- STREAM_WRITE_ACK (R285). The acknowledgement of a WRITE burst reaches the tile and may complete the descriptor. -/
  | streamWriteAck (t : TileId) (k : Nat)
  /-- STACK_REQUEST (R292). A burst request reaches a stack channel with its rank and index. -/
  | stackRequest (src : ReqSource)
  /-- CHANNEL_GRANT (R293). At a burst boundary the channel grants the lowest rank and index and serves the burst. -/
  | channelGrant (n : StackId) (ch : Fin 16)
  /-- BACKOFF_EXPIRY (R294). A losing requester presents again after its back-off. -/
  | backoffExpiry (n : StackId) (ch : Fin 16) (k : Nat)
  /-- MAINTENANCE_WINDOW (R275). A channel gives a 48-cycle window for refresh and scrub. -/
  | maintenanceWindow (n : StackId) (ch : Fin 16) (passDone : Bool)
  /-- ZERO_FILL_COMPLETE (R276). The zero fill of a MAP completes and the pages enter state B or C. -/
  | zeroFillComplete (k : Nat)
  /-- MOVE_FLIP (R278). When every burst is copied, every directory copy moves the page to its destination. -/
  | moveFlip (page : Nat)
  /-- FRAME_RELEASE (R278). The source frame returns to the free pool after the pre-flip requests complete. -/
  | frameRelease (k : Nat)
  /-- REEL_ACTIVATE (R290). A Reel entry becomes active at superstep START and fetches to its queue. -/
  | reelActivate (p : PartId)
  /-- NMU_START (R321). At superstep START every NMU begins updating the partition's shards. -/
  | nmuStart (p : PartId)
  /-- SHARD_COMPLETE (R327). A shard's update completes, it becomes STAGED and its signal increments. -/
  | shardComplete (i : Fin 16384)
  /-- CONTRIBUTION_BEAT (R342). A quantised contribution beat enters an engine's LOCAL input. -/
  | contributionBeat (e : PortId) (k : Nat)
  /-- REDUCTION_PACKET (R347). An EW16 reduction packet arrives on LINK and is checked. -/
  | reductionPacket (q : PortId) (jobTag : BitVec 16) (epoch : BitVec 8) (payload : List W32)
  /-- CHAIN_BLOCK (R346). An EW16 block arrives on CHAIN from another engine. -/
  | chainBlock (e : PortId) (k : Nat)
  /-- BLOCK_SUM (R349). The adder serves a ready block, sums it exactly and emits it. -/
  | blockSum (e : PortId)
  /-- DELIVERY (R354). A summed block is converted to FP32 and delivered from W_START. -/
  | delivery (e : PortId)
  /-- BARRIER_LINE_RELEASE (R370). After its sync closes, the module releases the Bridle line at cycle 0. -/
  | barrierLineRelease
  /-- BARRIER_LINE_SAMPLE (R370). At cycle 320 each module samples the line; a high sample completes the barrier. -/
  | barrierLineSample (high : Bool)
  /-- BRIDLE_TIMEOUT (R372). The line stays low TIMEOUT ticks after release and the step faults. -/
  | bridleTimeout
  /-- LINK_BEAT (R375). A link beat is received, FEC-decoded and delivered by class. -/
  | linkBeat (q : PortId) (fec : FecResult) (hdr : W64) (body : List W32)
  /-- LINK_ACK_TIMER (R379). The receiver sends ACK at least every 64 cycles. -/
  | linkAckTimer (q : PortId)
  /-- ACK (R379). A link ACK frees buffered beats at the sender. -/
  | ack (q : PortId) (seq : BitVec 16)
  /-- NAK (R379). A NAK makes the sender replay from its replay buffer. -/
  | nak (q : PortId) (seq : BitVec 16)
  /-- TICK (R389). A TICK symbol arrives and yields a compensated tick edge. -/
  | tick (q : PortId) (arg : W32)
  /-- READY (R383). A READY symbol arrives and is aggregated upstream. -/
  | ready (q : PortId) (sym : Sym)
  /-- GO (R44). A GO decision arrives and is relayed; the event begins at T_x. -/
  | go (q : PortId) (sym : Sym)
  /-- SLIP (R44). A SLIP decision moves T_x and every later event by 16 ticks. -/
  | slip (q : PortId) (sym : Sym)
  /-- FAULT (R44). A FAULT decision faults the step and acts as an ABANDON. -/
  | fault (q : PortId) (sym : Sym)
  /-- FAIL (R388). A FAIL symbol is relayed upstream or, at the system master, triggers ABANDON. -/
  | fail (q : PortId) (sym : Sym)
  /-- ABANDON (R401). An ABANDON symbol starts the ordered abandonment of the step. -/
  | abandon (q : PortId) (sym : Sym)
  /-- ECHO_REQ (R390). An echo request is answered with ECHO_REPLY and the turnaround. -/
  | echoReq (q : PortId) (stamp : W32)
  /-- ECHO_REPLY (R495). An echo reply gives one delay measurement. -/
  | echoReply (q : PortId) (roundTrip16 turnaround16 : Nat)
  /-- ALIGNMENT_RECORD (R497). An alignment record steers phase or loads the tick number when LOADED is set. -/
  | alignmentRecord (q : PortId) (number : BitVec 48) (offset16 : Nat) (loaded : Bool)
  /-- ALIGNMENT_REPORT (R498). An alignment report carries the largest subtree delay upstream. -/
  | alignmentReport (q : PortId) (delay : Nat)
  /-- STEP_FAULT (R396). On the first cause of a step Gondola records it, stops the tiles and sends FAIL. -/
  | stepFault (p : PartId)
  /-- ABANDON_BROADCAST (R397). The system master sends ABANDON at cycle 0 of the tick after the first FAIL. -/
  | abandonBroadcast (p : PartId)
  /-- LATE_ABANDON (R398). A FAIL after commit GO abandons the following step after the commit. -/
  | lateAbandon (p : PartId)
  /-- ABANDON_LOST (R400). No ABANDON within RESTART_LEAD ticks halts the partition. -/
  | abandonLost (p : PartId)
  /-- ABANDON_DRAIN_COMPLETE (R401). The engines become idle and the abandonment continues through its remaining steps. -/
  | abandonDrainComplete (p : PartId)
  /-- RESTART (R403). At T_r Gondola starts every tile with GO to repeat the step. -/
  | restart (p : PartId)
  /-- SCRUB_COMPLETE (R414). The partition scrub completes and SCRUBS increments. -/
  | scrubComplete (p : PartId)
  /-- IDENTIFY (R431). Return the identity block. -/
  | identify (f : Frame)
  /-- SET_MODULE_NUM (R385). Assign MODULE_NUM. -/
  | setModuleNum (f : Frame)
  /-- ROLE_CONFIRM (R384). Confirm the system master role. -/
  | roleConfirm (f : Frame)
  /-- SET_TICK_TREE (R393). Write UPSTREAM and CHILDREN of the tick tree. -/
  | setTickTree (f : Frame)
  /-- LINK_TRAIN (R494). Train the named ports through five stages. -/
  | linkTrain (f : Frame)
  /-- LINK_TRAIN_COMPLETE (R494). Training ends and COMMAND_DONE reports OK or LINK_DOWN. -/
  | linkTrainComplete (upMask : Nat)
  /-- TICK_SYNC (R499). Acquire the tick, or load N on the system master. -/
  | tickSync (f : Frame)
  /-- TICK_SYNC_COMPLETE (R498). TICK_SYNC completes when locked and reported, giving D on the master. -/
  | tickSyncComplete (upHops upDelay : Nat)
  /-- PART_SET (R432). Set or dissolve a partition's halves. -/
  | partSet (f : Frame)
  /-- PART_PORTS (R432). Assign ports to a partition. -/
  | partPorts (f : Frame)
  /-- SET_QUOTA (R277). Set a partition's tier quotas. -/
  | setQuota (f : Frame)
  /-- MAP (R276). Map UNMAPPED pages into a tier with zero fill. -/
  | map (f : Frame)
  /-- MOVE (R278). Move mapped pages to the other tier via the Winch agents. -/
  | move (f : Frame)
  /-- UNMAP (R276). Return the frames of mapped pages. -/
  | unmap (f : Frame)
  /-- MEM_READ (R433). Read bytes of the DRAM range. -/
  | memRead (f : Frame)
  /-- MEM_WRITE (R433). Write bytes of the DRAM range. -/
  | memWrite (f : Frame)
  /-- WIN_TILE (R432). Write a tile window's range and control. -/
  | winTile (f : Frame)
  /-- WIN_DRAM (R300). Write a DRAM window entry. -/
  | winDram (f : Frame)
  /-- LOAD (R437). Check, map, patch and write a LOF into a partition. -/
  | load (f : Frame)
  /-- JOB_START (R438). Arm the step schedule and the start tick of a loaded job. -/
  | jobStart (f : Frame)
  /-- JOB_START_TICK (R438). At the start tick Gondola starts every tile and the job runs. -/
  | jobStartTick (p : PartId)
  /-- JOB_KILL (R413). Kill the running job and order the scrub or retain contents. -/
  | jobKill (f : Frame)
  /-- JOB_STATUS (R439). Return the job status record. -/
  | jobStatus (f : Frame)
  /-- SCRUB (R416). Scrub a KILLED_RETAINED partition. -/
  | scrub (f : Frame)
  /-- CKPT_SAVE (R441). Arm a checkpoint save after the commit of step s. -/
  | ckptSave (f : Frame)
  /-- CKPT_RESTORE (R443). Read a checkpoint image into a loaded job. -/
  | ckptRestore (f : Frame) (image : Option (List Byte))
  /-- REG_READ (R433). Read words of the control or tile space. -/
  | regRead (f : Frame)
  /-- REG_WRITE (R433). Write words of the control or tile space. -/
  | regWrite (f : Frame)
  /-- POWER_SET (R472). Set clock ceilings, floors and module ceilings. -/
  | powerSet (f : Frame)
  /-- QUOTE (R458). Return a signed attestation quote. -/
  | quote (f : Frame)
  /-- CERT_READ (R449). Return the certificate of an index. -/
  | certRead (f : Frame)
  /-- FW_INSTALL (R457). Verify and stage a firmware image in the inactive slot. -/
  | fwInstall (f : Frame)
  /-- STATUS_READ (R423). Answer with the mailbox status in every state. -/
  | statusRead (crcOk : Bool)
  /-- HALT (R426). A qualified HALT_N assertion aborts a running class D or L command. -/
  | halt (lowNs : Nat) (wordsDone : Nat)
  /-- SVN_FLOOR_RAISE (R455). After boot completes Atgen raises the version floor to the running SVN. -/
  | svnFloorRaise
  /-- BALLAST_PERIOD (R469). Each 1,024-tick period Ballast computes the budget and allotments. -/
  | ballastPeriod (start : BitVec 48)
  /-- POLICY_TAKES_EFFECT (R474). A pending power policy takes effect at a period start. -/
  | policyTakesEffect
  /-- POWER_SAMPLE (R475). Input voltage, current and power are sampled every 1 us and checked against the trips. -/
  | powerSample (tenMilliVolt deciAmp : Nat) (draw : PowerDraw)
  /-- THERMAL_SAMPLE (R476). Temperature sensors are sampled every 100 us. -/
  | thermalSample (tele : ThermalTelemetry)
  /-- EMERGENCY_RESTART (R478). After every trip clears, the clocks restart at cycle PHASE. -/
  | emergencyRestart
  /-- POWER_ON (R487). Input rising past 40 V starts a cold reset and the power-on sequence. -/
  | powerOn (env : BootEnv)
  /-- POWER_LOSS (R488). Input below 36 V holds the module in cold reset. -/
  | powerLoss
  /-- RESET_N (R514). RESET_N held low for 10 us or more causes a cold reset. -/
  | resetN (lowNs : Nat) (env : BootEnv)
  /-- WARM_RESET (R483). A WARM write is accepted when no job is loaded. -/
  | warmReset
  /-- WARM_RESET_BEGIN (R483). The warm reset begins 100 us after the response. -/
  | warmResetBegin (env : BootEnv)
  /-- TILE_RESET (R484). A TILE_RESET write resets one stopped tile core. -/
  | tileReset (t : TileId)
  /-- TELEMETRY_READ (R516). An I2C read returns telemetry bytes from the offset given. -/
  | telemetryRead (first : TelStart) (count : Nat)
  /-- COLLECTION_PASS (R532). Every 1,024 ticks Gondola starts reading the source counters. -/
  | collectionPass
  /-- COLLECTION_PASS_COMPLETE (R533). The sums, COLLECT_STATUS and MODULE_EVENTS take their new values. -/
  | collectionPassComplete
  /-- HALT_RELEASE (R513). The qualified HALT assertion ends after HALT_N has been high for 10 us without a break, and commands are accepted again. -/
  | haltRelease (highNs : Nat)
  /-- RESET_N_RELEASE (R487). RESET_N going high lets a power-on sequence held at the end of RAILS continue 1 ms later. -/
  | resetNRelease (env : BootEnv)
  /-- KITELINE_DOWN (R425). The Kiteline link goes down, and host events wait in the queue instead of being sent. -/
  | kitelineDown
  /-- KITELINE_UP (R425). The Kiteline link returns, and the queued EVENT frames are sent in order. -/
  | kitelineUp
  deriving DecidableEq, Repr

end Sys2Proof
end

