-- ==== Sys2Proof/Decode.lean ====
section
/-! DEFINITION. Reading commands from words. No row of the opcode table gives bits, so no table word spells a command; the slot words of
instruction memory (03 R63 to R67) spell the slot instructions, and are written back by `encodeSlot`. -/

namespace Sys2Proof

/-- The command a table word spells: none, since spec/opcode_table.json gives no row bits. -/
def decodeTableWord (_nbits _w : Nat) : Option Instr := none

/-! ## Slot words (R64) -/

/-- The opcodes a slot lists besides NOP (R67). -/
def opListed (q : Slot) (op : Nat) : Bool :=
  match q with
  | .s => (1 ≤ op && op ≤ 0x1A) || [0x20, 0x21, 0x28, 0x29, 0x2A, 0x2B, 0x30, 0x31, 0x32, 0x3E, 0x3F].contains op
  | .v => (1 ≤ op && op ≤ 9) || (0x10 ≤ op && op ≤ 0x15) || (0x18 ≤ op && op ≤ 0x1E) || (0x20 ≤ op && op ≤ 0x23) ||
      (0x28 ≤ op && op ≤ 0x2B)
  | .m => 1 ≤ op && op ≤ 5
  | .x => [1, 2, 8, 9, 0xA, 0x10, 0x11, 0x12, 0x13, 0x14, 0x15, 0x18, 0x19, 0x1A, 0x20, 0x21].contains op

/-- OP of a slot word. -/
def wordOp (w : W32) : BitVec 6 := w.extractLsb' 26 6
/-- BODY of a slot word. -/
def wordBody (w : W32) : BitVec 22 := w.extractLsb' 0 22
/-- How a tile issues a slot word: PRED, PNEG, and whether a further slot of the bundle follows. -/
def wordIssue (t : TileId) (more : Bool) (w : W32) : Issue :=
  { tile := t, pred := w.extractLsb' 23 3, pneg := w.getLsbD 22, more }
/-- A slot word from its fields. -/
def slotBits (op : BitVec 6) (i : Issue) (body : BitVec 22) : W32 := op ++ i.pred ++ BitVec.ofBool i.pneg ++ body

/-- The instruction of an opcode of the S slot (R67); NOP stands for 0x00 and for every unlisted opcode, which traps. -/
def decodeS (op : BitVec 6) (i : Issue) (b : BitVec 22) : Instr :=
  match op.toNat with
  | 0x01 => .add i b
  | 0x02 => .sub i b
  | 0x03 => .and i b
  | 0x04 => .or i b
  | 0x05 => .xor i b
  | 0x06 => .shl i b
  | 0x07 => .shr i b
  | 0x08 => .sra i b
  | 0x09 => .mul i b
  | 0x0A => .mulhs i b
  | 0x0B => .mulhu i b
  | 0x0C => .min i b
  | 0x0D => .max i b
  | 0x0E => .minu i b
  | 0x0F => .maxu i b
  | 0x10 => .addi i b
  | 0x11 => .andi i b
  | 0x12 => .ori i b
  | 0x13 => .xori i b
  | 0x14 => .shli i b
  | 0x15 => .shri i b
  | 0x16 => .srai i b
  | 0x17 => .lil i b
  | 0x18 => .lih i b
  | 0x19 => .cmp i b
  | 0x1A => .plogic i b
  | 0x20 => .ld i b
  | 0x21 => .st i b
  | 0x28 => .br i b
  | 0x29 => .call i b
  | 0x2A => .jr i b
  | 0x2B => .loop i b
  | 0x30 => .time i b
  | 0x31 => .csrr i b
  | 0x32 => .csrw i b
  | 0x3E => .brk i b
  | 0x3F => .exit i b
  | _ => .nop i .s op b

/-- The instruction of an opcode of the V slot (R67); NOP stands for 0x00 and for every unlisted opcode, which traps. -/
def decodeV (op : BitVec 6) (i : Issue) (b : BitVec 22) : Instr :=
  match op.toNat with
  | 0x01 => .vadd i b
  | 0x02 => .vsub i b
  | 0x03 => .vand i b
  | 0x04 => .vor i b
  | 0x05 => .vxor i b
  | 0x06 => .vshl i b
  | 0x07 => .vshr i b
  | 0x08 => .vsra i b
  | 0x09 => .vmul i b
  | 0x10 => .vfadd i b
  | 0x11 => .vfsub i b
  | 0x12 => .vfmul i b
  | 0x13 => .vfma i b
  | 0x14 => .vfmin i b
  | 0x15 => .vfmax i b
  | 0x18 => .vcmp i b
  | 0x19 => .vsel i b
  | 0x1A => .vcvt i b
  | 0x1B => .vrcp i b
  | 0x1C => .vrsq i b
  | 0x1D => .vexp2 i b
  | 0x1E => .vlog2 i b
  | 0x20 => .vld i b
  | 0x21 => .vst i b
  | 0x22 => .vldc i b
  | 0x23 => .vstc i b
  | 0x28 => .vred i b
  | 0x29 => .vbcast i b
  | 0x2A => .vextr i b
  | 0x2B => .vshuf i b
  | _ => .nop i .v op b

/-- The instruction of an opcode of the M slot (R67); NOP stands for 0x00 and for every unlisted opcode, which traps. -/
def decodeM (op : BitVec 6) (i : Issue) (b : BitVec 22) : Instr :=
  match op.toNat with
  | 0x01 => .mldw i b
  | 0x02 => .mrun i b
  | 0x03 => .mzero i b
  | 0x04 => .mdrain i b
  | 0x05 => .mwgb i b
  | _ => .nop i .m op b

/-- The instruction of an opcode of the X slot (R67); NOP stands for 0x00 and for every unlisted opcode, which traps. -/
def decodeX (op : BitVec 6) (i : Issue) (b : BitVec 22) : Instr :=
  match op.toNat with
  | 0x01 => .xsend i b
  | 0x02 => .xrecv i b
  | 0x08 => .qissue i b
  | 0x09 => .waitq i b
  | 0x0A => .qpoll i b
  | 0x10 => .copen i b
  | 0x11 => .cclose i b
  | 0x12 => .csend i b
  | 0x13 => .csendnb i b
  | 0x14 => .crecv i b
  | 0x15 => .crecvnb i b
  | 0x18 => .sync i b
  | 0x19 => .barrive i b
  | 0x1A => .bwait i b
  | 0x20 => .dma i b
  | 0x21 => .swait i b
  | _ => .nop i .x op b

/-- The instruction that a slot of a bundle holds (R63, R64). -/
def decodeSlot (q : Slot) (t : TileId) (more : Bool) (w : W32) : Instr :=
  let i := wordIssue t more w
  match q with
  | .s => decodeS (wordOp w) i (wordBody w)
  | .v => decodeV (wordOp w) i (wordBody w)
  | .m => decodeM (wordOp w) i (wordBody w)
  | .x => decodeX (wordOp w) i (wordBody w)

/-- Slot, opcode, issue fields and body of a slot instruction (R67); none for the other commands. -/
def slotFields (c : Instr) : Option (Slot × BitVec 6 × Issue × BitVec 22) :=
  match c with
  | .nop i q op b => some (q, op, i, b)
  | .add i b => some (.s, 0x01, i, b)
  | .sub i b => some (.s, 0x02, i, b)
  | .and i b => some (.s, 0x03, i, b)
  | .or i b => some (.s, 0x04, i, b)
  | .xor i b => some (.s, 0x05, i, b)
  | .shl i b => some (.s, 0x06, i, b)
  | .shr i b => some (.s, 0x07, i, b)
  | .sra i b => some (.s, 0x08, i, b)
  | .mul i b => some (.s, 0x09, i, b)
  | .mulhs i b => some (.s, 0x0A, i, b)
  | .mulhu i b => some (.s, 0x0B, i, b)
  | .min i b => some (.s, 0x0C, i, b)
  | .max i b => some (.s, 0x0D, i, b)
  | .minu i b => some (.s, 0x0E, i, b)
  | .maxu i b => some (.s, 0x0F, i, b)
  | .addi i b => some (.s, 0x10, i, b)
  | .andi i b => some (.s, 0x11, i, b)
  | .ori i b => some (.s, 0x12, i, b)
  | .xori i b => some (.s, 0x13, i, b)
  | .shli i b => some (.s, 0x14, i, b)
  | .shri i b => some (.s, 0x15, i, b)
  | .srai i b => some (.s, 0x16, i, b)
  | .lil i b => some (.s, 0x17, i, b)
  | .lih i b => some (.s, 0x18, i, b)
  | .cmp i b => some (.s, 0x19, i, b)
  | .plogic i b => some (.s, 0x1A, i, b)
  | .ld i b => some (.s, 0x20, i, b)
  | .st i b => some (.s, 0x21, i, b)
  | .br i b => some (.s, 0x28, i, b)
  | .call i b => some (.s, 0x29, i, b)
  | .jr i b => some (.s, 0x2A, i, b)
  | .loop i b => some (.s, 0x2B, i, b)
  | .time i b => some (.s, 0x30, i, b)
  | .csrr i b => some (.s, 0x31, i, b)
  | .csrw i b => some (.s, 0x32, i, b)
  | .brk i b => some (.s, 0x3E, i, b)
  | .exit i b => some (.s, 0x3F, i, b)
  | .vadd i b => some (.v, 0x01, i, b)
  | .vsub i b => some (.v, 0x02, i, b)
  | .vand i b => some (.v, 0x03, i, b)
  | .vor i b => some (.v, 0x04, i, b)
  | .vxor i b => some (.v, 0x05, i, b)
  | .vshl i b => some (.v, 0x06, i, b)
  | .vshr i b => some (.v, 0x07, i, b)
  | .vsra i b => some (.v, 0x08, i, b)
  | .vmul i b => some (.v, 0x09, i, b)
  | .vfadd i b => some (.v, 0x10, i, b)
  | .vfsub i b => some (.v, 0x11, i, b)
  | .vfmul i b => some (.v, 0x12, i, b)
  | .vfma i b => some (.v, 0x13, i, b)
  | .vfmin i b => some (.v, 0x14, i, b)
  | .vfmax i b => some (.v, 0x15, i, b)
  | .vcmp i b => some (.v, 0x18, i, b)
  | .vsel i b => some (.v, 0x19, i, b)
  | .vcvt i b => some (.v, 0x1A, i, b)
  | .vrcp i b => some (.v, 0x1B, i, b)
  | .vrsq i b => some (.v, 0x1C, i, b)
  | .vexp2 i b => some (.v, 0x1D, i, b)
  | .vlog2 i b => some (.v, 0x1E, i, b)
  | .vld i b => some (.v, 0x20, i, b)
  | .vst i b => some (.v, 0x21, i, b)
  | .vldc i b => some (.v, 0x22, i, b)
  | .vstc i b => some (.v, 0x23, i, b)
  | .vred i b => some (.v, 0x28, i, b)
  | .vbcast i b => some (.v, 0x29, i, b)
  | .vextr i b => some (.v, 0x2A, i, b)
  | .vshuf i b => some (.v, 0x2B, i, b)
  | .mldw i b => some (.m, 0x01, i, b)
  | .mrun i b => some (.m, 0x02, i, b)
  | .mzero i b => some (.m, 0x03, i, b)
  | .mdrain i b => some (.m, 0x04, i, b)
  | .mwgb i b => some (.m, 0x05, i, b)
  | .xsend i b => some (.x, 0x01, i, b)
  | .xrecv i b => some (.x, 0x02, i, b)
  | .qissue i b => some (.x, 0x08, i, b)
  | .waitq i b => some (.x, 0x09, i, b)
  | .qpoll i b => some (.x, 0x0A, i, b)
  | .copen i b => some (.x, 0x10, i, b)
  | .cclose i b => some (.x, 0x11, i, b)
  | .csend i b => some (.x, 0x12, i, b)
  | .csendnb i b => some (.x, 0x13, i, b)
  | .crecv i b => some (.x, 0x14, i, b)
  | .crecvnb i b => some (.x, 0x15, i, b)
  | .sync i b => some (.x, 0x18, i, b)
  | .barrive i b => some (.x, 0x19, i, b)
  | .bwait i b => some (.x, 0x1A, i, b)
  | .dma i b => some (.x, 0x20, i, b)
  | .swait i b => some (.x, 0x21, i, b)
  | _ => none

/-- The slot and the slot word that hold an instruction. -/
def encodeSlot (c : Instr) : Option (Slot × W32) := (slotFields c).map (fun x => (x.1, slotBits x.2.1 x.2.2.1 x.2.2.2))

end Sys2Proof
end

