-- ==== Sys2Proof/Machine/Bits.lean ====
section
/-! DEFINITION. Bit fields of register words, descriptors and bodies, and two's-complement readings (00_scope Notation). -/

namespace Sys2Proof.Machine

/-- Bits [hi:lo] of a number. -/
def bits (v hi lo : Nat) : Nat := (v >>> lo) % 2 ^ (hi + 1 - lo)

/-- Bit i of a number. -/
def bit (v i : Nat) : Bool := v.testBit i

/-- 1 for true, 0 for false. -/
def b2n (b : Bool) : Nat := if b then 1 else 0

/-- A register word from its fields, each given as (lowest bit, value). -/
def packN : List (Nat × Nat) → Nat
  | [] => 0
  | (lo, v) :: r => (v <<< lo) ||| packN r

/-- A 64-bit register word from its fields. -/
def pack (l : List (Nat × Nat)) : W64 := BitVec.ofNat 64 (packN l)

/-- Two's-complement reading of the low `w` bits of a number. -/
def signed (w v : Nat) : Int := if v % 2 ^ w < 2 ^ (w - 1) then (v % 2 ^ w : Nat) else (v % 2 ^ w : Nat) - (2 ^ w : Nat)

/-- Low `w` bits of an integer. -/
def lowBits (w : Nat) (i : Int) : Nat := (i % (2 ^ w : Nat)).toNat

/-- Little-endian bytes of a number. -/
def leBytes : Nat → Nat → List Byte
  | 0, _ => []
  | n + 1, v => BitVec.ofNat 8 v :: leBytes n (v / 256)

/-- The number little-endian bytes spell. -/
def leNat : List Byte → Nat
  | [] => 0
  | b :: r => b.toNat + 256 * leNat r

/-- Little-endian 32-bit words of a number. -/
def leWords : Nat → Nat → List W32
  | 0, _ => []
  | n + 1, v => BitVec.ofNat 32 v :: leWords n (v / 2 ^ 32)

/-- The number little-endian 32-bit words spell. -/
def wordsNat : List W32 → Nat
  | [] => 0
  | w :: r => w.toNat + 2 ^ 32 * wordsNat r

/-- Bytes of 32-bit words, little-endian. -/
def wordsBytes : List W32 → List Byte
  | [] => []
  | w :: r => leBytes 4 w.toNat ++ wordsBytes r

/-- 32-bit words of bytes, little-endian; a short last word is padded with zero bytes (R186). -/
def bytesWords : List Byte → List W32
  | [] => []
  | [a] => [BitVec.ofNat 32 (leNat [a])]
  | [a, b] => [BitVec.ofNat 32 (leNat [a, b])]
  | [a, b, c] => [BitVec.ofNat 32 (leNat [a, b, c])]
  | a :: b :: c :: d :: r => BitVec.ofNat 32 (leNat [a, b, c, d]) :: bytesWords r

/-- Big-endian bytes of a number. -/
def beBytes (n v : Nat) : List Byte := (leBytes n v).reverse

/-- The number big-endian bytes spell. -/
def beNat (l : List Byte) : Nat := leNat l.reverse

/-- Pieces of `n` elements of a list (`fuel` bounds their count). -/
def chunks {α : Type} (n : Nat) : Nat → List α → List (List α)
  | 0, _ => []
  | _, [] => []
  | f + 1, l => l.take n :: chunks n f (l.drop n)

/-- The numbers 0 to n − 1 that satisfy a test. -/
def indices (n : Nat) (p : Nat → Bool) : List Nat := (List.range n).filter p

/-- The indices of the ones among the low `n` bits of a mask. -/
def maskBits (n v : Nat) : List Nat := indices n (bit v)

/-- The mask with ones at the listed indices. -/
def maskOf (l : List Nat) : Nat := l.foldl (fun a i => a ||| (1 <<< i)) 0

end Sys2Proof.Machine
end

