-- ==== Sys2Proof/Machine/Map.lean ====
section
/-! DEFINITION. Sparse maps as plain data: a list of key and value pairs in ONE canonical form (keys strictly rising, no value
equal to what an unlisted key reads as), used for every memory, register file and table of State. -/

namespace Sys2Proof.Machine

/-- A sparse map from a number (an address, a register number, an index) to a value. -/
abbrev SMap (α : Type) := List (Nat × α)

/-- The value at a key; `d` is what an unlisted key reads as. -/
def mget {α : Type} (d : α) : SMap α → Nat → α
  | [], _ => d
  | (j, v) :: r, k => if j = k then v else mget d r k

/-- Insert or replace, keeping the keys rising. -/
def mput {α : Type} (k : Nat) (v : α) : SMap α → SMap α
  | [] => [(k, v)]
  | (j, w) :: r => if k < j then (k, v) :: (j, w) :: r else if k = j then (k, v) :: r else (j, w) :: mput k v r

/-- Remove a key. -/
def mdel {α : Type} (k : Nat) : SMap α → SMap α
  | [] => []
  | (j, w) :: r => if j = k then mdel k r else (j, w) :: mdel k r

/-- Write a value: writing what an unlisted key reads as removes the entry. -/
def mset {α : Type} [DecidableEq α] (d : α) (m : SMap α) (k : Nat) (v : α) : SMap α :=
  if v = d then mdel k m else mput k v m

/-- Change the value at a key. -/
def mmod {α : Type} [DecidableEq α] (d : α) (m : SMap α) (k : Nat) (f : α → α) : SMap α :=
  mset d m k (f (mget d m k))

/-- Write a list of values at rising keys from `k`. -/
def msets {α : Type} [DecidableEq α] (d : α) (m : SMap α) (k : Nat) : List α → SMap α
  | [] => m
  | v :: vs => msets d (mset d m k v) (k + 1) vs

/-- Read `n` values at rising keys from `k`. -/
def mgets {α : Type} (d : α) (m : SMap α) (k n : Nat) : List α :=
  (List.range n).map (fun i => mget d m (k + i))

/-- Every key is above `lo`, keys rise, and no value is the default. -/
def mwfFrom {α : Type} [DecidableEq α] (d : α) : Nat → SMap α → Bool
  | _, [] => true
  | lo, (j, v) :: r => decide (lo ≤ j) && decide (v ≠ d) && mwfFrom d (j + 1) r

/-- The canonical form of a sparse map. -/
def mwf {α : Type} [DecidableEq α] (d : α) (m : SMap α) : Bool := mwfFrom d 0 m

/-- Apply a change to every listed value (a value that becomes the default is removed). -/
def mmapVals {α : Type} [DecidableEq α] (d : α) (f : Nat → α → α) : SMap α → SMap α
  | [] => []
  | (j, v) :: r => let w := f j v
    if w = d then mmapVals d f r else (j, w) :: mmapVals d f r

/-- Keep the entries whose key and value satisfy `p`. -/
def mfilter {α : Type} (p : Nat → α → Bool) (m : SMap α) : SMap α := m.filter (fun e => p e.1 e.2)

/-- The k-th number (from 0) that a rising list does not hold. -/
def kthFree : List Nat → Nat → Nat
  | [], k => k
  | u :: us, k => if u ≤ k then kthFree us (k + 1) else k

/-- Count saturating at 2^w − 1 ("saturates" of the field maps). -/
def satAdd (w a b : Nat) : Nat := min (a + b) (2 ^ w - 1)

/-- The element at an index, with a default. -/
def nth {α : Type} (d : α) : List α → Nat → α
  | [], _ => d
  | a :: _, 0 => a
  | _ :: r, n + 1 => nth d r n

/-- The list without the element at an index. -/
def dropNth {α : Type} : List α → Nat → List α
  | [], _ => []
  | _ :: r, 0 => r
  | a :: r, n + 1 => a :: dropNth r n

/-- Change the element at an index. -/
def modNth {α : Type} (f : α → α) : List α → Nat → List α
  | [], _ => []
  | a :: r, 0 => f a :: r
  | a :: r, n + 1 => a :: modNth f r n

/-- The element at an index, if any. -/
def nth? {α : Type} : List α → Nat → Option α
  | [], _ => none
  | a :: _, 0 => some a
  | _ :: r, n + 1 => nth? r n

/-- Index of the first element that satisfies `p`. -/
def findIdx? {α : Type} (p : α → Bool) : List α → Option Nat
  | [] => none
  | a :: r => if p a then some 0 else (findIdx? p r).map (· + 1)

end Sys2Proof.Machine
end

