-- ==== Sys2Proof/Machine/Sha.lean ====
section
/-! DEFINITION. SHA-384 and HMAC over it (00_scope Notation names SHA-384 and HMAC; the constants are those of FIPS 180-4, log entry 70). -/

namespace Sys2Proof.Machine

/-- The n 64-bit words of a number, the most significant first. -/
def wordsOf : Nat → Nat → List W64
  | 0, _ => []
  | n + 1, v => BitVec.ofNat 64 (v >>> (64 * n)) :: wordsOf n v

/-- The 80 round constants of SHA-384 (the first 64 bits of the fractional parts of the cube roots of the first 80 primes), ten in each
number. -/
def shaK : List W64 := [
  0x428A2F98D728AE227137449123EF65CDB5C0FBCFEC4D3B2FE9B5DBA58189DBBC3956C25BF348B53859F111F1B605D019923F82A4AF194F9BAB1C5ED5DA6D8118D807AA98A303024212835B0145706FBE,
  0x243185BE4EE4B28C550C7DC3D5FFB4E272BE5D74F27B896F80DEB1FE3B1696B19BDC06A725C71235C19BF174CF692694E49B69C19EF14AD2EFBE4786384F25E30FC19DC68B8CD5B5240CA1CC77AC9C65,
  0x2DE92C6F592B02754A7484AA6EA6E4835CB0A9DCBD41FBD476F988DA831153B5983E5152EE66DFABA831C66D2DB43210B00327C898FB213FBF597FC7BEEF0EE4C6E00BF33DA88FC2D5A79147930AA725,
  0x06CA6351E003826F142929670A0E6E7027B70A8546D22FFC2E1B21385C26C9264D2C6DFC5AC42AED53380D139D95B3DF650A73548BAF63DE766A0ABB3C77B2A881C2C92E47EDAEE692722C851482353B,
  0xA2BFE8A14CF10364A81A664BBC423001C24B8B70D0F89791C76C51A30654BE30D192E819D6EF5218D69906245565A910F40E35855771202A106AA07032BBD1B819A4C116B8D2D0C81E376C085141AB53,
  0x2748774CDF8EEB9934B0BCB5E19B48A8391C0CB3C5C95A634ED8AA4AE3418ACB5B9CCA4F7763E373682E6FF3D6B2B8A3748F82EE5DEFB2FC78A5636F43172F6084C87814A1F0AB728CC702081A6439EC,
  0x90BEFFFA23631E28A4506CEBDE82BDE9BEF9A3F7B2C67915C67178F2E372532BCA273ECEEA26619CD186B8C721C0C207EADA7DD6CDE0EB1EF57D4F7FEE6ED17806F067AA72176FBA0A637DC5A2C898A6,
  0x113F9804BEF90DAE1B710B35131C471B28DB77F523047D8432CAAB7B40C724933C9EBE0A15C9BEBC431D67C49C100D4C4CC5D4BECB3E42B6597F299CFC657E2A5FCB6FAB3AD6FAEC6C44198C4A475817].flatMap (wordsOf 10)

/-- The initial hash value of SHA-384, eight words in one number. -/
def sha384Init : List W64 := wordsOf 8
  0xCBBB9D5DC1059ED8629A292A367CD5079159015A3070DD17152FECD8F70E593967332667FFC00B318EB44A8768581511DB0C2E0D64F98FA747B5481DBEFA4FA4

/-- Two right rotations and a third word, combined by exclusive or: the shape of the four mixing functions Σ0, Σ1, σ0 and σ1. -/
def shaMix (i j : Nat) (x third : W64) : W64 := x.rotateRight i ^^^ x.rotateRight j ^^^ third

/-- The next schedule word from the last sixteen, oldest first: σ1 of the word two back, the one seven back, σ0 of the one fifteen back and the
oldest. -/
def shaNext (w : List W64) : W64 :=
  let p := nth 0 w 14
  let q := nth 0 w 1
  shaMix 19 61 p (p >>> 6) + nth 0 w 9 + shaMix 1 8 q (q >>> 7) + nth 0 w 0

/-- One round with its schedule word and constant together (wk), on the list of the eight working variables a to h. -/
def shaRound (v : List W64) (wk : W64) : List W64 :=
  let a := nth 0 v 0
  let e := nth 0 v 4
  let choice := (e &&& nth 0 v 5) ^^^ (~~~e &&& nth 0 v 6)
  let t := nth 0 v 7 + shaMix 14 18 e (e.rotateRight 41) + choice + wk
  let major := (a &&& (nth 0 v 1 ||| nth 0 v 2)) ||| (nth 0 v 1 &&& nth 0 v 2)
  (t + shaMix 28 34 a (a.rotateRight 39) + major) :: (v.take 3 ++ ((nth 0 v 3 + t) :: (v.drop 4).take 3))

/-- The rounds over the constants, with a window of sixteen schedule words. -/
def shaRounds : List W64 → List W64 → List W64 → List W64
  | [], _, v => v
  | k :: ks, w, v => shaRounds ks (w.drop 1 ++ [shaNext w]) (shaRound v (nth 0 w 0 + k))

/-- One 128-byte block: the rounds' result added word by word. -/
def shaBlock (v : List W64) (blk : List Byte) : List W64 :=
  List.zipWith (· + ·) v (shaRounds shaK ((chunks 8 16 blk).map (fun b => BitVec.ofNat 64 (beNat b))) v)

/-- The padding after a message of n bytes. -/
def shaPad (n : Nat) : List Byte := 0x80 :: List.replicate ((239 - n % 128) % 128) 0 ++ beBytes 16 (8 * n)

/-- SHA-384 of a message: 48 bytes, the first six words of the last hash value. -/
def sha384 (msg : List Byte) : List Byte :=
  let l := msg ++ shaPad msg.length
  (((chunks 128 (l.length / 128 + 1) l).foldl shaBlock sha384Init).take 6).flatMap (fun w => beBytes 8 w.toNat)

/-- HMAC with SHA-384 for a key of at most 128 bytes. -/
def hmac384 (key msg : List Byte) : List Byte :=
  let k := key ++ List.replicate (128 - key.length) 0
  let x (v : Byte) : List Byte := k.map (fun b => b ^^^ v)
  sha384 (x 0x5C ++ sha384 (x 0x36 ++ msg))

end Sys2Proof.Machine
end

