-- ==== Sys2Proof/Machine/Ecdsa.lean ====
section
/-! DEFINITION. ECDSA over brainpoolP384r1 with SHA-384 (16 R445, R446). The curve's constants are those of RFC 5639 and the
per-signature value that of RFC 6979, both named by R445 and not printed in the spec (log entry 70). -/

namespace Sys2Proof.Machine

/-! ## The curve -/

/-- The prime of the field. -/
def curveP : Nat := 0x8CB91E82A3386D280F5D6F7E50E641DF152F7109ED5456B412B1DA197FB71123ACD3A729901D1A71874700133107EC53
/-- Coefficient A of the curve. -/
def curveA : Nat := 0x7BC382C63D8C150C3C72080ACE05AFA0C2BEA28E4FB22787139165EFBA91F90F8AA5814A503AD4EB04A8C7DD22CE2826
/-- Coefficient B of the curve. -/
def curveB : Nat := 0x04A8C7DD22CE28268B39B55416F0447C2FB77DE107DCD2A62E880EA53EEB62D57CB4390295DBC9943AB78696FA504C11
/-- Order of the base point. -/
def curveN : Nat := 0x8CB91E82A3386D280F5D6F7E50E641DF152F7109ED5456B31F166E6CAC0425A7CF3AB6AF6B7FC3103B883202E9046565
/-- The base point: its x. -/
def curveGx : Nat := 0x1D1C64F068CF45FFA2A63A81B7C13F6B8847A3E77EF14FE3DB7FCAFE0CBD10E8E826E03436D646AAEF87B2E247D4AF1E
/-- The base point: its y. -/
def curveGy : Nat := 0x8ABE1D7520F9C2A45CB1EB8E95CFD55262B70B29FEEC5864E19C054FF99129280E4646217791811142820341263C5315

/-- A difference modulo m. -/
def subMod (m a b : Nat) : Nat := (a % m + m - b % m) % m

/-- A power modulo m, over the 384 bits of the exponent. -/
def powMod (m a e : Nat) : Nat :=
  (List.range 384).reverse.foldl (fun r i => if bit e i then r * r % m * a % m else r * r % m) (1 % m)

/-- The inverse modulo a prime m. -/
def invMod (m a : Nat) : Nat := powMod m a (m - 2)

/-- A point in Jacobian coordinates: (x / z^2, y / z^3), the neutral point where z is 0. -/
structure JPoint where
  x : Nat
  y : Nat
  z : Nat
  deriving DecidableEq, Repr

/-- The neutral point. -/
def jZero : JPoint := ⟨1, 1, 0⟩
/-- The base point. -/
def jBase : JPoint := ⟨curveGx, curveGy, 1⟩

/-- Twice a point. -/
def jDouble (q : JPoint) : JPoint :=
  if q.z = 0 || q.y = 0 then jZero
  else
    let yy := q.y * q.y % curveP
    let s := 4 * q.x * yy % curveP
    let zz := q.z * q.z % curveP
    let t := (3 * q.x * q.x + curveA * (zz * zz % curveP)) % curveP
    let x := subMod curveP (t * t) (2 * s)
    ⟨x, subMod curveP (t * subMod curveP s x) (8 * yy * yy), 2 * q.y * q.z % curveP⟩

/-- The sum of two points. -/
def jAdd (a b : JPoint) : JPoint :=
  if a.z = 0 then b
  else if b.z = 0 then a
  else
    let az := a.z * a.z % curveP
    let bz := b.z * b.z % curveP
    let u := a.x * bz % curveP
    let v := b.x * az % curveP
    let p := a.y * (bz * b.z % curveP) % curveP
    let q := b.y * (az * a.z % curveP) % curveP
    if u = v then (if p = q then jDouble a else jZero)
    else
      let h := subMod curveP v u
      let r := subMod curveP q p
      let hh := h * h % curveP
      let hhh := hh * h % curveP
      let w := u * hh % curveP
      let x := subMod curveP (r * r) (hhh + 2 * w)
      ⟨x, subMod curveP (r * subMod curveP w x) (p * hhh), a.z * b.z % curveP * h % curveP⟩

/-- A multiple of a point. -/
def jMul (k : Nat) (q : JPoint) : JPoint :=
  (List.range 384).reverse.foldl (fun r i => let r := jDouble r; if bit k i then jAdd r q else r) jZero

/-- Affine coordinates, none for the neutral point. -/
def jAffine (q : JPoint) : Option (Nat × Nat) :=
  if q.z = 0 then none
  else
    let i := invMod curveP q.z
    let ii := i * i % curveP
    some (q.x * ii % curveP, q.y * (ii * i % curveP) % curveP)

/-- Is a pair of numbers a point of the curve? -/
def onCurve (x y : Nat) : Bool :=
  decide (x < curveP) && decide (y < curveP) && y * y % curveP == (x * x % curveP * x + curveA * x + curveB) % curveP

/-! ## Keys and signatures (R445, R446) -/

/-- The 97-byte uncompressed encoding of a point (R446). -/
def pointBytes (p : Nat × Nat) : List Byte := 0x04 :: (beBytes 48 p.1 ++ beBytes 48 p.2)

/-- The point a 97-byte encoding spells, if it is one of the curve. -/
def keyPoint (key : List Byte) : Option JPoint :=
  let x := beNat ((key.drop 1).take 48)
  let y := beNat (key.drop 49)
  if key.length = 97 && nth 0 key 0 == 0x04 && onCurve x y then some ⟨x, y, 1⟩ else none

/-- A key identifier (R446). -/
def keyId (key : List Byte) : List Byte := sha384 key

/-- The public key of a private key. -/
def publicKey (d : Nat) : List Byte :=
  match jAffine (jMul d jBase) with
  | some p => pointBytes p
  | none => []

/-- Does a signature (r, s) over a message hold under a public key (R445)? -/
def ecdsaVerify (key msg : List Byte) (r s : Nat) : Bool :=
  match keyPoint key with
  | none => false
  | some q =>
    if r = 0 || s = 0 || curveN ≤ r || curveN ≤ s then false
    else
      let w := invMod curveN s
      match jAffine (jAdd (jMul (beNat (sha384 msg) * w % curveN) jBase) (jMul (r * w % curveN) q)) with
      | some p => p.1 % curveN == r
      | none => false

/-- Does a 96-byte signature over a message hold under a public key (R445)? -/
def verifyBytes (key msg sig : List Byte) : Bool :=
  sig.length == 96 && ecdsaVerify key msg (beNat (sig.take 48)) (beNat (sig.drop 48))

/-- A signature for one per-signature value k, unless r or s comes out 0. -/
def signWith (d e k : Nat) : Option (Nat × Nat) :=
  match jAffine (jMul k jBase) with
  | none => none
  | some p =>
    let r := p.1 % curveN
    let s := invMod curveN k * ((e + r * d) % curveN) % curveN
    if r = 0 || s = 0 then none else some (r, s)

/-- The candidates of RFC 6979 one after the other until one gives a signature. -/
def signTry (d e : Nat) : Nat → List Byte → List Byte → Option (Nat × Nat)
  | 0, _, _ => none
  | f + 1, key, v =>
    let v := hmac384 key v
    let k := beNat v
    let found := if k = 0 || curveN ≤ k then none else signWith d e k
    match found with
    | some p => some p
    | none => let key := hmac384 key (v ++ [0]); signTry d e f key (hmac384 key v)

/-- The signature of a message (R445: the deterministic value of RFC 6979 with SHA-384), 96 bytes. -/
def ecdsaSign (d : Nat) (msg : List Byte) : List Byte :=
  let h := sha384 msg
  let e := beNat h % curveN
  let seed := beBytes 48 d ++ beBytes 48 e
  let v := List.replicate 48 (1 : Byte)
  let key := hmac384 (List.replicate 48 0) (v ++ [0] ++ seed)
  let v := hmac384 key v
  let key := hmac384 key (v ++ [1] ++ seed)
  let v := hmac384 key v
  match signTry d (beNat h) 64 key v with
  | some (r, s) => beBytes 48 r ++ beBytes 48 s
  | none => []

end Sys2Proof.Machine
end

