-- ==== Sys2Proof/Config.lean ====
section
/-! DEFINITION. The values the spec leaves open: opaque constants with no body, so that no proof can learn one.
Each is applied to the free-value counter of State or to the operands it may depend on. -/

namespace Sys2Proof

/-- Which free DRAM frame MAP or MOVE takes (R276 says only "a free frame"). Free value, log entry 10. -/
opaque Config.frameChoice : Nat → Nat

/-- Which free pool entry the send side of a COPEN takes (R241: "any free pool entry"). Free value, log entry 11. -/
opaque Config.poolChoice : Nat → Nat

/-- A word of a shadow bank after an abandonment (R330: "undefined"). Free value, log entry 12. -/
opaque Config.shadowWord : Nat → W32

/-- Which of the values a HALT pulse of 2 µs to 10 µs takes ("may or may not qualify", R513), and a RESET_N pulse of
1 µs to 10 µs, which the spec does not decide. Free value, log entry 13. -/
opaque Config.pulseQualifies : Nat → Bool

/-- Whether a module whose local sync closed after T_x − L is counted ready at a decision (R46: "may or may not").
Free value, log entry 14. -/
opaque Config.lateReadyCounts : Nat → Bool

/-- Bits of a result the spec does not state (see the log entry named where it is used). Free value, log entry 15. -/
opaque Config.unstated : Nat → Nat

end Sys2Proof
end

