-- ==== Sys2Proof/Machine/Geometry.lean ====
section
/-! DEFINITION. The map of the module: tiles, halves, stacks and port attach tiles (01_module_map). -/

namespace Sys2Proof.Machine

/-- Die of a tile (R18). -/
def dieOf (t : Nat) : Nat := t / 1280
/-- Row of a tile in its die (R18). -/
def rowOf (t : Nat) : Nat := t % 1280 / 64
/-- Column of a tile in its die (R18). -/
def colOf (t : Nat) : Nat := t % 64
/-- tile_id of (d, r, c) (R18). -/
def tileId (d r c : Nat) : Nat := d * 1280 + r * 64 + c
/-- Global row of a tile (R18). -/
def globR (t : Nat) : Nat := rowOf t + 20 * (dieOf t / 2)
/-- Global column of a tile (R18). -/
def globC (t : Nat) : Nat := colOf t + 64 * (dieOf t % 2)
/-- Half of a tile (R15). -/
def halfOf (t : Nat) : Nat := 2 * dieOf t + colOf t / 32
/-- The tile at a global position (R18). -/
def tileAt (r c : Nat) : Nat := tileId (2 * (r / 20) + c / 64) (r % 20) (c % 64)
/-- The tiles of a half (R15, R18), in tile_id order. -/
def tilesOfHalf (h : Nat) : List Nat :=
  (List.range 20).flatMap (fun r => (List.range 32).map (fun c => tileId (h / 2) r (32 * (h % 2) + c)))
/-- Is stack n a C-stack? (R20) -/
def isC (n : Nat) : Bool := n % 4 == 3
/-- Attach tile of stack n (R21). -/
def stackTile (n : Nat) : Nat :=
  tileId (n / 8) (if n / 8 < 2 then 0 else 19) (32 * (n % 8 / 4) + 4 + 8 * (n % 4))
/-- Attach tile of port q; 48 to 50 are the Spar ports (R22). -/
def portTile (q : Nat) : Nat :=
  if q < 48 then tileId (q / 12) (4 + q % 12) (if q / 12 % 2 = 0 then 0 else 63)
  else if q = 48 then tileId 2 19 16 else if q = 49 then tileId 2 19 48 else tileId 3 19 16
/-- Base of a tile's 2 MiB window (R19). -/
def tileWindow (t : Nat) : Nat := 0x800000000000 + t * 0x200000

/-- How many of the vertical boundaries C 31|32, 95|96 (seams) lie between two global columns (R16). -/
def seamsBetween (a b : Nat) : Nat :=
  let lo := Nat.min a b; let hi := Nat.max a b
  b2n (lo ≤ 31 && 32 ≤ hi) + b2n (lo ≤ 95 && 96 ≤ hi)
/-- Is the bridge C 63|64 between two global columns? (R16) -/
def bridgeC (a b : Nat) : Nat := b2n (Nat.min a b ≤ 63 && 64 ≤ Nat.max a b)
/-- Is the bridge R 19|20 between two global rows? (R16) -/
def bridgeR (a b : Nat) : Nat := b2n (Nat.min a b ≤ 19 && 20 ≤ Nat.max a b)
/-- Difference of two numbers. -/
def dist (a b : Nat) : Nat := Nat.max a b - Nat.min a b

end Sys2Proof.Machine
end

