-- ==== Sys2Proof/Machine/Factory.lean ====
section
/-! DEFINITION. What manufacture has put into the key store and onto the carrier flash of the modelled module (16 R448, R449): an identity
key pair, root identifiers, certificates, one firmware image, five configuration records. The spec says what stands there and gives
no bytes; these are the model's, a DESIGN CHOICE of log entry 71. -/

namespace Sys2Proof.Machine

/-- Serial number (DESIGN CHOICE, log entry 71). -/
def factorySerial : List Byte := 
  beBytes 16 0x544B3700000000000000000000000001

/-- IK private key (DESIGN CHOICE, log entry 71). -/
def factoryIk : Nat := 0x3D08D56530CD87DAD424AE6217B247A566921AD9F1C1FF7775803D209DE65C6BD47DAFA32A786548194D2BA43D096AD3

/-- IK public key (R446). -/
def factoryIkPub : List Byte := 
  beBytes 48 0x04462625A188665F7B07688ABDB5A0F00719F0235CB712BB565490FA4DE6495A6C989CEAC2A64E2007B662A72C4ED28D ++
  beBytes 48 0xFF1C0799F06B5E016CB0748E59D42903B1223CC1B541C5E2F9CC206619F8E72366B1B894C9587113186F3BAA2E56C60C ++
  beBytes 1 0x41

/-- Key identifier of the device root. -/
def factoryDeviceRoot : List Byte := 
  beBytes 48 0x3610BFF05D580C3B8EFCB54E7B7B4EED67107718BFA59F678C926C30C923DC27E1C5C14B3CB65E322D0F2BA61703483A

/-- Key identifier of the firmware root. -/
def factoryFwRoot : List Byte := 
  beBytes 48 0xDFBDD3FC02179D8D92ECA908F7A469F4656584CE24F1F2C37F4E6A43DC0679AA309824A1B778A717E2F083755AC2D495

/-- Certificate 0: identity certificate. -/
def factoryCert0 : List Byte := 
  beBytes 48 0x3082018B30820112A003020102020100300A06082A8648CE3D04030330233121301F06035504030C1852617661626F72 ++
  beBytes 48 0x206D616E75666163747572696E672043413020170D3235303130313030303030305A180F393939393132333132333539 ++
  beBytes 48 0x35395A3039310C300A06035504030C03544B373129302706035504051320353434423337303030303030303030303030 ++
  beBytes 48 0x3030303030303030303030303031307A301406072A8648CE3D020106092B240303020801010B03620004462625A18866 ++
  beBytes 48 0x5F7B07688ABDB5A0F00719F0235CB712BB565490FA4DE6495A6C989CEAC2A64E2007B662A72C4ED28DFF1C0799F06B5E ++
  beBytes 48 0x016CB0748E59D42903B1223CC1B541C5E2F9CC206619F8E72366B1B894C9587113186F3BAA2E56C60C41300A06082A86 ++
  beBytes 48 0x48CE3D0403030367003064023056B552FAEC0D29D0C0AB78467B99934D5AE4234DF224DC769CFCB175A8F0E39445E293 ++
  beBytes 48 0xA3430B81B82C551876444F4F880230620E5F3A908A03EEE225F96168657D5E28AA7275EC1658EEE70C61486155E08A49 ++
  beBytes 15 0xFF3CAB57C7EB6F1E7A38DD1D9C9F4C

/-- Certificate 1: manufacturing CA certificate. -/
def factoryCert1 : List Byte := 
  beBytes 48 0x308201703081F7A003020102020101300A06082A8648CE3D040303301E311C301A06035504030C1352617661626F7220 ++
  beBytes 48 0x64657669636520726F6F743020170D3235303130313030303030305A180F39393939313233313233353935395A302331 ++
  beBytes 48 0x21301F06035504030C1852617661626F72206D616E75666163747572696E67204341307A301406072A8648CE3D020106 ++
  beBytes 48 0x092B240303020801010B036200040260382BD944C6B49C17FEAC38918E827334FADB7E835BAA9FE0F0915252ACEA2740 ++
  beBytes 48 0x00C8CEDAC184603634F5ADBFDFD217D93A90C8F82DD1734C0479283E800548CE9B3A6C0036F3EF73077BF78D35FF0DFC ++
  beBytes 48 0x5858AD445EE72077F0E8D83A108A300A06082A8648CE3D040303036800306502310086CEC5D0E0AABCDABF7207E2F329 ++
  beBytes 48 0xD45A88A3B50511C4C8EE0B5C63D1ACB00F35FCC78C6B6AC096E9B8885D1FAFDE40C002305973128B78E5DCC127D51670 ++
  beBytes 36 0xF034DDA123EA019E84FFBCE130519A68C7F16561106330F58173315E1BAC646E6B8BD98E

/-- Certificate 2: device root certificate. -/
def factoryCert2 : List Byte := 
  beBytes 48 0x3082016A3081F2A003020102020102300A06082A8648CE3D040303301E311C301A06035504030C1352617661626F7220 ++
  beBytes 48 0x64657669636520726F6F743020170D3235303130313030303030305A180F39393939313233313233353935395A301E31 ++
  beBytes 48 0x1C301A06035504030C1352617661626F722064657669636520726F6F74307A301406072A8648CE3D020106092B240303 ++
  beBytes 48 0x020801010B03620004132286437A61403133B0A0D06B96CBBBF26F7AB04AFDB81202FADF28703144FDD126EC16F19576 ++
  beBytes 48 0xEF0158E8CAA09241D861060D88F735ACF88321EE651AFD875F9BAB3A620123A9DF31FF33CC259D3F4CC4BC30648E141D ++
  beBytes 48 0x73D5603B0AD1E13482300A06082A8648CE3D0403030367003064023012D9907C948AA70A98C93756C31696E5753F924B ++
  beBytes 48 0x5D33A83D15B921AC1F8249B6FF748D8B7C30540A676B6FF93C94EA9402306A324754717CD051C210B2EE83B1B9507B89 ++
  beBytes 30 0x8F8AE4F75E13749AA7E14B3E74656FF1DFACACD619FE90C27FBF9AB420D2

/-- Certificate 4: configuration signing certificate. -/
def factoryCert4 : List Byte := 
  beBytes 48 0x308201733081FCA003020102020104300A06082A8648CE3D040303301E311C301A06035504030C1352617661626F7220 ++
  beBytes 48 0x64657669636520726F6F743020170D3235303130313030303030305A180F39393939313233313233353935395A302831 ++
  beBytes 48 0x26302406035504030C1D52617661626F7220636F6E66696775726174696F6E207369676E696E67307A301406072A8648 ++
  beBytes 48 0xCE3D020106092B240303020801010B0362000480FD619EFCD91C18F12903BAFC27BAE3801387D9F7DEB873D55F268C40 ++
  beBytes 48 0xFC2AAB96AEBF0E93C10F1F01ACA6A983D222A42C0B90DA173A39DA6BF9F8BD8D9ED5960F4DB84C0E30E6868649EB2DC1 ++
  beBytes 48 0xB1F46D1035715DFC7F9E22F6134ECB7F4185B1300A06082A8648CE3D04030303660030630230432342F121CF6DFA7237 ++
  beBytes 48 0xA81FE0DED726FAAC6072463DCD17EDE8CCF76B8F311FD7EA2C50B87F3A1BA1E1BFDF7068BAFD022F7F10D0BBEDB03457 ++
  beBytes 39 0xB806E1B22BB32E997785B76AE3EAABE6850C04E4A246C674EE9E63E9F13009DECC28CCAD4C8B1A

/-- Certificate 5: firmware root certificate. -/
def factoryCert5 : List Byte := 
  beBytes 48 0x3082016E3081F6A003020102020105300A06082A8648CE3D0403033020311E301C06035504030C1552617661626F7220 ++
  beBytes 48 0x6669726D7761726520726F6F743020170D3235303130313030303030305A180F39393939313233313233353935395A30 ++
  beBytes 48 0x20311E301C06035504030C1552617661626F72206669726D7761726520726F6F74307A301406072A8648CE3D02010609 ++
  beBytes 48 0x2B240303020801010B036200046856FAF73786EA4393D2718640A2AA26C4027DCC7F575586FC94EBE0C5519512EF5EFB ++
  beBytes 48 0x90E986AA0FE35F410FD921E81A243AD7F73FC4B84964A82D4DEF900F2142025C1FB7BF0B3B811B844E6628A9B6720766 ++
  beBytes 48 0x5CB34B94745BE057B8A1A11AA7300A06082A8648CE3D04030303670030640230143CBD45482016F5D5C69F9F52D0A484 ++
  beBytes 48 0xEB18172CC76D513FB947BD31FF4CA62F2D2C40DD6A65F3FE1B8A699A7D1146DC023049553E906B25554B5AFF2297FA16 ++
  beBytes 34 0x0A03C5639F01A55B23C37CB497ED4342B074F3FD1A1DDEFD849353271550FDE9783D

/-- Firmware image in slot A: FW_VERSION 1, SVN 0, both steppings, four payload bytes of zero. -/
def factoryImage : List Byte := 
  beBytes 48 0x4746574D0100000001000000000000000400000003000000750100000000000000000000000000000000000000000000 ++
  beBytes 48 0x000000000000000000000000000000000000000000000000000000000000000000000000000000000000000000000000 ++
  beBytes 48 0x0000000000000000000000000000000000000000000000000000000000000000533D8A8B3C6D72C064338C06D3C66238 ++
  beBytes 48 0xB7679A5550858F30E1DE05B308AF2C8CEAF978898E9DEFDF8E96B22474DC5BCB842B868874FF545D7744E4BE18B33971 ++
  beBytes 48 0x65316A0FED74893745F34733E7ADF031ABAF1723E0A5773A2EDF8D636ABD142D00000000000000000000000000000000 ++
  beBytes 48 0x00000000000000000000000000000000308201713081F9A003020102020103300A06082A8648CE3D0403033020311E30 ++
  beBytes 48 0x1C06035504030C1552617661626F72206669726D7761726520726F6F743020170D3235303130313030303030305A180F ++
  beBytes 48 0x39393939313233313233353935395A30233121301F06035504030C1852617661626F72206669726D7761726520736967 ++
  beBytes 48 0x6E696E67307A301406072A8648CE3D020106092B240303020801010B0362000467C683443CD4B214254763738F7338DA ++
  beBytes 48 0x4435C299917013130735497892A678D8AFEED05C9EE3436586294F93FF1C2505426F587F3C2B654EC782C86E7DCE4E6C ++
  beBytes 48 0xA366D3906E069B2ED28893304B5CC8B8F3224633B2A0527F3D2F4B5AAA96EACC300A06082A8648CE3D04030303670030 ++
  beBytes 48 0x6402304A7B1DC21B8DA4CFB2235DF9280EBAB7A640BDFF7E436BA695FC881F0D6BF19D6ABFC186643613E0888043A32E ++
  beBytes 48 0x53E3F60230449274259E5FAE9AE6BDB41DECC7CF1CFCB802AFF02B28B8E6694330EAF14043286468B8846E80A0AA61B7 ++
  beBytes 9 0x09209BC8DC00000000

/-- Configuration record of TYPE 1, with an empty body. -/
def factoryRecord1 : List Byte := 
  beBytes 48 0x0100010000000000544B3700000000000000000000000001F9EFEF617D65B977FF499D772E9A6CAB74E5166C3CCCAF82 ++
  beBytes 48 0x24604C1AF61F512F35AE583A39AB814553EA5CB395341927490CF716A1EBF2954EB9A3B5E4A135AB6D99F6770F283CD9 ++
  beBytes 48 0x5755390BEF8BFCE83A5E38224FA56500B269FEACB21ACCCD513F17E32E2EC53068CEE6C88F272A61B43E889518F7126C ++
  beBytes 24 0x9601C64E16EF31D7849AA263F4CAF6BC15045C9B1A71F0A4

/-- Configuration record of TYPE 2, with an empty body. -/
def factoryRecord2 : List Byte := 
  beBytes 48 0x0200010000000000544B3700000000000000000000000001F9EFEF617D65B977FF499D772E9A6CAB74E5166C3CCCAF82 ++
  beBytes 48 0x24604C1AF61F512F35AE583A39AB814553EA5CB39534192772A6B92975AB91AAA69F962524C9CE7DF00DAAAE2882EAC2 ++
  beBytes 48 0xB48575E22636EF9873CFADC8B7A49500F2CEC8425564E0D21526F716632EE46D16EBAA80841249B0989022BFC051FECB ++
  beBytes 24 0x833DC47F6716C818298E9528C510D341AAD555B596AE92B6

/-- Configuration record of TYPE 3, with an empty body. -/
def factoryRecord3 : List Byte := 
  beBytes 48 0x0300010000000000544B3700000000000000000000000001F9EFEF617D65B977FF499D772E9A6CAB74E5166C3CCCAF82 ++
  beBytes 48 0x24604C1AF61F512F35AE583A39AB814553EA5CB395341927823D0291553E0796F9C5830E5F1B100ABD99E2EF6F97C206 ++
  beBytes 48 0xAA72E3C4DD85A97E9D6D4A375886FBF10AE80409B40E69632F5C42707F81D5817DA608CE67A91C252AAA1A5D8BA353C9 ++
  beBytes 24 0xA3F678FA560F204B43A53335D1E018F35B50C04E2FE5B2AB

/-- Configuration record of TYPE 4, with an empty body. -/
def factoryRecord4 : List Byte := 
  beBytes 48 0x0400010000000000544B3700000000000000000000000001F9EFEF617D65B977FF499D772E9A6CAB74E5166C3CCCAF82 ++
  beBytes 48 0x24604C1AF61F512F35AE583A39AB814553EA5CB39534192745F7961F8953E0C23A7DF626D6BEB2B85FF253D2325E9586 ++
  beBytes 48 0x3B279D1554B5D464CC3C708EA255650B146A63CEB51C65C92508E356A203789424573F77FABDE09AAC38E8F8096B7F4B ++
  beBytes 24 0xC3AAA0AB14743EEB57FFA0E2D76FDEF83699E0115D2E5D7A

/-- Configuration record of TYPE 5, with an empty body. -/
def factoryRecord5 : List Byte := 
  beBytes 48 0x0500010000000000544B3700000000000000000000000001F9EFEF617D65B977FF499D772E9A6CAB74E5166C3CCCAF82 ++
  beBytes 48 0x24604C1AF61F512F35AE583A39AB814553EA5CB3953419272F619F14677C8D9B1B4CC921A54071CC902E5971E915AB98 ++
  beBytes 48 0x6137758B8C19EE94A79B73F0D6CF0252C239632882D9E50C3E93497069A2F94F0A7561B8C71A14DFFF6A342B050B37A9 ++
  beBytes 24 0x66B3AC5F29B686FFC6879B6235AF6207077B4BFD3F43245A

end Sys2Proof.Machine
end

