-- ==== Sys2Proof/Machine/State.lean ====
section
/-! DEFINITION. The state of the TK7 as plain data: everything the spec gives the module, the sparse tables in canonical form,
the commands that wait, and the state right after a cold reset. A field's default is its reset value (R492 and the field maps). -/

namespace Sys2Proof.Machine

/-! ## The tile (03, 04, 05, 06, 07, 08, 09, 10, 11, 12) -/

/-- Tile states (03 table Tile state encoding). -/
inductive TState where
  | idle | running | waiting | trapped | ended | debugStop
  deriving DecidableEq, Repr

/-- What a waiting instruction waits for, with the operands its completion needs (03 table Wait cause encoding). -/
inductive WaitKind where
  | waitq (queue count : Nat)
  | sync
  | tick
  | bwait (bar gen rd : Nat)
  | csend (handle : Nat) (rd : Nat) (cost : Nat) (words : List W32) (len : Nat) (addr : Nat)
  | crecv (handle rd pd : Nat) (word pop : Bool)
  | swait (sig count : Nat)
  /-- a BARRIVE result or a COPEN reply is pending; the core is not gated -/
  | none
  deriving DecidableEq, Repr

/-- A wait in progress: its kind, the cycle in which it began, the bundle that waits. -/
structure Wait where
  kind : WaitKind := .none
  since : Nat := 0
  /-- cycles of this wait that the tile counters hold already -/
  counted : Nat := 0
  /-- the cycle in which the waiting bundle issued (R84) -/
  issued : Nat := 0
  /-- bundle index of the instruction that waits -/
  pc : Nat := 0
  deriving DecidableEq, Repr

/-- A result that has landed or is to land, for R71: scoreboard key (S r: r, V r: 32 + r, P r: 64 + r), landing cycle, slot number, issue
cycle. -/
structure Landing where
  key : Nat
  cycle : Nat
  slot : Nat
  issued : Nat
  deriving DecidableEq, Repr

/-- An execution trap that a later pipeline stage raises (R90, R187): the bundle, SLOT, cause and TRAP_INFO, and its cycle; of a parity
error, the port and the words that the stage finds wrong (R190). -/
structure DueTrap where
  pc : Nat
  slots : Nat
  cause : Nat
  info : Nat
  cycle : Nat
  port : Nat := 0
  words : List Nat := []
  deriving DecidableEq, Repr

/-- One level of the loop stack (R58): start index, end index, remaining count. -/
structure LoopLevel where
  start : Nat
  last : Nat
  remain : Nat
  deriving DecidableEq, Repr

/-- TRAP_STATUS, TRAP_INFO and TRAP_TICK (03). -/
structure TrapRec where
  pc : Nat := 0
  slots : Nat := 0
  cause : Nat := 0
  multi : Bool := false
  valid : Bool := false
  info : Nat := 0
  tick : BitVec 48 := 0
  phase : Nat := 0
  /-- one more than the cycle in which VALID, and MULTI, was last set (R528) -/
  validAt : Nat := 0
  multiAt : Nat := 0
  deriving DecidableEq, Repr

/-- A record of a first event with up to four numbers, a VALID flag and a count (the first-event registers of the tile). -/
structure FirstRec where
  valid : Bool := false
  count : Nat := 0
  a : Nat := 0
  b : Nat := 0
  c : Nat := 0
  e : Nat := 0
  f : Nat := 0
  /-- the latest cycle with an event, and the numbers of its first event (R528) -/
  fresh : Option (Nat × List Nat) := none
  deriving DecidableEq, Repr

/-- One weight buffer of one array (R152, R159): its format code, its elements (key 32·k + j for W[k][j]) and its scale bytes. -/
structure WBuf where
  fmt : Option Nat := none
  elems : SMap Nat := []
  scales : SMap Nat := []
  deriving DecidableEq, Repr

/-- An M-slot instruction that has passed its checks (R160). -/
inductive MOp where
  | ldw (arr buf fmt img sc : Nat)
  | run (fmt base addr rb n : Nat) (tr : Bool) (buf : Nat)
  | zero (row n mask : Nat)
  | drain (arr row n dst sc fmt : Nat) (stag : Bool)
  | wgb (arr row n blk : Nat)
  deriving DecidableEq, Repr

/-- An entry of the four-entry M queue: the instruction, the cycle in which it issued and the bundle it came from. -/
structure MEntry where
  op : MOp
  issued : Nat
  pc : Nat
  deriving DecidableEq, Repr

/-- A started MRUN (R153, R174): its stream as element codes and scale bytes per vector, the weights of the four arrays as they
stood when it started, its start cycle and the vectors committed so far. -/
structure MRunning where
  fmt : Nat
  base : Nat
  n : Nat
  tr : Bool
  buf : Nat
  rb : Nat
  start : Nat
  addr : Nat
  vecs : List (List Nat)
  scales : List (List Nat)
  weights : List WBuf
  done : Nat
  deriving DecidableEq, Repr

/-- A started MLDW whose buffer is not ready yet (R172). -/
structure MLoading where
  slot : Nat
  content : WBuf
  start : Nat
  ready : Nat
  deriving DecidableEq, Repr

/-- One write of an MDRAIN that has not landed: cycle, scratchpad word index, words (R162, R172). -/
structure DrainItem where
  cycle : Nat
  word : Nat
  data : List W32
  deriving DecidableEq, Repr

/-- What a later M-slot instruction has to wait for (R170). -/
inductive MDepKind where
  /-- rows committed by an MRUN -/
  | commit
  /-- rows read by an MDRAIN or MWGB until it releases the drain path -/
  | release
  /-- bytes written by an MDRAIN -/
  | land
  /-- a buffer loaded by an MLDW -/
  | ready
  /-- a buffer an MRUN reads -/
  | run
  deriving DecidableEq, Repr

/-- A past effect of the M unit that a later start may not precede: what, the arrays (mask), the range lo to hi of rows, bytes or
buffers, the first cycle allowed (R170, R172, R174). -/
structure MDep where
  kind : MDepKind
  arrs : Nat
  lo : Nat
  hi : Nat
  cycle : Nat
  deriving DecidableEq, Repr

/-- The MRUN that holds the stream path (R171). -/
structure StreamHold where
  cls : Nat
  mx6 : Bool
  tr : Bool
  addr : Nat
  n : Nat
  start : Nat
  beats : Nat
  deriving DecidableEq, Repr

/-- A circular region (R192 to R198). -/
structure Region where
  mirror : Nat := 0
  sizeLog2 : Nat := 0
  attach : Nat := 0
  base : Nat := 0
  head : Nat := 0
  tail : Nat := 0
  fullWait : Nat := 0
  badPtr : Nat := 0
  badEvent : Bool := false
  /-- one more than the cycle in which BAD_EVENT was last set (R528) -/
  badAt : Nat := 0
  /-- the invalid value in the program's mirror word has been counted (R196) -/
  badSeen : Bool := false
  /-- the cycle in which the hardware side, which waits, last read the program's pointer (R195) -/
  waitFrom : Option Nat := none
  /-- the bytes of room, or of data, that the hardware side waits for (R195) -/
  waitNeed : Nat := 0
  deriving DecidableEq, Repr

/-- A tile window for remote modules (R201, R203). -/
structure TileWin where
  base : Nat := 0
  length : Nat := 0
  tag : Nat := 0
  write : Bool := false
  read : Bool := false
  opened : Bool := false
  deriving DecidableEq, Repr

/-- A DMA descriptor the engine holds (R205, R206) with what is still to be sent, acknowledged or returned. -/
structure DmaDesc where
  put : Bool
  trailing : Bool
  signal : Nat
  loc : Nat
  length : Nat
  remote : Nat
  dest : Nat
  port : Nat
  sent : Nat
  answered : Nat
  /-- a packet of it has been refused (R202): it does not complete -/
  denied : Bool
  deriving DecidableEq, Repr

/-- An armed receive (R220). -/
structure Recv where
  tag : Nat
  addr : Nat
  beats : Nat
  landed : Nat
  /-- first cycle in which a beat may land in it -/
  since : Nat
  deriving DecidableEq, Repr

/-- State of one burst piece of a stream descriptor (R284). -/
inductive PieceSt where
  | unsent | sent | answered | landed
  deriving DecidableEq, Repr

/-- One burst piece of a stream descriptor: its DRAM address and bytes, its offset in the descriptor's data, what came back. -/
structure Piece where
  addr : Nat
  len : Nat
  off : Nat
  st : PieceSt
  data : List W32
  err : Nat
  banked : Bool
  deriving DecidableEq, Repr

/-- An issued, unretired stream descriptor (R279 to R287). `reel` says whether a Reel entry made it (R290). -/
structure Desc where
  no : Nat
  words : List W32
  pieces : List Piece
  done : Bool
  faulted : Bool
  reel : Bool
  /-- TAIL of the region before this landing, or HEAD before this read, once this descriptor has its turn -/
  base : Option Nat
  /-- it continues the previous STAGGER descriptor of the queue (R283) -/
  cont : Bool
  deriving DecidableEq, Repr

/-- One stream queue (R279, R302): ISSUED, whether Reel owns it, and its unretired descriptors, oldest first. -/
structure Queue where
  issued : Nat := 0
  reel : Bool := false
  descs : List Desc := []
  /-- number of the next descriptor -/
  nextNo : Nat := 0
  /-- last vectors of the STAGGER descriptor that completed last (R283) -/
  lead : List (List Nat) := []
  deriving DecidableEq, Repr

/-- A COPEN that waits for its replies (R246). -/
structure CopenPend where
  handle : Nat
  conn : Nat
  rd : Nat
  since : Nat
  awaiting : Nat
  closed : Bool
  full : Bool
  granted : List Nat
  /-- a target that had granted has closed since (R249) -/
  lost : Bool
  deriving DecidableEq, Repr

/-- Everything one tile holds. -/
structure TileData where
  -- 03: architectural state
  sreg : SMap W32 := []
  vreg : SMap W32 := []
  preg : SMap W32 := []
  pc : Nat := 0
  loops : List LoopLevel := []
  imem : SMap W32 := []
  imemBad : List Nat := []
  /-- the instruction memory as LOAD left it, from which Gondola rewrites it after IMEM_PARITY (R94), and whether that trap has come -/
  image : SMap W32 := []
  imemTrap : Bool := false
  st : TState := .idle
  wait : Wait := {}
  exiting : Bool := false
  latch : BitVec 16 := 0
  skipBreak : Bool := false
  oneBundle : Bool := false
  /-- a STOP written while the tile was IDLE: it stops before its first bundle (R96) -/
  stopDue : Bool := false
  /-- traps that a later pipeline stage is to raise, in order of their cycles (R90, R187) -/
  faultsDue : List DueTrap := []
  /-- the cause and the end of a wait whose end is known: until then the tile shows WAITING (R252, R263) -/
  shown : WaitKind × Nat := (.none, 0)
  -- 03: CSRs
  waitLimit : Nat := 0
  singleStep : Bool := false
  breakEnable : Bool := false
  startPc : Nat := 0
  trap : TrapRec := {}
  breakPcEn : Bool := false
  breakPc : Nat := 0
  freeze : Bool := false
  scr : SMap W64 := []
  ctr : SMap Nat := []
  -- 03: issue timing (R69 to R71): earliest cycle of the next bundle, landing cycle of each register's last result
  nextIssue : Nat := 0
  ready : SMap Nat := []
  /-- results still to land, for R71 -/
  lands : List Landing := []
  /-- X-slot results that are still pending (COPEN, BARRIVE, a wait): scoreboard key and issue cycle -/
  xpend : List (Nat × Nat) := []
  -- 04: non-finite counters
  nfFreeze : Bool := false
  nfResults : Nat := 0
  nfInvalid : Nat := 0
  nfOverflow : Nat := 0
  nfDivzero : Nat := 0
  /-- NF_FIRST: a superstep, b pc, c lane, e kind, f opcode -/
  nfFirst : FirstRec := {}
  -- 05: conversion counters, key 3·(n − 1) + (0 CONV, 1 OVF, 2 VAN)
  cvFreeze : Bool := false
  cv : SMap Nat := []
  -- 06: matrix arrays (weight buffer key 2a + b, collector key 4096·a + 32·row + j)
  wbuf : SMap WBuf := []
  wIssued : SMap Nat := []
  coll : SMap W32 := []
  mq : List MEntry := []
  mruns : List MRunning := []
  mloads : List MLoading := []
  drain : List DrainItem := []
  drainFree : Nat := 0
  wpathFree : Nat := 0
  stream : Option StreamHold := none
  /-- start cycles of the last four M instructions, latest first, and what later ones wait for -/
  mstarts : List Nat := []
  mdeps : List MDep := []
  maNonfinite : Nat := 0
  maCellOps : Nat := 0
  maGatedOps : Nat := 0
  -- 07: scratchpad (key: word index 0 to 262,143), words whose parity fails, parity record, regions, windows, DMA
  scratch : SMap W32 := []
  spBad : List Nat := []
  /-- landing cycle and rank of the last write of each word by a unit of the tile (R185) -/
  spLast : SMap (Nat × Nat) := []
  /-- mirror words that the hardware side writes in a cycle to come: word, that cycle, the value before, the last first (R185, R194) -/
  spOld : List (Nat × Nat × W32) := []
  /-- SP_PARITY: a port, b address -/
  spParity : FirstRec := {}
  regions : SMap Region := []
  wins : SMap TileWin := []
  denied : Nat := 0
  dmaq : List DmaDesc := []
  -- 08: compiled exchange
  armed : List Recv := []
  /-- receives whose last beat has landed: tag and the cycle of that landing, the last in which they are armed (R220) -/
  disarming : List (Nat × Nat) := []
  /-- the cycle in which the last receive to complete has completed (R220) -/
  recvDone : Nat := 0
  xoFree : Nat := 0
  beatsOut : Nat := 0
  beatsIn : Nat := 0
  xchFaults : Nat := 0
  -- 09: channels and signals; a handle holds its pool entry plus 1, 0 for none
  stallLimit : Nat := 64
  handles : SMap Nat := []
  copens : List CopenPend := []
  dropped : Nat := 0
  sendTimeouts : Nat := 0
  recvTimeouts : Nat := 0
  sigs : SMap Nat := []
  -- 10: streams; STREAM_FAULT: a queue, b code, c page, e banked, f tag
  queues : SMap Queue := []
  bytesIn : Nat := 0
  bytesOut : Nat := 0
  streamFault : FirstRec := {}
  -- 11: weight-gradient buffer (key: word index 0 to 49,151), FILLED blocks, beats read since the last add to them
  wgb : SMap W32 := []
  wgbExact : Bool := false
  wgbLsb : Int := 0
  wgbFilled : List Nat := []
  wgbRead : List Nat := []
  /-- WGB_EVENTS: a block, b row, c column, e kind -/
  wgbEvents : FirstRec := {}
  wgbVanish : Nat := 0
  wgbNonfinite : Nat := 0
  -- 12: quantiser; QUANT_FAULT: a job, b kind, c source, e address bits [19:2]
  quantLsb : SMap Byte := []
  quantConv : Nat := 0
  quantVan : Nat := 0
  quantFault : FirstRec := {}
  deriving DecidableEq, Repr

/-- What a bundle does in its issue cycle, known when its last slot is in: TIME, CSRR, a CSRW of COUNTER_CONTROL (R89, R95). -/
inductive LateRead where
  | time (fn rd : Nat)
  | csr (imm rd : Nat)
  | control (v : Nat)
  deriving DecidableEq, Repr

/-- An execution trap of a slot (R90): its SLOT bit, cause, TRAP_INFO and how many core cycles after issue it is recorded. -/
structure ExecTrap where
  slot : Nat
  cause : Nat
  info : Nat
  delay : Nat
  port : Nat := 0
  words : List Nat := []
  deriving DecidableEq, Repr

/-- A result still to land: scoreboard key (S r: r, V r: 32 + r, P r: 64 + r), slot number (S 0, V 1), latency in core cycles. -/
structure Land where
  key : Nat
  slot : Nat
  lat : Nat
  deriving DecidableEq, Repr

/-- The bundle a tile is putting together from its slot commands (R69): the tile before the bundle, the slots so far, the
destinations they name, the cycle their operands are ready in, what the bundle decides at its end. `blocked`: a slot could not
issue, so the bundle does not. -/
structure BundleCtx where
  base : TileData
  slots : List Slot := []
  dests : List Nat := []
  lands : List Land := []
  earliest : Nat := 0
  nextPc : Option Nat := none
  bubbles : Nat := 0
  traps : List ExecTrap := []
  late : List LateRead := []
  mop : Option MOp := none
  waitOn : Option WaitKind := none
  /-- the cycle in which the condition of the wait is known to be met -/
  waitDue : Option Nat := none
  /-- words that its slots have stored, with the rank of their port (R185) -/
  stores : List (Nat × Nat) := []
  exit : Bool := false
  blocked : Bool := false
  deriving DecidableEq, Repr

/-- A tile: its data and the bundle in progress, if one is. -/
structure Tile where
  d : TileData := {}
  bundle : Option BundleCtx := none
  deriving DecidableEq, Repr

/-! ## Exchange, partition and job (02, 08, 14, 15) -/

/-- Partition recovery states (14). -/
inductive RecState where
  | idle | running | abandoning | restartWait | halted | killedRetained | scrubbing | ended
  deriving DecidableEq, Repr

/-- Job states (15). -/
inductive JobState where
  | none | loaded | armed | running | ended | halted | killedRetained | scrubbing
  deriving DecidableEq, Repr

/-- Exchange phase states (R238 EXCH_PHASE). -/
inductive XPhase where
  | compute | exchange | stall
  deriving DecidableEq, Repr

/-- Kinds of tick-bound event of a step schedule (R40, R434 KIND 0x13, R465). -/
inductive SchedKind where
  | exchange | commit | clockFixed | clockOptional | checkpoint
  deriving DecidableEq, Repr

/-- A tick-bound event of the current step (R40, R465): its superstep index in the step, its tick offset from the step start, its tick as
moved by slips, the halves it masks, the halves that go to 400 MHz once that is chosen (R470), whether it has happened. -/
structure SchedEv where
  kind : SchedKind
  superstep : Nat
  offset : Nat
  tick : BitVec 48
  mask : Nat
  chosen : Option Nat
  done : Bool
  deriving DecidableEq, Repr

/-- Where a compiled beat goes (R207, R217, R229). -/
inductive BeatDst where
  | tile (t : Nat)
  | port (q transfer : Nat)
  | engine (e arg : Nat)
  /-- the LINK input of the engine of a port (DKIND 0b10): transfer, first and last beat of it -/
  | link (e transfer : Nat) (first last : Bool)
  deriving DecidableEq, Repr

/-- What a compiled beat still has to read (R218, R341): nothing, 64 bytes of a tile's scratchpad, or a beat of its WGB. -/
inductive BeatSrc where
  | read
  | scratch (t addr : Nat)
  | wgb (t off : Nat) (exact : Bool)
  deriving DecidableEq, Repr

/-- A compiled beat (R209, R218, R220): its number (copies of a multicast share it), destination, tag, source and the cycle it is
read in, the bundle index of its XSEND, its words, its landing cycle, whether it is late (R232), the port and transfer it came
through (port 0x3F for none). -/
structure Beat where
  id : Nat
  dst : BeatDst
  tag : Nat
  src : BeatSrc
  readAt : Nat
  pc : Nat
  data : List W32
  arrive : Nat
  late : Bool
  /-- discarded by a collision (R222) before it was read -/
  lost : Bool
  port : Nat
  transfer : Nat
  /-- the first cycle after the exchange phase the beat belongs to (R214) -/
  till : Nat
  deriving DecidableEq, Repr

/-- The route of a copy of a compiled beat in this exchange phase, for collisions (R222, R536): beat number, source unit (kind 0
tile, 1 port, 2 engine, and its number), destination unit, entry cycle, the cycle of the collision that discarded it. A beat that moves in
a stall counts source cycles. -/
structure Path where
  beat : Nat
  srcK : Nat
  src : Nat
  dstK : Nat
  dst : Nat
  enter : Nat
  cut : Option Nat
  late : Bool
  deriving DecidableEq, Repr

/-- A cause of a step failure that hardware has signalled to Gondola (R395): CAUSE, DETAIL, TILE (0x1FFF module), tick and phase. -/
structure Cause where
  cause : Nat
  detail : Nat
  tile : Nat
  tick : BitVec 48
  phase : Nat
  deriving DecidableEq, Repr

/-- An armed or running checkpoint save (R441). -/
structure CkptArm where
  step : W32
  resume : BitVec 48
  dest : Nat
  port : Nat
  addr : Nat
  capacity : Nat
  tag : Nat
  seq : W32
  opcode : Nat
  running : Bool
  due : Bool
  deriving DecidableEq, Repr

/-- An object of a loaded job (R435) with the pages the loader gave it. -/
structure Obj where
  id : Nat
  bytes : Nat
  shard : Option Nat
  tierC : Bool
  persistent : Bool
  firstPage : Nat
  pages : Nat
  deriving DecidableEq, Repr

/-- A Reel entry of a loaded job (R289, R290): its 16 words and how many times it is active and not complete. -/
structure ReelEnt where
  words : List W32
  active : Nat
  deriving DecidableEq, Repr

/-- Everything the module holds for one partition. -/
structure Part where
  halves : Nat := 0
  -- 02: sequence, slips, schedule of the partition's job
  stepNum : W32 := 0
  superstep : W32 := 0
  stepFirst : W32 := 0
  slips : Nat := 0
  slipLimit : Nat := 64
  readyLead : Nat := 8
  stepAttempt : Nat := 0
  slipTotal : Nat := 0
  lateEvents : Nat := 0
  sched : List SchedEv := []
  stepLen : Nat := 0
  /-- tick of the step start, as moved by the slips of earlier steps and by restarts -/
  base : BitVec 48 := 0
  /-- ticks by which slips have moved what remains of this step's schedule, and all of the next (R44) -/
  slipShift : Nat := 0
  -- readiness and decisions (R42 to R47)
  readySent : Bool := false
  /-- READY received (R383): superstep number and port -/
  readyFrom : List (Nat × Nat) := []
  goFor : Option W32 := none
  /-- a GO for the event after that one, received before that one has begun (R43, R51) -/
  goNext : Option W32 := none
  goSentCommit : Option W32 := none
  failSeen : Option W32 := none
  failCause : Nat := 0
  abandonDue : Option (W32 × Nat × BitVec 48) := none
  lateDue : Option (Nat × BitVec 48) := none
  failSentAt : Option (BitVec 48) := none
  -- local sync: arrived tiles and the cycle of the last arrival; closing cycle z and the record chosen
  arrived : List Nat := []
  lastArrive : Nat := 0
  closedAt : Option Nat := none
  committed : Bool := false
  /-- tick at which the commit of this superstep took effect -/
  commitTick : BitVec 48 := 0
  /-- a decision-late event of the attempt has been raised (R35, R47) -/
  lateRaised : Bool := false
  -- 08
  records : SMap W64 := []
  groups : SMap W32 := []
  xphase : XPhase := .compute
  record : Nat := 0
  e0 : Nat := 0
  /-- E of the phase that began at e0 -/
  xlen : Nat := 0
  /-- local cycle of the last superstep boundary, and how many source cycles the partition's local time is behind the module's
  (exchange stalls, R232) -/
  boundary : Nat := 0
  lag : Nat := 0
  /-- source cycle in which the stall in progress began, the one after its last landing, whether it has met its limit -/
  stallFrom : Nat := 0
  stallEnd : Nat := 0
  stallHit : Bool := false
  beats : List Beat := []
  paths : List Path := []
  beatNo : Nat := 0
  stallTotal : Nat := 0
  stallLongest : Nat := 0
  stallCount : Nat := 0
  /-- EXCH_FAULT: a tile, b port, c cycle, e code -/
  exchFault : FirstRec := {}
  exchFaults : Nat := 0
  lateTransfers : Nat := 0
  -- 10
  quotaB : Nat := 0
  quotaC : Nat := 0
  reelEntries : Nat := 0
  reelList : Nat := 0
  reel : List ReelEnt := []
  /-- entries that wait for a place in their queue, by number, in the order in which they became active (R290) -/
  reelWait : List Nat := []
  /-- entries that have become active in this attempt -/
  reelDone : List Nat := []
  reelDelivered : Nat := 0
  -- 11
  commitIncomplete : Bool := false
  genMismatches : Nat := 0
  genFirstShard : Nat := 0
  genValid : Bool := false
  -- 14
  restartLead : Nat := 0x800
  attemptLimit : Nat := 8
  retain : Bool := false
  dynamic : Bool := false
  stepCommit : Bool := false
  causes : List Cause := []
  faultStep : W32 := 0
  faultWord : W32 := 0
  faultTick : BitVec 48 := 0
  faultPhase : Nat := 0
  rstate : RecState := .idle
  abandonLost : Bool := false
  restoreRequired : Bool := false
  multi : Bool := false
  faultValid : Bool := false
  restartTick : BitVec 48 := 0
  ta : BitVec 48 := 0
  /-- steps 4 to 7 of this abandonment are done, and its ports in FAULT are retrained (R401 step 8) -/
  retrained : Bool := false
  stepFailed : Bool := false
  /-- the cycle in which an abandonment was completed after cycle 0 of T_r (R404) -/
  doneLate : Option Nat := none
  abandoned : Nat := 0
  lateFaults : Nat := 0
  scrubs : Nat := 0
  lossThreshold : W32 := 0x40000000
  lossTile : Nat := 0
  lossEnable : Bool := false
  lossScratch : Nat := 0
  lossAlpha : Nat := 4
  lossWarmup : Nat := 0x10
  lossMean : W32 := 0
  lossEvents : Nat := 0
  lossSamples : Nat := 0
  lossKind : Nat := 0
  lossValid : Bool := false
  lossValue : W32 := 0
  lossStep : W32 := 0
  -- 15
  jstate : JobState := .none
  endCause : Nat := 0
  profile : Nat := 0
  owner : W32 := 0
  tag : BitVec 16 := 0
  /-- fault word of the job that a scrub has ended (LAST_FAULT, R439) -/
  lastFault : W32 := 0
  startTick : BitVec 48 := 0
  hash : List Byte := []
  objects : List Obj := []
  ckpt : Option CkptArm := none
  endAs : Option (JobState × Nat) := none
  /-- a job that has ended waits for its engines to be idle (R413 step 4): what the partition is to be, the end cause -/
  ending : Option (JobState × Nat) := none
  savedRings : List (Nat × Nat × Nat × Nat) := []
  heldForCkpt : Bool := false
  /-- channel groups and forwarding entries that the job's LOF has loaded -/
  ownGroups : List Nat := []
  ownFwd : List Nat := []
  /-- barriers of the partition's jobs before its last reset, whose RELEASES count on until the next LOAD (R493) -/
  ownBars : List Nat := []
  -- 20: sums (key: register index), last values (key: source number)
  sums : SMap Nat := []
  saturated : Bool := false
  passes : Nat := 0
  passTick : BitVec 48 := 0
  deriving DecidableEq, Repr

/-! ## Ports and engines (08, 12, 13) -/

/-- Link states (R394). -/
inductive LinkState where
  | down | training | up | fault
  deriving DecidableEq, Repr

/-- A link beat kept for replay (R379). -/
structure LinkBeat where
  hdr : W64
  body : List W32
  deriving DecidableEq, Repr

/-- A beat of a packet that waits at a port for its slot (R376): since which source cycle; the last beat of a channel packet carries it,
for its bits are not stated (R381). -/
structure WaitBeat where
  cls : Nat
  first : Bool
  last : Bool
  body : List W32
  since : Nat
  chan : Option ChanPkt
  deriving DecidableEq, Repr

/-- A remote access through a DRAM window (R300): its packet, whether it is a GET, its bursts. -/
structure RemoteAcc where
  no : Nat
  pkt : DmaPkt
  get : Bool
  pieces : List Piece
  deriving DecidableEq, Repr

/-- A port and its link. -/
structure Port where
  state : LinkState := .down
  streamsUp : Nat := 0
  faults : Nat := 0
  corrected : Nat := 0
  redecodes : Nat := 0
  replays : Nat := 0
  crcFails : Nat := 0
  peerModule : Nat := 0x3FFF
  peerPort : Nat := 0x3F
  part : Nat := 0
  assigned : Bool := false
  linkDelay : Nat := 0
  bufPeak : Nat := 0
  late : Nat := 0
  earlyHeld : Nat := 0
  inbound : SMap (BitVec 128) := []
  held : List (Nat × Nat × List W32) := []
  forwarded : SMap Nat := []
  /-- the cycle from which the port may forward a held beat: it forwards one a cycle (R227, R231) -/
  forwardFrom : Nat := 0
  /-- the source cycles in which the latest beats have taken the link, latest first, and whether the last cycle held a compiled one (R227) -/
  sent : List Nat := []
  sentCompiled : Nat := 0
  /-- beats of packets that wait for a slot, in the order in which they came (R376) -/
  waiting : List WaitBeat := []
  /-- beats that the second decode delays, with the cycle in which each is taken, and whether it cannot be decoded (R378); the arrival and
  that cycle of the last one -/
  delayed : List (Nat × Bool × LinkBeat) := []
  beatAt : Nat := 0
  beatDue : Nat := 0
  sendSeq : Nat := 0
  recvSeq : Nat := 0
  replay : List LinkBeat := []
  /-- beats of the replay buffer that a replay has still to send again (R379) -/
  resend : List LinkBeat := []
  replayedSeq : Nat := 0
  replayCount : Nat := 0
  /-- packets of which some beats have come, by class: their beats with their SEQ (R375, R376) -/
  asm : SMap (List (Nat × List W32)) := []
  remote : List RemoteAcc := []
  remoteNo : Nat := 0
  /-- how many of the payload beats of reductions that the port has still to have acknowledged are of earlier epochs (R364) -/
  oldDebt : Nat := 0
  /-- stages 1 to 3 of a training have passed, and its echoes run (R494) -/
  echoes : Bool := false
  /-- the delay that a retrain measured does not fit the job's inbound windows (R496) -/
  delayBad : Bool := false
  echoMax : Nat := 0
  echoCount : Nat := 0
  /-- departure offset of the last TICK symbol, in sixteenths of a cycle (R387, R497) -/
  departOffset : Nat := 0
  tickDelay16 : Nat := 0
  loadDelay : Nat := 0
  deriving DecidableEq, Repr

/-- A block held by an engine, as exact integers (R346, R349). `limbs` is 0 for a LOCAL contribution; `beats` is what it takes of the
buffer. -/
structure Blk where
  job : Nat
  num : Nat
  limbs : Nat
  beats : Nat
  vals : List Int
  deriving DecidableEq, Repr

/-- A reduction job context (R335, R367). -/
structure RCtx where
  tag : Nat := 0
  part : Nat := 0
  valid : Bool := false
  window : Nat := 0
  lsb : Int := 0
  epoch : Nat := 0
  blocks : Nat := 0
  widen : Nat := 0
  stale : Nat := 0
  /-- stopped by a fault until the abandonment (R363) -/
  stopped : Bool := false
  deriving DecidableEq, Repr

/-- A route entry (R352, R367). -/
structure Route where
  valid : Bool := false
  job : Nat := 0
  inputs : Nat := 0
  last : Nat := 0
  first : Nat := 0
  outPort : Nat := 0x3F
  outEngine : Nat := 0x3F
  tag : Nat := 0
  deliver : Bool := false
  delta : Nat := 0
  transfer : Nat := 0
  deriving DecidableEq, Repr

/-- A contribution entry (R345, R367). -/
structure Contrib where
  valid : Bool := false
  job : Nat := 0
  shift : Nat := 0
  first : Nat := 0
  deriving DecidableEq, Repr

/-- A reduction engine: contexts, tables, the three inputs, the last block number seen per job and input (plus 1), deliveries. -/
structure Engine where
  ctx : SMap RCtx := []
  routes : SMap Route := []
  contribs : SMap Contrib := []
  link : List Blk := []
  locl : List Blk := []
  chain : List Blk := []
  linkLast : SMap Nat := []
  localLast : SMap Nat := []
  chainLast : SMap Nat := []
  /-- halves of EXACT pairs whose other half has not come: entry, twice the block number plus 1 for elements 8 to 15, eight values -/
  half : List (Nat × Nat × List Int) := []
  /-- words of a compiled transfer that do not yet make a whole block (R346), by transfer -/
  linkWords : SMap (List W32) := []
  served : Nat := 15
  /-- RE_FAULT: a job, b input, c block, e code -/
  fault : FirstRec := {}
  delivered : Nat := 0
  outNonfinite : Nat := 0
  /-- the cycle from which the engine may put its next beat into the fabric: one a cycle (R353) -/
  deliverFrom : Nat := 0
  /-- summed blocks to deliver: job, transfer, tag, values -/
  deliver : List (Nat × Nat × Nat × List Int) := []
  deriving DecidableEq, Repr

/-- A contribution beat in flight from a tile to an engine (R342): engine, sending partition, entry, job, exact source, shift h, beat index, values. -/
structure ContribBeat where
  engine : Nat
  part : Nat
  job : Nat
  entry : Nat
  exact : Bool
  shift : Nat
  beat : Nat
  vals : List Int
  /-- number of the beat, for collisions (R222) -/
  id : Nat
  deriving DecidableEq, Repr

/-- An EW16 block in flight between engines of this module (R352). -/
structure ChainBlk where
  engine : Nat
  tag : Nat
  epoch : Nat
  hdr : W32
  words : List W32
  deriving DecidableEq, Repr

/-! ## Channels and barriers (09) -/

/-- Endpoint kinds (09). -/
inductive EpKind where
  | none | opq | ring | send | sendMulti
  deriving DecidableEq, Repr

/-- Pool entry states (R270). -/
inductive EpState where
  | free | opening | opened | closed
  deriving DecidableEq, Repr

/-- A pool entry. For a receive endpoint `credit` is the unallocated quota; for a send kind `credits` holds the credit at each target. -/
structure Ep where
  state : EpState := .free
  kind : EpKind := .none
  owner : Nat := 0
  handle : Nat := 0
  credit : Nat := 0
  credits : List Nat := []
  tag : Nat := 0
  module : Nat := 0
  target : Nat := 0
  port : Nat := 0
  region : Nat := 0
  quota : Nat := 0
  messages : Nat := 0
  stall : Nat := 0
  dropped : Nat := 0
  fullRet : Nat := 0
  timeouts : Nat := 0
  closedRet : Nat := 0
  sent : Nat := 0
  closing : Bool := false
  acks : Nat := 0
  /-- how many connections the entry has held: it tells a connection from an earlier one of the same entry (R246, R247, R249, R250) -/
  openings : Nat := 0
  /-- operand queue: message words, and the connection to credit (module, connection, target index) -/
  opq : List (W32 × W32 × Nat × Nat × Nat) := []
  /-- ring records not yet passed by HEAD: end count, units, connection (module, connection, target index) -/
  recs : List (Nat × Nat × Nat × Nat × Nat) := []
  /-- connections attached to a receive endpoint: module, connection, target index, granted quota -/
  conns : List (Nat × Nat × Nat × Nat) := []
  /-- opened by the loader in this job (reopened by R267) -/
  declared : Bool := false
  /-- a send connection whose targets are rings -/
  ring : Bool := false
  deriving DecidableEq, Repr

/-- A channel packet in flight within the module and the cycle in which it arrives, uncontended (R246, R258). -/
structure Flight where
  pkt : ChanPkt
  at_ : Nat
  deriving DecidableEq, Repr

/-- Barrier states (R271). -/
inductive BarSt where
  | unused | active | broken | retired
  deriving DecidableEq, Repr

/-- A barrier object. -/
structure Bar where
  limit : Nat := 0
  part : Nat := 0
  participants : Nat := 0
  cHi : Nat := 0
  cLo : Nat := 0
  rHi : Nat := 0
  rLo : Nat := 0
  valid : Bool := false
  state : BarSt := .unused
  cause : Nat := 0
  stepGen : Nat := 0
  gen : Nat := 0
  arrived : List Nat := []
  waiters : List Nat := []
  lastTile : Nat := 0
  lastTick : BitVec 48 := 0
  releases : Nat := 0
  breaks : Nat := 0
  refused : Nat := 0
  firstAt : Nat := 0
  /-- cycles of the releases that may still be on their way, the last first -/
  releasedAt : List Nat := []
  /-- BARRIVEs issued and not yet counted: tile, destination register, cycle of counting -/
  pending : List (Nat × Nat × Nat) := []
  deriving DecidableEq, Repr

/-! ## Memory (10, 11) -/

/-- Page states (10). -/
inductive PageSt where
  | unmapped | b | c | moving
  deriving DecidableEq, Repr

/-- A page directory entry (R273). -/
structure Page where
  state : PageSt := .unmapped
  part : Nat := 0
  toC : Bool := false
  dest : Nat := 0
  frame : Nat := 0
  deriving DecidableEq, Repr

/-- An accepted MAP whose zero fill runs (R276): pages and their frames, partition, tier, command to report. -/
structure Fill where
  pages : List (Nat × Nat)
  part : Nat
  tierC : Bool
  seq : W32
  report : Bool
  /-- how many bursts the Winch agents have asked to zero, page by page -/
  asked : Nat := 0
  deriving DecidableEq, Repr

/-- A move in progress (R278): the page, how many bursts the Winch agents have asked for, those of them not yet read, how many
are written to the destination, and the command whose pages it belongs to. -/
structure Mv where
  page : Nat
  asked : Nat
  unread : List Nat
  written : Nat
  group : Nat
  deriving DecidableEq, Repr

/-- A MOVE command still running (for its COMMAND_DONE): group number, partition, SEQ. -/
structure MvGroup where
  group : Nat
  part : Nat
  seq : W32
  deriving DecidableEq, Repr

/-- A source frame that waits for the requests split before the flip (R278 step 4). -/
structure RelFrame where
  tierC : Bool
  frame : Nat
  dest : Nat
  deriving DecidableEq, Repr

/-- What a request at a stack channel is for; gondolaData is a burst of a command of Gondola, which reads or writes it itself. -/
inductive ReqFor where
  | stream (t queue desc piece : Nat)
  | nmuRecord (shard : Nat)
  | nmuRead (shard unit line : Nat)
  | nmuWrite (shard unit line : Nat)
  | winchRead (page burst : Nat)
  | winchWrite (page : Nat)
  | winchZero (page : Nat)
  | remote (q acc piece : Nat)
  | gondola
  | gondolaData
  deriving DecidableEq, Repr

/-- A request at a channel (R292, R294): rank, index, what it is for, its physical burst, whether it is a write forwarded by a move
(R278), whether it is in back-off, its next back-off, the cycle it presents in, its arrival, whether it has starved (R303). -/
structure Req where
  rank : Nat
  index : Nat
  what : ReqFor
  burst : Nat
  second : Bool
  waiting : Bool
  backoff : Nat
  presentAt : Nat
  arrived : Nat
  starved : Bool
  deriving DecidableEq, Repr

/-- What the system master keeps of a job that it does not run itself (R42, R43, R388, R397, R398): READY received, as superstep number and
port; the last step that failed and the tick of its ABANDON; an ABANDON to come, as step, fault word and tick; the step whose commit has
its GO, and the tick of that commit. -/
structure OtherJob where
  ready : List (Nat × Nat) := []
  failed : Option (W32 × BitVec 48) := none
  abandon : Option (W32 × W32 × BitVec 48) := none
  commit : Option (W32 × BitVec 48) := none
  deriving DecidableEq, Repr

/-- One stack channel (R275, R293): requests, the stack cycle of its next burst boundary, when its next maintenance window is due,
the scrub passes over its bursts. -/
structure Chan where
  reqs : List Req := []
  boundary : Nat := 0
  maintDue : Nat := 2048
  passes : Nat := 0
  /-- bursts left of an open locked sequence (R294), with the rank and index of the unit that marked it -/
  lockLeft : Nat := 0
  lockRank : Nat := 0
  lockIndex : Nat := 0
  /-- the stack cycle in which the last burst of a command of Gondola is through (R292: one at a time) -/
  gonUntil : Nat := 0
  deriving DecidableEq, Repr

/-- Up to 64 elements of a shard that an NMU is updating (R321): the unit, the lines it has still to ask for, the lines it has,
the bursts it has still to write, how many requests are at the channels. -/
structure NmuUnit where
  shard : Nat
  unit : Nat
  toRead : List Nat
  got : SMap (List W32)
  toWrite : SMap (List Byte)
  writing : SMap (List Byte)
  asked : Nat
  deriving DecidableEq, Repr

/-- A stack: ECC and arbiter registers, channels, NMU registers and the work its NMU still has. -/
structure Stack where
  corrected : Nat := 0
  uncorrected : Nat := 0
  ueBurst : Nat := 0
  ueWord : Nat := 0
  uePage : Nat := 0
  ueValid : Bool := false
  waitMax : SMap Nat := []
  starveEvents : Nat := 0
  starveLimit : Nat := 0
  chans : SMap Chan := []
  nmuUnits : List NmuUnit := []
  /-- the shard that the NMU has in hand (R321) -/
  nmuShard : Option Nat := none
  nmuElements : Nat := 0
  nmuNonfinite : Nat := 0
  wcConv : Nat := 0
  wcOvf : Nat := 0
  wcVan : Nat := 0
  /-- NMU_ERROR: a shard, b page -/
  nmuError : FirstRec := {}
  deriving DecidableEq, Repr

/-- A shard descriptor (R315), its step record as read (R318) and whether it began in this attempt. -/
structure Shard where
  valid : Bool := false
  part : Nat := 0
  algo : Nat := 0
  wcFmt : Nat := 0
  firstPage : Nat := 0
  start : Nat := 0
  tile : Nat := 0
  signal : Nat := 0
  elements : Nat := 0
  gen : W32 := 0
  staged : Bool := false
  beta1 : W32 := 0
  c1 : W32 := 0
  beta2 : W32 := 0
  c2 : W32 := 0
  eps : W32 := 0
  decay : W32 := 0
  wcScale : W32 := 0
  began : Bool := false
  recScale : W32 := 0
  recLr : W32 := 0
  recBc1 : W32 := 0
  recBc2 : W32 := 0
  unitsDone : List Nat := []
  stopped : Bool := false
  deriving DecidableEq, Repr

/-- A DRAM window (R300). -/
structure DWin where
  tag : Nat := 0
  part : Nat := 0
  first : Nat := 0
  countM1 : Nat := 0
  write : Bool := false
  read : Bool := false
  opened : Bool := false
  deriving DecidableEq, Repr

/-! ## The module (13, 15, 16, 17, 18, 19, 20) -/

/-- Tick receiver states (02). -/
inductive Lock where
  | unlocked | locked | holdover | expired
  deriving DecidableEq, Repr

/-- Clock states of a half (R464). -/
inductive Clk where
  | full | half | toHalf | toFull
  deriving DecidableEq, Repr

/-- One half: clock state, draw, allotment, slow events, thermal limit and how many periods it has been cool. -/
structure HalfSt where
  clk : Clk := .full
  /-- the cycle in which the switch in progress began (R464) -/
  switchFrom : Nat := 0
  meanW : Nat := 0
  allotW : Nat := 0
  slow : Nat := 0
  hot : Bool := false
  cool : Bool := false
  computeW : Option Nat := none
  deriving DecidableEq, Repr

/-- A frame the module has sent: its TYPE and words. -/
structure Resp where
  opcode : Nat
  seq : W32
  status : Nat
  w : List W32
  data : List Byte
  deriving DecidableEq, Repr

/-- A host event (R425). -/
structure Event where
  cls : Nat
  part : Nat
  source : Nat
  detail : Nat
  tick : BitVec 48
  aux : Nat
  deriving DecidableEq, Repr

/-- What leaves the module: frames on Kiteline, symbols, beats and packets on links, levels on pins. -/
inductive Out where
  | response (r : Resp)
  | busy (seq : W32) (opcode : Nat)
  | status (w0 w1 : W64)
  | event (e : Event)
  | sym (port : Nat) (type : Nat) (tag : BitVec 16) (seq arg : W32)
  | link (port : Nat) (hdr : W64) (body : List W32)
  | chan (port : Nat) (pkt : ChanPkt)
  | align (port : Nat) (number : BitVec 48) (offset : Nat) (loaded : Bool)
  | alignReport (port : Nat) (delay : Nat)
  | tickOut (high : Bool)
  | barrier (released : Bool)
  | telemetry (refused : Nat) (bytes : List Byte)
  deriving DecidableEq, Repr

/-- Mailbox states (R421). -/
inductive BoxSt where
  | idle | running | aborting
  deriving DecidableEq, Repr

/-- The tables a LOAD changes, kept while it may still be aborted (R427). -/
structure Tables where
  tiles : SMap Tile
  parts : SMap Part
  ports : SMap Port
  engines : SMap Engine
  pool : SMap Ep
  cgroups : SMap W64
  bars : SMap Bar
  dir : SMap Page
  shards : SMap Shard
  fwd : SMap Nat
  dram : SMap W32
  ecc : SMap Nat
  bridle : Nat × Nat × Bool
  deriving DecidableEq, Repr

/-- What an abort of the running class D or L command has to put back (R427). -/
inductive Undo where
  | none
  /-- one entry for each word written: physical word, its old value, the old mark of its 8-byte word -/
  | mem (old : List (Nat × W32 × Nat))
  /-- one entry for each 64-bit word written: address, old value, flags (1, 2: its words failed parity; 4: its WGB block was EMPTY; 8: a
  register, which stays written) -/
  | regs (old : List (Nat × W64 × Nat))
  | load (p : Nat) (before : Tables)
  | restore (p : Nat)
  | fw (slotA slotB : List Byte) (active : Bool) (staged : Bool)
  deriving DecidableEq, Repr

/-- A QUOTE that waits for its sample (R459): its signed bytes before TICK and after LOCK_STATE, but for the partition entries, and what was
sampled at cycle 0 of its tick. -/
structure Quote where
  head : List Byte
  tail : List Byte
  sample : Option (BitVec 48 × Lock) := none
  deriving DecidableEq, Repr

/-- The mailbox (R421 to R426, R444). -/
structure Mailbox where
  st : BoxSt := .idle
  halt : Bool := false
  opcode : Nat := 0
  seq : W32 := 0
  lastStatus : Nat := 0
  progress : Nat := 0
  acceptedAt : Nat := 0
  stored : Option Resp := none
  running : Option (Resp × Undo) := none
  /-- the most 32-bit words that the running command of class D or L reads or writes (R427) -/
  most : Nat := 0
  /-- the cycle in which the RESPONSE to the WARM write was handed to Kiteline (R483) -/
  warmFrom : Option Nat := none
  quote : Option Quote := none
  busyRefusals : Nat := 0
  crcDrops : Nat := 0
  eventDrops : Nat := 0
  halts : Nat := 0
  duplicates : Nat := 0
  events : List Event := []
  kiteUp : Bool := true
  deriving DecidableEq, Repr

/-- Atgen: key store, carrier flash and registers (R448 to R461). -/
structure Atgen where
  ikPriv : Nat := 0
  ikPub : List Byte := []
  deviceRootId : List Byte := []
  fwRootId : List Byte := []
  floor : Nat := 0
  serial : List Byte := []
  /-- DER bytes of certificates 0, 1, 2, 4 and 5 -/
  certs : SMap (List Byte) := []
  slotA : List Byte := []
  slotB : List Byte := []
  activeB : Bool := false
  records : List (List Byte) := []
  runningSvn : Nat := 0
  runningVersion : W32 := 0
  raiseFloor : Bool := false
  staged : Bool := false
  fallback : Bool := false
  bootB : Bool := false
  bootResult : Nat := 0
  quoteCount : Nat := 0
  fwMeasure : List Byte := []
  configMeasure : List Byte := []
  deriving DecidableEq, Repr

/-- Bring-up phases (R502). -/
inductive Phase where
  | rails | atgen | gondola | stacks | ready | stackFail
  deriving DecidableEq, Repr

/-- A power policy (R472). -/
structure Policy where
  pCeil : Nat := 6000
  iCeil : Nat := 150
  clockCeil : Nat := 0
  floors : SMap Nat := []
  deriving DecidableEq, Repr

/-- What the power samples of one Ballast period add up to (R469 to R471): its number, how many there were, the lowest voltage in 10 mV,
the sums in W of the input power, of the draw outside the halves and of each half, and for each half the sum and the number of the samples
in its compute phases at 800 MHz. -/
structure PeriodAcc where
  no : Nat := 0
  count : Nat := 0
  vMin : Nat := 0
  sumW : Nat := 0
  outside : Nat := 0
  halves : List Nat := []
  compute : List (Nat × Nat) := []
  deriving DecidableEq, Repr

/-- Ballast, telemetry and the emergency stop (17). Voltages in 10 mV, currents in 0.1 A, power in W. -/
structure Power where
  pin : Nat := 0
  iin : Nat := 0
  vin : Nat := 0
  policy : Policy := {}
  pending : Option Policy := none
  policyTick : BitVec 48 := 0
  dieMax : Nat := 0
  stackMax : Nat := 0
  inlet : Nat := 0
  outlet : Nat := 0
  dieHalf : List Nat := []
  cause : Nat := 0
  active : Bool := false
  valid : Bool := false
  phase : Nat := 0
  tick : BitVec 48 := 0
  stops : Nat := 0
  stopTicks : Nat := 0
  /-- source cycle of the last restart of the clocks -/
  restartNow : Nat := 0
  /-- Mod.lost when the last stop began, and the cycle of the tick at which the clocks restart (R478) -/
  stopFrom : Nat := 0
  stopPhase : Nat := 0
  exceeded : Nat := 0
  /-- input energy in µJ since cold reset; ENERGY shows whole mJ -/
  energyUJ : Nat := 0
  overI : Nat := 0
  overI10 : Nat := 0
  overP : Nat := 0
  overP10 : Nat := 0
  badV : Nat := 0
  /-- tick since which current, power and voltage have been within their clear limits -/
  clearI : Option (BitVec 48) := none
  clearP : Option (BitVec 48) := none
  clearV : Option (BitVec 48) := none
  /-- causes (bit 1 to 4) whose conditions have been met since the stop began -/
  met : Nat := 0
  /-- the samples of the last 64 ticks, oldest first -/
  samples : List (BitVec 48 × PowerTelemetry) := []
  /-- what the samples of the Ballast period in progress and of the one before it add up to (R469) -/
  acc : PeriodAcc := {}
  accOld : PeriodAcc := {}
  /-- an ABANDON, FAULT or kill held during the stop (R479): kind, partition, symbol -/
  heldSyms : List (Nat × Nat × Sym) := []
  heldKills : List Nat := []
  /-- tile resets ordered while the clock stands still and the tile has work outstanding (R537) -/
  heldResets : List TileId := []
  deriving DecidableEq, Repr

/-- The module: everything but its fixed shape and the queue of commands. -/
structure Mod where
  /-- the native profile of the module's stepping (R3): 1 TP1, 2 TP2 -/
  native : Nat := 1
  -- time (02)
  now : Nat := 0
  /-- source cycles in which the clocks of the tile and fabric domains stood still (R23): the source has counted now + lost -/
  lost : Nat := 0
  tick : BitVec 48 := 0
  phase : Nat := 0
  holdTicks : Nat := 0
  /-- the source cycle in which the current holdover began -/
  holdFrom : Nat := 0
  source : Nat := 0
  lock : Lock := .unlocked
  phaseEvent : Bool := false
  expiredEvent : Bool := false
  lostEvent : Bool := false
  chatter : Nat := 0
  phaseErr : Nat := 0
  loss : Nat := 0
  lastEdge : Option Nat := none
  expiryFaulted : Bool := false
  -- tables
  tiles : SMap Tile := []
  parts : SMap Part := []
  ports : SMap Port := []
  engines : SMap Engine := []
  contribs : List ContribBeat := []
  chainBlks : List ChainBlk := []
  pool : SMap Ep := []
  cgroups : SMap W64 := []
  bars : SMap Bar := []
  flight : List Flight := []
  /-- what has reached a port while the fabric clock stood still (R477), oldest first -/
  stopped : List Instr := []
  -- memory: page directory, DRAM words by physical word, ECC marks by physical 8-byte word (1 single-bit, 2 uncorrectable)
  dir : SMap Page := []
  dram : SMap W32 := []
  ecc : SMap Nat := []
  fills : List Fill := []
  moves : List Mv := []
  mvGroups : List MvGroup := []
  groupNo : Nat := 0
  relFrames : List RelFrame := []
  pagesDone : Nat := 0
  stk : SMap Stack := []
  shards : SMap Shard := []
  dwins : SMap DWin := []
  winDenied : Nat := 0
  -- fabric (13)
  moduleNum : Nat := 0x3FFF
  position : Nat := 0
  masterStrap : Bool := false
  role : Nat := 0
  upstream : Nat := 0x3F
  children : Nat := 0
  masterDelay : Nat := 0
  hopDelay : Nat := 0
  tetherHops : Nat := 0
  bridleHops : Nat := 0
  bridleTimeout : Nat := 0x400
  bridlePart : Nat := 0
  bridleEnable : Bool := false
  timeoutEvent : Bool := false
  line : Bool := false
  released : Bool := false
  releasedAt : Option (BitVec 48) := none
  bridleDone : Bool := false
  releaseDue : Bool := false
  /-- a job of the Bridle partition has started: the module drives the line low unless it releases it (R370) -/
  lineOn : Bool := false
  /-- the module drives the line low at the next cycle 0 or 480 (R370) -/
  lineLow : Bool := false
  routeDrops : Nat := 0
  forwarded : Nat := 0
  fwd : SMap Nat := []
  /-- at the system master: the jobs that it does not run itself, by job tag (R384, R388) -/
  others : SMap OtherJob := []
  /-- LINK_TRAIN commands still running: port mask and SEQ, oldest first -/
  training : List (Nat × W32) := []
  syncing : Option (W32 × Nat × Option (BitVec 48)) := none
  alignLoaded : Bool := false
  reports : SMap Nat := []
  -- Gondola, Atgen, power, reset, pins
  box : Mailbox := {}
  atgen : Atgen := {}
  power : Power := {}
  halves : SMap HalfSt := []
  resetTile : Nat := 0
  resetLast : Nat := 0
  bringup : Phase := .rails
  stacksOk : Nat := 0
  warmResets : Nat := 0
  tileResets : Nat := 0
  /-- when a hardware event last set a W1C bit of the control space, by the bit (Machine.w1cKey): one more than the source cycle, and what a
  record of the event holds (R528) -/
  sets : SMap (Nat × List Nat) := []
  warmPending : Bool := false
  stuckHigh : Bool := false
  barrierPin : Bool := true
  /-- the source cycles up to which TICK_IN, and TICK_OUT where the module drives it, are high (R510) -/
  tickInHigh : Nat := 0
  tickOutHigh : Nat := 0
  haltRaw : Bool := true
  resetNPin : Bool := true
  heldAtRails : Bool := false
  powered : Bool := false
  -- collection (20)
  lasts : SMap Nat := []
  msums : SMap Nat := []
  events : Nat := 0
  passRunning : Bool := false
  passStart : BitVec 48 := 0
  /-- what the pass has read: source number, value and partition (8 for a source of no partition) -/
  passVals : SMap (Nat × Nat) := []
  passEvents : Nat := 0
  -- the model's own: counter of free values, what has left the module
  free : Nat := 0
  out : List Out := []
  deriving DecidableEq, Repr

/-- Steppings of the TK7 (R2). -/
inductive Stepping where
  | b1 | c0
  deriving DecidableEq, Repr

/-- What no command changes: the stepping the module was made in (R2, R27, R29). -/
structure Chip where
  stepping : Stepping
  deriving DecidableEq, Repr

/-- The state of the block: its fixed shape, the module, and the commands that wait, first in, first out. -/
structure State where
  chip : Chip
  m : Mod
  pending : List Instr
  deriving DecidableEq, Repr

/-- Reasons the machine stops. -/
inductive Fault where
  /-- Raised by exec for a command that is not well formed (WellFormed.lean): its operand lists have lengths no frame, beat or
  packet of the spec has, so no such command reaches the hardware. Safe. -/
  | illFormed
  deriving DecidableEq, Repr

/-- Reasons a command is refused by the model. -/
inductive Refusal where
  /-- No meaning yet for the command with this mnemonic. Safe. -/
  | notModelled (mnemonic : String)
  deriving DecidableEq, Repr

/-- The key store and the flash as manufacture left them (R448, R449; log entry 71). -/
def Atgen.factory : Atgen :=
  { ikPriv := factoryIk, ikPub := factoryIkPub, deviceRootId := factoryDeviceRoot, fwRootId := factoryFwRoot, serial := factorySerial
    certs := [(0, factoryCert0), (1, factoryCert1), (2, factoryCert2), (4, factoryCert4), (5, factoryCert5)]
    slotA := factoryImage
    records := [factoryRecord1, factoryRecord2, factoryRecord3, factoryRecord4, factoryRecord5] }

/-- The native profile of a stepping (R3): TP1 on B1, TP2 on C0. -/
def nativeProfile (ch : Chip) : Nat :=
  match ch.stepping with
  | .b1 => 1
  | .c0 => 2

/-- The state of a module of a stepping right after a cold reset (R487 phase RAILS, R492): every field at the Reset column of its field
map; the key store and flash as manufactured (log entry 71). -/
def State.resetOf (ch : Chip) : State := { chip := ch, m := { native := nativeProfile ch, atgen := Atgen.factory }, pending := [] }

/-- The state right after a cold reset, of stepping B1 (log entry 1). -/
def State.reset : State := State.resetOf { stepping := .b1 }

end Sys2Proof.Machine
end

