-- ==== Sys2Proof/WellFormed.lean ====
section
/-! DEFINITION. Well-formed commands: the operands that a COMMAND frame, a link beat, a packet or a sample of the spec can have. An
ill-formed command reaches no hardware; exec answers it with the fault illFormed. -/

namespace Sys2Proof

/-- Is a frame TYPE reserved (table Frame types)? -/
def typeReserved (t : BitVec 8) : Bool := t == 0 || decide (6 < t.toNat)

/-- The opcodes of the table Commands. -/
def listedOpcodes : List Nat :=
  [0x0001, 0x0002, 0x0003, 0x0004, 0x0005, 0x0006, 0x0101, 0x0102, 0x0103, 0x0104, 0x0105, 0x0106, 0x0107, 0x0108, 0x0201, 0x0202] ++
  [0x0301, 0x0302, 0x0303, 0x0304, 0x0305, 0x0306, 0x0307, 0x0401, 0x0402, 0x0501, 0x0601, 0x0602, 0x0603]

/-- A COMMAND frame (R419, R420): an argument block of at most 16 words, and command data only behind a whole block. A frame of a command's
row has TYPE COMMAND and the row's opcode, unless it has a reserved TYPE or an unlisted opcode. -/
def frameOk (f : Frame) : Bool :=
  decide (f.w.length ≤ 16) && (f.w.length == 16 || f.data.isEmpty) && (f.ftype == 1 || typeReserved f.ftype) &&
    (match f.opcode with
    | some o => !listedOpcodes.contains o.toNat
    | none => true)

/-- A DMA packet (R381): its payload is as long as its header says; `data` says whether its OP carries a payload. Reserved values of the
header are the receiving unit's to reject (R13). -/
def dmaPktOk (data : Bool) (k : DmaPkt) : Bool := k.payload.length * 4 == (if data then k.length.toNat else 0)

/-- A beat body: 64 bytes (R374, R226). -/
def beatOk (b : List W32) : Bool := b.length == 16

/-- A channel packet that comes from a link is of a kind of its row (R256). -/
def fromOk (kinds : List PktKind) (src : PktFrom) : Bool :=
  match src with
  | .flight _ => true
  | .port _ k => kinds.contains k.kind

/-- A power sample names the draw of each half. -/
def powerOk (t : PowerDraw) : Bool := t.halfW.length == 8

/-- A temperature sample (R475): one value for each of the eight halves. -/
def thermalOk (t : ThermalTelemetry) : Bool := t.dieHalf.length == 8

/-- A slot word that no listed opcode claims: all zeros (NOP), or an unlisted opcode (R64, R67). -/
def nopOk (slot : Slot) (op : BitVec 6) : Bool := !opListed slot op.toNat

/-- Is a command well formed? -/
def wellFormed (c : Instr) : Bool :=
  match c with
  | .nop _ slot op _ => nopOk slot op
  | .add _ _ => true
  | .sub _ _ => true
  | .and _ _ => true
  | .or _ _ => true
  | .xor _ _ => true
  | .shl _ _ => true
  | .shr _ _ => true
  | .sra _ _ => true
  | .mul _ _ => true
  | .mulhs _ _ => true
  | .mulhu _ _ => true
  | .min _ _ => true
  | .max _ _ => true
  | .minu _ _ => true
  | .maxu _ _ => true
  | .addi _ _ => true
  | .andi _ _ => true
  | .ori _ _ => true
  | .xori _ _ => true
  | .shli _ _ => true
  | .shri _ _ => true
  | .srai _ _ => true
  | .lil _ _ => true
  | .lih _ _ => true
  | .cmp _ _ => true
  | .plogic _ _ => true
  | .ld _ _ => true
  | .st _ _ => true
  | .br _ _ => true
  | .call _ _ => true
  | .jr _ _ => true
  | .loop _ _ => true
  | .time _ _ => true
  | .csrr _ _ => true
  | .csrw _ _ => true
  | .brk _ _ => true
  | .exit _ _ => true
  | .vadd _ _ => true
  | .vsub _ _ => true
  | .vand _ _ => true
  | .vor _ _ => true
  | .vxor _ _ => true
  | .vshl _ _ => true
  | .vshr _ _ => true
  | .vsra _ _ => true
  | .vmul _ _ => true
  | .vfadd _ _ => true
  | .vfsub _ _ => true
  | .vfmul _ _ => true
  | .vfma _ _ => true
  | .vfmin _ _ => true
  | .vfmax _ _ => true
  | .vcmp _ _ => true
  | .vsel _ _ => true
  | .vcvt _ _ => true
  | .vrcp _ _ => true
  | .vrsq _ _ => true
  | .vexp2 _ _ => true
  | .vlog2 _ _ => true
  | .vld _ _ => true
  | .vst _ _ => true
  | .vldc _ _ => true
  | .vstc _ _ => true
  | .vred _ _ => true
  | .vbcast _ _ => true
  | .vextr _ _ => true
  | .vshuf _ _ => true
  | .mldw _ _ => true
  | .mrun _ _ => true
  | .mzero _ _ => true
  | .mdrain _ _ => true
  | .mwgb _ _ => true
  | .mrunStart _ => true
  | .mldwStart _ => true
  | .mdrainStart _ => true
  | .mwgbStart _ => true
  | .mzeroStart _ => true
  | .rowCommit _ _ => true
  | .weightBufferReady _ _ => true
  | .drainLand _ => true
  | .xsend _ _ => true
  | .xrecv _ _ => true
  | .qissue _ _ => true
  | .waitq _ _ => true
  | .qpoll _ _ => true
  | .copen _ _ => true
  | .cclose _ _ => true
  | .csend _ _ => true
  | .csendnb _ _ => true
  | .crecv _ _ => true
  | .crecvnb _ _ => true
  | .sync _ _ => true
  | .barrive _ _ => true
  | .bwait _ _ => true
  | .dma _ _ => true
  | .swait _ _ => true
  | .tileEnded _ => true
  | .waitRelease _ => true
  | .waitTimeout _ => true
  | .tileGo _ => true
  | .tileStop _ _ => true
  | .counterClear _ => true
  | .nfClear _ => true
  | .cvClear _ => true
  | .regionConfigWrite _ _ _ => true
  | .mirrorReread _ _ => true
  | .registerWrite _ _ => true
  | .tickCounterAdvance => true
  | .tickEdge _ => true
  | .tickLost => true
  | .holdoverExpiry => true
  | .clockReturn _ => true
  | .clockSwitchComplete _ => true
  | .decision _ => true
  | .exchangePhaseStart _ => true
  | .superstepBoundary _ => true
  | .commit _ => true
  | .checkpointStart _ => true
  | .ckptSaveComplete _ _ => true
  | .clockEvent _ => true
  | .optionalDecision _ => true
  | .beatLanding _ _ => true
  | .inboundBeat _ _ _ data => beatOk data
  | .heldBeatForward _ => true
  | .exchangeStall _ => true
  | .stallLimit _ => true
  | .openRequest src => fromOk [.openReq] src
  | .copenReply src => fromOk [.openReply] src
  | .copenTimeout _ _ => true
  | .closeNotice src => fromOk [.closeNotice] src
  | .closeAck src => fromOk [.close, .closeAck] src
  | .creditReturn src => fromOk [.credit] src
  | .dropNotice src => fromOk [.drop] src
  | .opqLanding src => fromOk [.opq] src
  | .ringRecordLanding src => fromOk [.ring] src
  | .sendTimeout _ => true
  | .recvTimeout _ => true
  | .barrierArrival _ => true
  | .barrierLimitExpiry _ => true
  | .dmaCompletion _ => true
  | .putData _ pkt => dmaPktOk true pkt
  | .getRequest _ pkt => dmaPktOk false pkt
  | .getData _ pkt => dmaPktOk true pkt
  | .dmaAck _ pkt => dmaPktOk false pkt
  | .deny _ pkt => dmaPktOk false pkt
  | .streamReadData _ _ => true
  | .streamWriteAck _ _ => true
  | .stackRequest _ => true
  | .channelGrant _ _ => true
  | .backoffExpiry _ _ _ => true
  | .maintenanceWindow _ _ _ => true
  | .zeroFillComplete _ => true
  | .moveFlip _ => true
  | .frameRelease _ => true
  | .reelActivate _ => true
  | .nmuStart _ => true
  | .shardComplete _ => true
  | .contributionBeat _ _ => true
  | .reductionPacket _ _ _ _ => true
  | .chainBlock _ _ => true
  | .blockSum _ => true
  | .delivery _ => true
  | .barrierLineRelease => true
  | .barrierLineSample _ => true
  | .bridleTimeout => true
  | .linkBeat _ _ _ body => beatOk body
  | .linkAckTimer _ => true
  | .ack _ _ => true
  | .nak _ _ => true
  | .tick _ _ => true
  | .ready _ _ => true
  | .go _ _ => true
  | .slip _ _ => true
  | .fault _ _ => true
  | .fail _ _ => true
  | .abandon _ _ => true
  | .echoReq _ _ => true
  | .echoReply _ _ _ => true
  | .alignmentRecord _ _ _ _ => true
  | .alignmentReport _ _ => true
  | .stepFault _ => true
  | .abandonBroadcast _ => true
  | .lateAbandon _ => true
  | .abandonLost _ => true
  | .abandonDrainComplete _ => true
  | .restart _ => true
  | .scrubComplete _ => true
  | .identify f => frameOk f
  | .setModuleNum f => frameOk f
  | .roleConfirm f => frameOk f
  | .setTickTree f => frameOk f
  | .linkTrain f => frameOk f
  | .linkTrainComplete _ => true
  | .tickSync f => frameOk f
  | .tickSyncComplete _ _ => true
  | .partSet f => frameOk f
  | .partPorts f => frameOk f
  | .setQuota f => frameOk f
  | .map f => frameOk f
  | .move f => frameOk f
  | .unmap f => frameOk f
  | .memRead f => frameOk f
  | .memWrite f => frameOk f
  | .winTile f => frameOk f
  | .winDram f => frameOk f
  | .load f => frameOk f
  | .jobStart f => frameOk f
  | .jobStartTick _ => true
  | .jobKill f => frameOk f
  | .jobStatus f => frameOk f
  | .scrub f => frameOk f
  | .ckptSave f => frameOk f
  | .ckptRestore f _ => frameOk f
  | .regRead f => frameOk f
  | .regWrite f => frameOk f
  | .powerSet f => frameOk f
  | .quote f => frameOk f
  | .certRead f => frameOk f
  | .fwInstall f => frameOk f
  | .statusRead _ => true
  | .halt _ _ => true
  | .svnFloorRaise => true
  | .ballastPeriod _ => true
  | .policyTakesEffect => true
  | .powerSample _ _ draw => powerOk draw
  | .thermalSample tele => thermalOk tele
  | .emergencyRestart => true
  | .powerOn _ => true
  | .powerLoss => true
  | .resetN _ _ => true
  | .warmReset => true
  | .warmResetBegin _ => true
  | .tileReset _ => true
  | .telemetryRead first _ => decide (first.offset < 256)
  | .collectionPass => true
  | .collectionPassComplete => true
  | .haltRelease _ => true
  | .resetNRelease _ => true
  | .kitelineDown => true
  | .kitelineUp => true

end Sys2Proof
end

