-- ==== Sys2Proof/Machine/Ops.lean ====
section
/-! DEFINITION. The named operations over the module: access to its tables, time, traps, causes of a step failure, what leaves
the module. Every meaning changes the module through `onMod`, so no command changes the queue or the chip. -/

namespace Sys2Proof.Machine

/-- The three outcomes of a command. -/
abbrev Ans := Host.Outcome State Fault Refusal

/-- A command whose effect is a change of the module. -/
def onMod (f : Mod → Mod) (s : State) : Ans := .next { s with m := f s.m }

/-- A command that also reads the module's stepping. -/
def onChip (f : Chip → Mod → Mod) (s : State) : Ans := .next { s with m := f s.chip s.m }

/-- The same for a command that must be well formed. -/
def onModIf (ok : Bool) (f : Mod → Mod) (s : State) : Ans := if ok then onMod f s else .fault .illFormed

/-- The same with the stepping. -/
def onChipIf (ok : Bool) (f : Chip → Mod → Mod) (s : State) : Ans := if ok then onChip f s else .fault .illFormed

/-! ## Tables -/

/-- A tile. -/
def tileOf (m : Mod) (t : Nat) : Tile := mget {} m.tiles t
/-- The data of a tile. -/
def tdOf (m : Mod) (t : Nat) : TileData := (tileOf m t).d
/-- Change a tile. -/
def modTile (t : Nat) (f : Tile → Tile) (m : Mod) : Mod := { m with tiles := mmod {} m.tiles t f }
/-- The tile as the slots of the bundle in progress read it (R69): as it stood before the bundle. -/
def bundleBase (x : Tile) : TileData :=
  match x.bundle with
  | some b => b.base
  | none => x.d
/-- The data of a tile as everything but the bundle in progress sees it: a bundle executes as a whole, in its issue cycle (R69). -/
def seenTd (m : Mod) (t : Nat) : TileData := bundleBase (tileOf m t)
/-- Change the data of a tile, and what a bundle in progress goes back to if it does not issue: the change is not the bundle's own. -/
def modTd (t : Nat) (f : TileData → TileData) (m : Mod) : Mod :=
  modTile t (fun x => { d := f x.d, bundle := x.bundle.map (fun b => { b with base := f b.base }) }) m
/-- A partition. -/
def partOf (m : Mod) (p : Nat) : Part := mget {} m.parts p
/-- Change a partition. -/
def modPart (p : Nat) (f : Part → Part) (m : Mod) : Mod := { m with parts := mmod {} m.parts p f }
/-- A port. -/
def portOf (m : Mod) (q : Nat) : Port := mget {} m.ports q
/-- Change a port. -/
def modPort (q : Nat) (f : Port → Port) (m : Mod) : Mod := { m with ports := mmod {} m.ports q f }
/-- A reduction engine. -/
def engineOf (m : Mod) (e : Nat) : Engine := mget {} m.engines e
/-- Change an engine. -/
def modEngine (e : Nat) (f : Engine → Engine) (m : Mod) : Mod := { m with engines := mmod {} m.engines e f }
/-- A pool entry. -/
def epOf (m : Mod) (k : Nat) : Ep := mget {} m.pool k
/-- Change a pool entry. -/
def modEp (k : Nat) (f : Ep → Ep) (m : Mod) : Mod := { m with pool := mmod {} m.pool k f }
/-- A barrier object. -/
def barOf (m : Mod) (b : Nat) : Bar := mget {} m.bars b
/-- Change a barrier. -/
def modBar (b : Nat) (f : Bar → Bar) (m : Mod) : Mod := { m with bars := mmod {} m.bars b f }
/-- A page directory entry. -/
def pageOf (m : Mod) (k : Nat) : Page := mget {} m.dir k
/-- Change a page. -/
def modPage (k : Nat) (f : Page → Page) (m : Mod) : Mod := { m with dir := mmod {} m.dir k f }
/-- A stack. -/
def stackOf (m : Mod) (n : Nat) : Stack := mget {} m.stk n
/-- Change a stack. -/
def modStack (n : Nat) (f : Stack → Stack) (m : Mod) : Mod := { m with stk := mmod {} m.stk n f }
/-- A shard. -/
def shardOf (m : Mod) (i : Nat) : Shard := mget {} m.shards i
/-- Change a shard. -/
def modShard (i : Nat) (f : Shard → Shard) (m : Mod) : Mod := { m with shards := mmod {} m.shards i f }
/-- A half. -/
def halfSt (m : Mod) (h : Nat) : HalfSt := mget {} m.halves h
/-- Change a half. -/
def modHalf (h : Nat) (f : HalfSt → HalfSt) (m : Mod) : Mod := { m with halves := mmod {} m.halves h f }

/-- The next free value's number, and the module with the counter of free values advanced. -/
def takeFree (m : Mod) : Nat × Mod := (m.free, { m with free := m.free + 1 })

/-- Something leaves the module. -/
def emit (o : Out) (m : Mod) : Mod := { m with out := m.out ++ [o] }

/-- Gondola raises a host event (R425): it is sent at once, or waits in the queue of 256 while Kiteline is down. -/
def hostEvent (cls part source detail aux : Nat) (m : Mod) : Mod :=
  let e : Event := { cls, part, source, detail, tick := m.tick, aux }
  if m.box.kiteUp then emit (.event e) m
  else if m.box.events.length < 256 then { m with box := { m.box with events := m.box.events ++ [e] } }
  else { m with box := { m.box with eventDrops := satAdd 16 m.box.eventDrops 1 } }

/-! ## Partitions -/

/-- The partition that holds a half. -/
def partOfHalf (m : Mod) (h : Nat) : Option Nat := (List.range 8).find? (fun p => bit (partOf m p).halves h)
/-- The partition that holds a tile. -/
def partOfTile (m : Mod) (t : Nat) : Option Nat := partOfHalf m (halfOf t)
/-- The tiles of a partition, in tile_id order within each half. -/
def tilesOfPart (m : Mod) (p : Nat) : List Nat := (maskBits 8 (partOf m p).halves).flatMap tilesOfHalf
/-- The lowest-numbered partition that holds a job: the one the module's time registers show (log entry 9). -/
def jobPart (m : Mod) : Option Nat := (List.range 8).find? (fun p => (partOf m p).jstate ≠ .none)
/-- The partition whose job has a tag. -/
def partOfTag (m : Mod) (tag : Nat) : Option Nat :=
  (List.range 8).find? (fun p => (partOf m p).jstate ≠ .none && (partOf m p).tag.toNat == tag)

/-! ## Time (02) -/

/-- A W1C bit of a register of the control space, given by the register's offset (R528). -/
def w1cKey (o b : Nat) : Nat := 64 * o + b

/-- Cycles of the 800 MHz source, which never stops (R23, R24): the time of the stack, link, tick and control domains. -/
def srcNow (m : Mod) : Nat := m.now + m.lost

/-- The ticks spent in the current or last holdover: 1,024 last 819.2 µs (R37, R56). -/
def heldTicks (m : Mod) : Nat := if m.lock = .holdover then Nat.min 1024 ((srcNow m - m.holdFrom) / 640) else m.holdTicks

/-- Numbers go into a record. -/
def fillFirst (l : List Nat) (r : FirstRec) : FirstRec :=
  { r with valid := true, a := nth 0 l 0, b := nth 0 l 1, c := nth 0 l 2, e := nth 0 l 3, f := nth 0 l 4 }

/-- An event of a first-event register in a cycle: an empty record takes its numbers; the first event of each cycle stays in mind, for a
write of that cycle that clears the record (R528). -/
def noteFirst (c : Nat) (l : List Nat) (r : FirstRec) : FirstRec :=
  let seen : Bool := match r.fresh with
    | some x => x.1 == c
    | none => false
  let r := if seen then r else { r with fresh := some (c, l) }
  if r.valid then r else fillFirst l r

/-- A hardware event sets a W1C bit; a record of it holds some numbers. The first of a cycle stays in mind (R528). -/
def noteSet (o b : Nat) (l : List Nat) (m : Mod) : Mod :=
  { m with sets := if (mget (0, []) m.sets (w1cKey o b)).1 = srcNow m + 1 then m.sets
      else mset (0, []) m.sets (w1cKey o b) (srcNow m + 1, l) }

/-- What the first event of this cycle that set a W1C bit left, if there was one (R528). -/
def setNow (m : Mod) (o b : Nat) : Option (List Nat) :=
  let x := mget (0, []) m.sets (w1cKey o b)
  if x.1 = srcNow m + 1 then some x.2 else none

/-- Does a W1C bit that is 1 stay 1 on a write (R11, R528)? -/
def staysSet (m : Mod) (o b v : Nat) : Bool := !bit v b || (setNow m o b).isSome
/-- How many cycles the last emergency stop has kept the clocks. -/
def standing (m : Mod) : Nat := m.lost - m.power.stopFrom
/-- The cycle in which the clocks of the tile and fabric domains last stood still. -/
def stoodNow (m : Mod) : Nat := if m.power.active then m.now else m.power.restartNow

/-- The tick number and phase of a cycle of the tile and fabric clocks (R24, R30): `now` is the cycle of the module's tick and phase. A
cycle before the last emergency stop lies before the ticks that have passed in it (R49). -/
def tickAt (m : Mod) (c : Nat) : BitVec 48 × Nat :=
  let tot : Int := (m.tick.toNat : Int) * 640 + m.phase + c - m.now - (if c < stoodNow m || m.power.active then standing m else 0)
  (BitVec.ofInt 48 (tot / 640), (tot % 640).toNat)

/-- The cycle of a tick's cycle 0 as if no clock had stopped; negative before cycle 0 of the model. -/
def rawCycle (m : Mod) (t : BitVec 48) : Int := (m.now : Int) - m.phase + (t - m.tick).toInt * 640

/-- Has cycle 0 of a tick passed while the clocks stood still in the last emergency stop (R49)? -/
def stoodAt (m : Mod) (t : BitVec 48) : Bool :=
  decide (0 < standing m) && decide (rawCycle m t < stoodNow m) && decide ((stoodNow m : Int) ≤ rawCycle m t + standing m)

/-- The cycle of the tile and fabric clocks in which a tick begins, past or to come (ticks compare modulo 2^48, R54); for one that began in
the last emergency stop, the cycle of the restart. -/
def cycleOfTick (m : Mod) (t : BitVec 48) : Nat :=
  let c := rawCycle m t
  (if (stoodNow m : Int) ≤ c then c else if stoodAt m t then (stoodNow m : Int) else c + standing m).toNat

/-- Has tick t begun? Ticks compare modulo 2^48 (R31). -/
def tickReached (m : Mod) (t : BitVec 48) : Bool := (m.tick - t).toNat < 2 ^ 47

/-- How many source cycles the local time of a tile's partition is behind the module's (R232: an exchange stall holds every tile
domain of the partition). -/
def lagOf (m : Mod) (t : Nat) : Nat :=
  match partOfTile m t with
  | some p => (partOf m p).lag
  | none => 0
/-- The local cycle of a partition now: in a stall, the one that is held (R232). -/
def partNow (m : Mod) (p : Nat) : Nat :=
  let x := partOf m p
  (if x.xphase = .stall then x.stallFrom else m.now) - x.lag
/-- The local cycle of a tile now. -/
def nowOf (m : Mod) (t : Nat) : Nat :=
  match partOfTile m t with
  | some p => partNow m p
  | none => m.now
/-- Cycles for which a stall in progress has held a tile's domain (R232). -/
def heldFor (m : Mod) (t : Nat) : Nat := m.now - lagOf m t - nowOf m t
/-- The tick and phase of a local cycle of a tile; what happens in the cycle that a stall holds happens now. -/
def tileTick (m : Mod) (t c : Nat) : BitVec 48 × Nat :=
  tickAt m (c + lagOf m t + (if nowOf m t ≤ c then heldFor m t else 0))

/-- Source cycles per core cycle of a tile: 1 at 800 MHz, 2 at 400 MHz (R24, R76). -/
def coreK (m : Mod) (t : Nat) : Nat :=
  match (halfSt m (halfOf t)).clk with
  | .half => 2
  | .toFull => 2
  | _ => 1

/-- Does a tile lie in a partition that is KILLED_RETAINED, whose contents stay as they are (R416)? -/
def retained (m : Mod) (t : Nat) : Bool :=
  match partOfTile m t with
  | some p => (partOf m p).jstate == .killedRetained
  | none => false

/-- Is the clock of a tile running: no emergency stop (R23), no exchange stall of its partition (R232), no clock switch of its half
(R464)? -/
def clockRuns (m : Mod) (t : Nat) : Bool :=
  !m.power.active && (match partOfTile m t with
    | some p => (partOf m p).xphase != .stall
    | none => true) && ((halfSt m (halfOf t)).clk == .full || (halfSt m (halfOf t)).clk == .half)

/-! ## Causes of a step failure (14) -/

/-- Hardware signals a cause of a step failure to Gondola (R395); the row STEP_FAULT acts on it. -/
def signalAt (p cause detail tile : Nat) (at_ : BitVec 48 × Nat) (m : Mod) : Mod :=
  modPart p (fun x => { x with causes := x.causes ++ [{ cause, detail, tile, tick := at_.1, phase := at_.2 }] }) m

/-- A module fault: TILE reads 0x1FFF (R395). -/
def signalModule (p cause detail : Nat) (m : Mod) : Mod := signalAt p cause detail 0x1FFF (m.tick, m.phase) m

/-- A fault of a tile, signalled to the partition that holds it. -/
def signalTile (t cause detail : Nat) (at_ : BitVec 48 × Nat) (m : Mod) : Mod :=
  match partOfTile m t with
  | some p => signalAt p cause detail t at_ m
  | none => m

/-! ## Taking a trap (R90 to R93) -/

/-- Names of the trap causes (R92). -/
abbrev trapIllegalOpcode : Nat := 0x01
abbrev trapIllegalBundle : Nat := 0x02
abbrev trapReservedField : Nat := 0x03
abbrev trapPcRange : Nat := 0x04
abbrev trapImemParity : Nat := 0x05
abbrev trapLoopDepth : Nat := 0x06
abbrev trapCsrAccess : Nat := 0x07
abbrev trapScratchRange : Nat := 0x08
abbrev trapMisaligned : Nat := 0x09
abbrev trapScratchParity : Nat := 0x0A
abbrev trapSendTimeout : Nat := 0x10
abbrev trapWaitTimeout : Nat := 0x11
abbrev trapStreamFault : Nat := 0x12
abbrev trapExchangeFault : Nat := 0x13
abbrev trapMatrixFault : Nat := 0x14
abbrev trapBreak : Nat := 0x20
abbrev trapStopped : Nat := 0x21

/-- Is a trap cause of class debug? (R92) -/
def isDebugTrap (cause : Nat) : Bool := cause == trapBreak || cause == trapStopped

/-- Which counter counts the cycles of a wait (R97): index of the counter, if any. -/
def waitCounter : WaitKind → Option Nat
  | .waitq .. => some 4
  | .swait .. => some 4
  | .sync => some 5
  | .tick => some 5
  | .bwait .. => some 6
  | .csend .. => some 7
  | .crecv .. => some 7
  | .none => Option.none

/-- Add to a tile counter (0 CYC_ACTIVE to 7 CYC_WAIT_CHANNEL), unless FREEZE holds it; counters are 64-bit (R97). -/
def addCtr (k n : Nat) (d : TileData) : TileData :=
  if d.freeze then d else { d with ctr := mmod 0 d.ctr k (fun v => (v + n) % 2 ^ 64) }

/-- Count the cycles of a wait up to a cycle, those not counted before. -/
def countWait (c : Nat) (d : TileData) : TileData :=
  match waitCounter d.wait.kind with
  | some k =>
    let n := c - d.wait.since - d.wait.counted
    { addCtr 0 n (addCtr k n d) with wait := { d.wait with counted := d.wait.counted + n } }
  | Option.none => d

/-- Scoreboard keys of the results a wait still owes. -/
def waitKeys : WaitKind → List Nat
  | .csend _ rd .. => [rd]
  | .crecv _ rd pd .. => [rd, 64 + pd]
  | .bwait _ _ rd => [rd]
  | _ => []

/-- The cycles a tile has been RUNNING since it could issue its next bundle (R97). -/
def countIdle (c : Nat) (d : TileData) : TileData := if d.st = .running then addCtr 0 (c - d.nextIssue) d else d

/-- The trap record of a bundle (R90): TRAP_STATUS, TRAP_INFO and TRAP_TICK. A tile that has issued EXIT and stops for debug ends after it
goes on (R82; log entry 45). -/
def recordTrap (pc slots cause info cycle : Nat) (at_ : BitVec 48 × Nat) (d : TileData) : TileData :=
  if d.st = .trapped ∨ d.st = .debugStop then { d with trap := { d.trap with multi := true, multiAt := cycle + 1 } }
  else
    { countWait cycle (countIdle cycle d) with
      st := if isDebugTrap cause then .debugStop else .trapped
      xpend := if d.st = .waiting then d.xpend.filter (fun k => !(waitKeys d.wait.kind).contains k.1) else d.xpend
      wait := {}
      exiting := d.exiting && isDebugTrap cause
      oneBundle := false
      imemTrap := d.imemTrap || cause == trapImemParity
      trap := { pc := pc, slots := slots, cause := cause, multi := false, valid := true, info := info, tick := at_.1, phase := at_.2
                validAt := cycle + 1, multiAt := 0 } }

/-- What Gondola is signalled for a trap (R93, R395): DEBUG_STOP for class debug, UNCORRECTABLE for a STREAM_FAULT of that code
(its DETAIL says whether the word is banked), else TILE_TRAP. -/
def trapCause (cause info : Nat) (banked : Bool) : Nat × Nat :=
  if isDebugTrap cause then (0x11, 0)
  else if cause == trapStreamFault && info % 256 == 3 then (0x02, 0x80 * b2n banked + 1)
  else (0x01, cause)

/-- The pool entry of a handle of a tile. -/
def handleEp (m : Mod) (t h : Nat) : Option Nat :=
  match mget 0 (tdOf m t).handles h with
  | 0 => none
  | k + 1 => some k

/-- A wait of a tile ends at a cycle: what it waited on a connection or an endpoint counts there (R259), and it is no waiter of a barrier
any more (R271). -/
def leaveWait (t c : Nat) (m : Mod) : Mod :=
  let d := tdOf m t
  let stall (h : Nat) : Mod := match handleEp m t h with
    | some k => modEp k (fun x => { x with stall := Nat.min (x.stall + (c - d.wait.since)) (2 ^ 42 - 1) }) m
    | none => m
  match d.st, d.wait.kind with
  | .waiting, .csend h .. => stall h
  | .waiting, .crecv h .. => stall h
  | .waiting, .bwait b .. => modBar b (fun x => { x with waiters := x.waiters.filter (· ≠ t) }) m
  | _, _ => m

/-- A tile traps: it stops issuing, records the trap and signals Gondola, unless it is TRAPPED or in DEBUG_STOP already, when
only MULTI is set (R90, R91). `quiet` is Gondola's own STOP, which is no cause and sets no MULTI (R93). -/
def trapTile (t pc slots cause info : Nat) (cycle : Nat) (banked quiet : Bool) (m : Mod) : Mod :=
  let d := tdOf m t
  let stopped : Bool := d.st == .trapped || d.st == .debugStop
  if stopped && quiet then m
  else
    let at_ := tileTick m t cycle
    let m := leaveWait t cycle m
    let m := modTile t (fun x => { d := recordTrap pc slots cause info cycle at_ x.d, bundle := if stopped then x.bundle else none }) m
    if stopped || quiet then m
    else let cd := trapCause cause info banked; signalTile t cd.1 cd.2 at_ m

/-! ## Registers of the tile core (R58, R59) -/

/-- s r: s0 reads zero. -/
def getS (d : TileData) (r : Nat) : W32 := if r = 0 then 0 else mget 0 d.sreg r
/-- Write s r: writes to s0 are discarded. -/
def setS (r : Nat) (v : W32) (d : TileData) : TileData :=
  if r = 0 then d else { d with sreg := mset 0 d.sreg r v }
/-- p r: p0 reads all ones. -/
def getP (d : TileData) (r : Nat) : W32 := if r = 0 then BitVec.allOnes 32 else mget 0 d.preg r
/-- Write p r: writes to p0 are discarded. -/
def setP (r : Nat) (v : W32) (d : TileData) : TileData :=
  if r = 0 then d else { d with preg := mset 0 d.preg r v }
/-- Lane i of v r (key 32·r + i). -/
def getL (d : TileData) (r i : Nat) : W32 := mget 0 d.vreg (32 * r + i)
/-- Write lane i of v r. -/
def setL (r i : Nat) (v : W32) (d : TileData) : TileData := { d with vreg := mset 0 d.vreg (32 * r + i) v }
/-- The 32 lanes of v r. -/
def getV (d : TileData) (r : Nat) : List W32 := (List.range 32).map (getL d r)
/-- Write the lanes of v r that a mask enables with f of the lane. -/
def setV (r : Nat) (mask : W32) (f : Nat → W32) (d : TileData) : TileData :=
  (maskBits 32 mask.toNat).foldl (fun d i => setL r i (f i) d) d

/-! ## Scratchpad words (07) -/

/-- The scratchpad word at a byte address. -/
def spWord (d : TileData) (a : Nat) : W32 := mget 0 d.scratch (a / 4)
/-- Write a scratchpad word: its parity is formed anew (R189, R191). -/
def spPut (a : Nat) (v : W32) (d : TileData) : TileData :=
  { d with scratch := mset 0 d.scratch (a / 4) v, spBad := d.spBad.filter (· ≠ a / 4) }
/-- Write words from a byte address upward. -/
def spPuts (a : Nat) : List W32 → TileData → TileData
  | [], d => d
  | w :: r, d => spPuts (a + 4) r (spPut a w d)
/-- Ranks of the write ports within a cycle (R185): of two writes of a word in one cycle that of the higher rank remains. -/
abbrev rankDW : Nat := 1
abbrev rankXI : Nat := 2
abbrev rankMD : Nat := 3
abbrev rankSW : Nat := 4
abbrev rankVW : Nat := 5
/-- Does a write of a word yield to one that the word holds already: a higher rank in the same cycle (R185), or, of the drain path and the
exchange, whose cycles are exact, one of a later cycle? A decoupled write has no exact cycle (R184): the cycle of its row counts. -/
def spYields (d : TileData) (rank cycle a : Nat) : Bool :=
  let s := mget (0, 0) d.spLast (a / 4)
  (s.1 == cycle && decide (rank < s.2)) || (rank != rankDW && decide (cycle < s.1))
/-- A write that lands through a port in a cycle. -/
def spLand (rank cycle a : Nat) (v : W32) (d : TileData) : TileData :=
  if spYields d rank cycle a then d else { spPut a v d with spLast := mset (0, 0) d.spLast (a / 4) (cycle, rank) }
/-- Words that land from a byte address upward. -/
def spLands (rank cycle a : Nat) : List W32 → TileData → TileData
  | [], d => d
  | w :: r, d => spLands rank cycle (a + 4) r (spLand rank cycle a w d)
/-- A write that lands through a port in a cycle to come: until then the word reads as before (R185). -/
def spLandLater (rank cycle a : Nat) (v : W32) (d : TileData) : TileData :=
  { spLand rank cycle a v d with spOld := (a / 4, cycle, spWord d a) :: d.spOld.filter (fun x => decide (cycle ≤ x.2.1 + 64)) }
/-- The word at a byte address that a read in a cycle finds (R185). -/
def spWordAt (d : TileData) (cycle a : Nat) : W32 :=
  match (d.spOld.filter (fun x => x.1 == a / 4 && decide (cycle ≤ x.2.1))).getLast? with
  | some x => x.2.2
  | none => spWord d a
/-- The bank and the entry of a byte address (R181): the words of a line lie diagonally in the 32 banks. -/
def spPlace (a : Nat) : Nat × Nat := ((a / 4 % 32 + a / 128) % 32, a / 128)
/-- The word that an entry of a bank holds (R181). -/
def bankWord (d : TileData) (bank entry : Nat) : W32 := spWord d (128 * entry + 4 * ((bank + 32 - entry % 32) % 32))
/-- Read n words from a byte address upward. -/
def spWords (d : TileData) (a n : Nat) : List W32 := (List.range n).map (fun i => spWord d (a + 4 * i))
/-- Ports of the parity record (07 Parity port encoding). -/
abbrev portSR : Nat := 0
abbrev portVR : Nat := 1
abbrev portMS : Nat := 2
abbrev portMW : Nat := 3
abbrev portXO : Nat := 4
abbrev portDR : Nat := 5
abbrev portDRControl : Nat := 6
/-- The byte addresses among a list whose words fail their parity check (R189). -/
def spFails (d : TileData) (l : List Nat) : List Nat := l.filter (fun a => d.spBad.contains (a / 4))
/-- Record parity errors (R190): the first in full, each counted; COUNT saturates at 0xFFFF. -/
def spRecord (c port : Nat) (fails : List Nat) (d : TileData) : TileData :=
  fails.foldl (fun d a =>
    let r := noteFirst c [port, a / 4 * 4] d.spParity
    { d with spParity := { r with count := satAdd 16 r.count 1 } }) d

/-! ## Traps of later stages (R90, R91, R187, R190) -/

/-- A bundle in progress is given up: nothing of it has executed (R69). -/
def dropBundle (t : Nat) (m : Mod) : Mod :=
  modTile t (fun x => match x.bundle with
    | some b => { d := b.base, bundle := none }
    | none => x) m

/-- A trap that a later stage is to raise takes its place by its cycle. -/
def dueInsert (x : DueTrap) : List DueTrap → List DueTrap
  | [] => [x]
  | y :: r => if x.cycle < y.cycle then x :: y :: r else y :: dueInsert x r

/-- The trap of a later stage comes: the words that stage finds wrong are recorded (R190), and the tile traps. -/
def takeDue (t : Nat) (m : Mod) (x : DueTrap) : Mod :=
  trapTile t x.pc x.slots x.cause x.info x.cycle false false (modTd t (spRecord x.cycle x.port x.words) m)

/-- The traps of later pipeline stages whose cycle has come (R90, R91). -/
def dueTraps (t c : Nat) (m : Mod) : Mod :=
  let late (x : DueTrap) : Bool := decide (c < x.cycle)
  ((tdOf m t).faultsDue.filter (fun x => !late x)).foldl (takeDue t)
    (modTd t (fun d => { d with faultsDue := d.faultsDue.filter late }) m)

/-- A trap comes while a bundle has not issued: the bundle is given up, and the cycles it has waited for registers are interlock cycles
(R69, R97). -/
def cutBundle (t c : Nat) (m : Mod) : Mod :=
  match (tileOf m t).bundle with
  | none => m
  | some b => modTd t (fun d => addCtr 2 (Nat.min c b.earliest - d.nextIssue) d) (dropBundle t m)

/-- The same with the traps of a bundle in progress: where one comes, the bundle does not issue. -/
def interrupt (t c : Nat) (m : Mod) : Mod :=
  match (tdOf m t).faultsDue.find? (fun x => decide (x.cycle ≤ c)) with
  | none => m
  | some x => dueTraps t c (cutBundle t x.cycle m)

/-- Those of every tile, at the module's time. -/
def dueTrapsNow (m : Mod) : Mod :=
  m.tiles.foldl (fun m x => if x.2.d.faultsDue.isEmpty then m else interrupt x.1 (nowOf m x.1) m) m

/-- A fault of a landing in a tile: an execution trap outside any bundle (R90, R91). -/
def trapLanding (t slots cause info : Nat) (m : Mod) : Mod :=
  let m := cutBundle t (nowOf m t) m
  trapTile t (tdOf m t).pc slots cause info (nowOf m t) false false m

end Sys2Proof.Machine
end

