-- ==== Sys2Proof/Machine/LinkOps.lean ====
section
/-! DEFINITION. What a port sends: link beats, packets, symbols; upstream and downstream (R374 to R383, R387). -/

namespace Sys2Proof.Machine

/-- Classes of link beats (R375). -/
abbrev clsCompiled : Nat := 0
abbrev clsReduction : Nat := 1
abbrev clsDma : Nat := 2
abbrev clsChannel : Nat := 3

/-- Link beat header (R375). -/
def linkHeader (cls seq : Nat) (first last : Bool) (tag transfer : Nat) : W64 :=
  pack [(61, cls), (45, seq % 65536), (44, b2n first), (43, b2n last), (16, tag), (0, transfer)]

/-- Link beats a replay buffer holds (table Link figures). -/
def replayRoom (q : Nat) : Nat := if q < 48 then 4096 else 12288

/-- Of some beats, given by the cycles they took the link in, those of the cycles from one to another. -/
def sentIn (l : List Nat) (a b : Nat) : Nat := (l.filter (fun x => decide (a ≤ x) && decide (x ≤ b))).length

/-- Is a beat in a replay buffer one of the payload of a reduction packet? -/
def payloadBeat (b : LinkBeat) : Bool := bits b.hdr.toNat 63 61 == clsReduction && !bit b.hdr.toNat 44 && !bit b.hdr.toNat 43
/-- Beats of reduction packets' payloads at a port that wait, or have still to be acknowledged. -/
def payloadBeats (x : Port) : Nat :=
  (x.waiting.filter (fun b => b.cls == clsReduction && !b.first && !b.last)).length + (x.replay.filter payloadBeat).length

/-- May a beat of a class other than compiled take the link in a cycle (R227)? In every window of the limit that holds the cycle, the beats
sent, this one and a compiled one in each later cycle, and in this one if `own` says that none has come yet, stay within the limit. -/
def linkRoom (q c : Nat) (own : Bool) (sent : List Nat) : Bool :=
  if q < 48 then (List.range 8).all (fun i => decide (sentIn sent (c - i) c + 1 + (7 - i) + b2n own ≤ 13))
  else decide (sentIn sent c c + 1 + b2n own ≤ 26)

/-- Would one more compiled beat exceed the limit of a Tether link (R227)? -/
def linkFull (c : Nat) (sent : List Nat) : Bool := decide (13 ≤ sentIn sent (c - 7) c)

/-- A beat takes the link in this cycle (R375, R379): it has the next SEQ, and stays in the replay buffer until it is acknowledged. One that
leaves before a replay has come to its end is out of its turn at the receiver, and the replay sends it again (log entry 110). -/
def takeLink (q cls : Nat) (first last : Bool) (tag transfer : Nat) (body : List W32) (m : Mod) : Mod :=
  let p := portOf m q
  let hdr := linkHeader cls p.sendSeq first last tag transfer
  emit (.link q hdr body) (modPort q (fun p => { p with
    sent := srcNow m :: p.sent.take 63, sentCompiled := if cls = clsCompiled then srcNow m + 1 else p.sentCompiled
    sendSeq := (p.sendSeq + 1) % 65536, replay := p.replay ++ [(⟨hdr, body⟩ : LinkBeat)]
    resend := if p.resend.isEmpty then [] else p.resend ++ [(⟨hdr, body⟩ : LinkBeat)] }) m)

/-- The next beat to send of those that wait at a port (R376): a DMA or channel beat that has waited 64 cycles, then the classes in their
order. -/
def nextBeat (c : Nat) (l : List WaitBeat) : Option Nat :=
  findIdx? (fun b => b.cls != clsReduction && decide (b.since + 64 ≤ c)) l <|> findIdx? (fun b => b.cls == clsReduction) l <|>
    findIdx? (fun b => b.cls == clsChannel) l <|> findIdx? (fun b => b.cls == clsDma) l

/-- Send the next beat that waits at a port. -/
def sendWaiting (q i : Nat) (m : Mod) : Mod :=
  match nth? (portOf m q).waiting i with
  | none => m
  | some b =>
    let m := takeLink q b.cls b.first b.last 0 0 b.body (modPort q (fun p => { p with waiting := dropNth p.waiting i }) m)
    match b.chan with
    | some k => emit (.chan q k) m
    | none => m

/-- Send the next beat of a replay again (R379). -/
def resendNext (q : Nat) (b : LinkBeat) (r : List LinkBeat) (m : Mod) : Mod :=
  emit (.link q b.hdr b.body) (modPort q (fun p => { p with resend := r, sent := srcNow m :: p.sent.take 63 }) m)

/-- A port sends what a replay has to send again, then what waits, as far as this cycle has slots and the replay buffer has room
(R227, R376, R379). While a beat of the present
cycle may still come from the router, one slot is kept for it. No beat leaves in an emergency stop (R23). -/
def serveLink (own : Bool) (q : Nat) : Nat → Mod → Mod
  | 0, m => m
  | f + 1, m =>
    let p := portOf m q
    let c := srcNow m
    if m.power.active || p.state ≠ .up || !linkRoom q c (own && p.sentCompiled != c + 1) p.sent then m
    else match p.resend with
      | b :: r => serveLink own q f (resendNext q b r m)
      | [] =>
        if replayRoom q ≤ p.replay.length then m
        else match nextBeat c p.waiting with
          | none => m
          | some i => serveLink own q f (sendWaiting q i m)

/-- Beats of a packet come to a port (R376); those that find a slot leave at once (log entry 110). A port that is not UP sends nothing
(R380). -/
def queueBeats (q : Nat) (l : List WaitBeat) (m : Mod) : Mod :=
  if (portOf m q).state ≠ .up then m
  else serveLink true q 32 (modPort q (fun p => { p with waiting := p.waiting ++ l }) m)

/-- One bit of CRC-32C (Castagnoli, reflected polynomial 0x82F63B78). -/
def crcBit (c : Nat) : Nat := if c % 2 = 1 then (c / 2) ^^^ 0x82F63B78 else c / 2
/-- One byte of CRC-32C. -/
def crcByte (c : Nat) (b : Byte) : Nat :=
  let x := c ^^^ b.toNat
  crcBit (crcBit (crcBit (crcBit (crcBit (crcBit (crcBit (crcBit x)))))))
/-- CRC-32C of bytes (R377, R419). -/
def crc32c (l : List Byte) : Nat := l.foldl crcByte 0xFFFFFFFF ^^^ 0xFFFFFFFF

/-- Words padded with zeros to whole 64-byte beats. -/
def padBeat (l : List W32) : List W32 := l ++ List.replicate ((16 - l.length % 16) % 16) 0
/-- The 64-byte beats of padded words. -/
def beatsOfWords (l : List W32) : List (List W32) := chunks 16 (l.length / 16 + 1) (padBeat l)

/-- A packet on the link: header beat, payload beats, the beat of the CRC-32C over the payload beats (R377, R381; log entry 35). -/
def packetBeats (hdr payload : List W32) : List (List W32) :=
  let pl := padBeat payload
  (padBeat hdr :: beatsOfWords pl) ++ [padBeat [BitVec.ofNat 32 (crc32c (wordsBytes pl))]]

/-- The beats of a packet as they wait for their slots. -/
def waitBeats (cls now : Nat) (chan : Option ChanPkt) : Bool → List (List W32) → List WaitBeat
  | _, [] => []
  | first, [b] => [⟨cls, first, true, b, now, chan⟩]
  | first, b :: r => ⟨cls, first, false, b, now, none⟩ :: waitBeats cls now chan false r

/-- Send the beats of a packet. -/
def sendBeats (q cls : Nat) (l : List (List W32)) (m : Mod) : Mod := queueBeats q (waitBeats cls (srcNow m) none true l) m

/-- Link beats of a channel packet (R256, R381): its header beat, then its beats: one, or those of a ring message with its 8-byte header.
The layout of neither is stated, so the bits are free values (log entry 31). -/
def chanBeats (k : ChanPkt) : Nat :=
  1 + (match k.kind with
    | .ring => (8 + k.amount + 63) / 64
    | _ => 1)

/-- Beats of free values. -/
def freeBeats : Nat → Mod → List (List W32) × Mod
  | 0, m => ([], m)
  | n + 1, m =>
    let f := takeFree m
    let r := freeBeats n f.2
    ((List.range 16).map (fun i => BitVec.ofNat 32 (Config.unstated f.1 / 2 ^ (32 * i))) :: r.1, r.2)

/-- Send a channel packet from a port (R256, R381). -/
def sendChanLink (q : Nat) (k : ChanPkt) (m : Mod) : Mod :=
  if (portOf m q).state ≠ .up then m
  else let r := freeBeats (chanBeats k) m; queueBeats q (waitBeats clsChannel (srcNow m) (some k) true r.1) r.2

/-- Header body of a DMA packet (R381). -/
def dmaHeader (op : Nat) (p : DmaPkt) : List W32 :=
  bytesWords (leBytes 2 p.destModule.toNat ++ leBytes 2 p.srcModule.toNat ++ leBytes 2 p.srcTile.toNat ++ leBytes 2 p.jobTag.toNat
    ++ leBytes 6 p.addr.toNat ++ [0, 0] ++ leBytes 4 p.length.toNat ++ [BitVec.ofNat 8 op, p.signal, p.mode, p.hops])

/-- Send a DMA packet from a port (R381). -/
def sendDma (q op : Nat) (p : DmaPkt) (m : Mod) : Mod :=
  sendBeats q clsDma (packetBeats (dmaHeader op p) p.payload) m

/-- Send a reduction packet from a port (R339, R381): the blocks of one job. -/
def sendReduction (q tag epoch job : Nat) (words : List W32) (m : Mod) : Mod :=
  sendBeats q clsReduction
    (packetBeats (bytesWords (leBytes 2 tag ++ [BitVec.ofNat 8 epoch, BitVec.ofNat 8 job])) words) m

/-! ## Symbols (R383, R387) -/

/-- Symbol types (R387). -/
abbrev symTick : Nat := 1
abbrev symReady : Nat := 2
abbrev symGo : Nat := 3
abbrev symSlip : Nat := 4
abbrev symFault : Nat := 5
abbrev symFail : Nat := 6
abbrev symAbandon : Nat := 7
abbrev symEchoReq : Nat := 8
abbrev symEchoReply : Nat := 9
abbrev symAck : Nat := 10
abbrev symNak : Nat := 11

/-- A port sends a symbol; one that is not UP, nor in TRAINING for echoes, sends none. -/
def sendSym (q type : Nat) (tag : BitVec 16) (seq arg : W32) (m : Mod) : Mod :=
  let st := (portOf m q).state
  if st = .up || (st = .training && (type == symEchoReq || type == symEchoReply)) then emit (.sym q type tag seq arg) m else m

/-- A port sends ECHO_REQ with its timestamp in sixteenths of a cycle (R387, R390). -/
def askEcho (q : Nat) (m : Mod) : Mod := sendSym q symEchoReq 0 0 (BitVec.ofNat 32 ((m.tick.toNat * 640 + m.phase) * 16)) m

/-- What a port receives waits while the fabric clock stands still (R477), and is given to its handler after the restart. -/
def whenClocked (i : Instr) (f : Mod → Mod) (m : Mod) : Mod :=
  if m.power.active then { m with stopped := m.stopped ++ [i] } else f m

/-- Does the fabric of a partition stand still: in an emergency stop (R23), or, for the decoupled classes, in an exchange stall (R232)? -/
def fabricHeld (m : Mod) (p : Nat) : Bool := m.power.active || (partOf m p).xphase == .stall

/-- Do the routers between a port and the rest of the module hold: in an emergency stop, or in a stall of the port's partition (R232)? -/
def portHeld (m : Mod) (q : Nat) : Bool := m.power.active || ((portOf m q).assigned && fabricHeld m (portOf m q).part)

/-- The same for what goes into the routers of the port's partition, which hold in a stall too (R232). -/
def whenMoving (q : Nat) (i : Instr) (f : Mod → Mod) (m : Mod) : Mod :=
  if portHeld m q then { m with stopped := m.stopped ++ [i] } else f m

/-- The receiver asks for a replay from a SEQ on (R379): it discards every later beat until that one comes again. -/
def sendNak (q seq : Nat) (m : Mod) : Mod :=
  sendSym q symNak 0 (BitVec.ofNat 32 seq) 0 (modPort q (fun p => { p with
    recvSeq := seq
    asm := mmapVals [] (fun _ (l : List (Nat × List W32)) => l.filter (fun b => decide (32768 ≤ (b.1 + 65536 - seq) % 65536))) p.asm }) m)

/-- A packet whose CRC-32C fails (R379): counted, and replayed from its first SEQ. -/
def crcFail (q seq : Nat) (m : Mod) : Mod := sendNak q seq (modPort q (fun p => { p with crcFails := satAdd 8 p.crcFails 1 }) m)

/-- Roles of FABRIC_ROLE. -/
abbrev rolePeer : Nat := 0
abbrev roleBoard : Nat := 1
abbrev roleMaster : Nat := 2

/-- Send a symbol upstream, if the module has an upstream (R383). -/
def sendUp (type : Nat) (tag : BitVec 16) (seq arg : W32) (m : Mod) : Mod :=
  if m.role = roleMaster || 50 < m.upstream then m else sendSym m.upstream type tag seq arg m

/-- The ports symbols go down to (R383): CHILDREN, and the Spar ports of a module that leads its board. -/
def downPorts (m : Mod) : List Nat := maskBits 48 m.children ++ (if m.role = rolePeer then [] else [48, 49, 50])

/-- Send a symbol downstream. -/
def sendDown (type : Nat) (tag : BitVec 16) (seq arg : W32) (m : Mod) : Mod :=
  (downPorts m).foldl (fun m q => sendSym q type tag seq arg m) m

end Sys2Proof.Machine
end

