-- ==== Sys2Proof/Machine/Sched.lean ====
section
/-! DEFINITION. The step schedule and readiness (R38 to R48, R383): the event that is due next, READY, decisions late. -/

namespace Sys2Proof.Machine

/-- Index of the current superstep in its step (R211). -/
def stepIndex (x : Part) : Nat := (x.superstep - x.stepFirst).toNat

/-- The next inter-module event of a step: the first exchange start or commit that has not happened. -/
def nextEvent (x : Part) : Option SchedEv := x.sched.find? (fun e => !e.done && (e.kind == .exchange || e.kind == .commit))

/-- The inter-module event of a step after that one. -/
def secondEvent (x : Part) : Option SchedEv := nth? (x.sched.filter (fun e => !e.done && (e.kind == .exchange || e.kind == .commit))) 1

/-- Superstep number of an event. -/
def eventSeq (x : Part) (e : SchedEv) : W32 := x.stepFirst + BitVec.ofNat 32 e.superstep

/-- The inter-module event that the next decision is for (R43): the one that is due next, or, once that has its GO, the one after it, whose
decision tick may come before it has happened (R51). -/
def decisionEvent (x : Part) : Option SchedEv :=
  match nextEvent x with
  | none => none
  | some e => if x.goFor ≠ some (eventSeq x e) then some e else if x.goNext = none then secondEvent x else none

/-- Does the tick receiver let the module take part in inter-module events (R35, R37)? The system master has no tick input. -/
def tickGood (m : Mod) : Bool := m.role == roleMaster || m.lock == .locked

/-- Have all READYs that this module waits for arrived (R383): from its children that carry the job, and, on a module that leads
its board, from its board peers (by the Bridle line for the Bridle partition, else on the Spar ports)? -/
def readyBelow (m : Mod) (p seq : Nat) : Bool :=
  let got (q : Nat) : Bool := (partOf m p).readyFrom.contains (seq, q)
  let mine (q : Nat) : Bool := (portOf m q).assigned && (portOf m q).part == p
  (maskBits 48 m.children).all (fun q => !mine q || got q) &&
    (m.role == rolePeer || (if m.bridleEnable && m.bridlePart == p then m.bridleDone else [48, 49, 50].all (fun q => !mine q || got q)))

/-- Send READY upstream once the local sync of the next event has closed and all below are ready (R42, R383); not in holdover
(R35), nor in an emergency stop (R49). On the system master the aggregate is noted. -/
def tryReady (p : Nat) (m : Mod) : Mod :=
  let x := partOf m p
  match nextEvent x with
  | none => m
  | some e =>
    if x.readySent || x.closedAt == none || stepIndex x ≠ e.superstep || !tickGood m || m.power.active ||
        !readyBelow m p (eventSeq x e).toNat then m
    else sendUp symReady x.tag (eventSeq x e) 0 (modPart p (fun x => { x with readySent := true }) m)

/-- READY is sent for every partition whose sync has closed while the module could not send it: in holdover (R35), or in an emergency
stop (R49). -/
def readyAll (m : Mod) : Mod := (List.range 8).foldl (fun m p => if (partOf m p).jstate = .running then tryReady p m else m) m

/-- Is another inter-module event due at the local sync of this superstep: the exchange start of a commit superstep (R51)? -/
def moreHere (x : Part) : Bool :=
  match nextEvent x with
  | some e => e.superstep == stepIndex x
  | none => false

/-- An inter-module event has begun: readiness starts anew for the next superstep that has one. READY names the superstep, so the
readiness of a commit superstep holds for its exchange start too, which has a decision of its own (R42, R43; log entry 53). -/
def clearReady (x : Part) : Part :=
  if moreHere x then { x with goFor := x.goNext, goNext := none }
  else { x with readySent := false, goFor := x.goNext, goNext := none, readyFrom := x.readyFrom.filter (fun r => r.1 ≠ x.superstep.toNat) }

/-- The event of a partition has begun: the Bridle line completes the next one. -/
def eventBegun (p : Nat) (m : Mod) : Mod :=
  let m := modPart p clearReady m
  if m.bridlePart = p && !moreHere (partOf m p) then { m with bridleDone := false } else m

/-- Mark the first event of a kind at a superstep index as having happened. -/
def markDone (k : SchedKind) (i : Nat) : List SchedEv → List SchedEv
  | [] => []
  | e :: r => if e.kind = k && e.superstep == i && !e.done then { e with done := true } :: r else e :: markDone k i r

/-- A decision-late event (R35, R47): a host event, and cause DECISION_LATE; once in an attempt. DETAIL 0x01 stands for a module in
holdover; R37 does not say what one in EXPIRED, or not yet aligned, raises at T_x: the same (DESIGN CHOICE, log entry 153). -/
def decisionLate (p : Nat) (m : Mod) : Mod :=
  let x := partOf m p
  if x.lateRaised then m
  else
    let detail := if tickGood m then 0 else 1
    signalModule p 0x0E detail (hostEvent 0x04 p 0xFFFF 4 0 (modPart p (fun x => { x with lateRaised := true }) m))

/-- Is the next event's tick here with no usable GO (R35, R47): none received, the module in holdover, or the sync not closed? -/
def eventLate (m : Mod) (p : Nat) : Bool :=
  let x := partOf m p
  match nextEvent x with
  | none => false
  | some e => tickReached m e.tick &&
      (x.goFor ≠ some (eventSeq x e) || !tickGood m || x.closedAt == none || stepIndex x ≠ e.superstep)

/-- Does an event have its GO? -/
def granted (x : Part) (e : SchedEv) : Bool := nextEvent x == some e && x.goFor == some (eventSeq x e)

/-- Does a slip of an event at tick T_x move an event: that one, or a later one (R44)? -/
def slips_ (x : Part) (tx : BitVec 48) (e : SchedEv) : Bool :=
  !e.done && (if e.kind == .exchange || e.kind == .commit then !granted x e else decide (0 < (e.tick - tx).toInt))

/-- A slip (R44): 16 ticks on the event that the decision is for and every later tick-bound event of the job, those of later steps
included. -/
def slipSchedule (x : Part) : Part :=
  match decisionEvent x with
  | none => x
  | some n => { x with
    slips := satAdd 16 x.slips 1
    slipTotal := satAdd 32 x.slipTotal 1
    slipShift := x.slipShift + 16
    sched := x.sched.map (fun e => if slips_ x n.tick e then { e with tick := e.tick + 16 } else e) }

/-- A GO for the event that the decision is for. -/
def takeGo (seq : W32) (x : Part) : Part :=
  match nextEvent x with
  | some e => if x.goFor = some (eventSeq x e) then { x with goNext := some seq } else { x with goFor := some seq }
  | none => x

/-- Shift every tick of the current step that is still to come, and the base of the steps that follow. -/
def shiftSchedule (by_ : BitVec 48) (x : Part) : Part :=
  { x with base := x.base + by_, sched := x.sched.map (fun e => if e.done then e else { e with tick := e.tick + by_ }) }

/-- The tick at which the next step begins: a step length after this one, moved by the slips (R40, R44). -/
def nextBase (x : Part) : BitVec 48 := x.base + BitVec.ofNat 48 (x.stepLen + x.slipShift)

/-- The scheduled tick of the next inter-module event (R56): once this step's have happened, the first of the next step's. -/
def nextExchangeTick (x : Part) : BitVec 48 :=
  match nextEvent x with
  | some e => e.tick
  | none => match x.sched.find? (fun e => e.kind == .exchange || e.kind == .commit) with
    | some e => nextBase x + BitVec.ofNat 48 e.offset
    | none => 0

/-- The schedule of a step that begins at a tick. -/
def armStep (base : BitVec 48) (x : Part) : Part :=
  { x with base := base, slipShift := 0, sched := x.sched.map (fun e => { e with tick := base + BitVec.ofNat 48 e.offset, done := false, chosen := none }) }

/-- The first tick that begins in or after a cycle. -/
def tickFrom (m : Mod) (c : Nat) : BitVec 48 := (tickAt m c).1 + (if (tickAt m c).2 = 0 then 0 else 1)

/-- The tick at which an event of a superstep boundary takes effect (R40, R49), and whether that is late: its own tick, or the first after
the boundary when that came later, or after the restart when its tick passed in an emergency stop. A boundary (or restart) in cycle 0
of a tick is taken in that tick: DESIGN CHOICE, log entry 118. -/
def boundaryTick (m : Mod) (p : Nat) (t : BitVec 48) : BitVec 48 × Bool :=
  let edge := (partOf m p).boundary + (partOf m p).lag
  if stoodAt m t then (tickFrom m (Nat.max edge (stoodNow m)), true)
  else if edge ≤ cycleOfTick m t then (t, false)
  else
    let t := tickFrom m edge
    (if stoodAt m t then tickFrom m (stoodNow m) else t, true)

/-- Hold the tiles of the halves of a mask at a superstep boundary until their clock event's tick (R40, R467): WAIT_CAUSE 0x3. A
tile that waits already keeps its wait. -/
def holdHalves (mask at_ : Nat) (m : Mod) : Mod :=
  ((maskBits 8 mask).flatMap tilesOfHalf).foldl (fun m t =>
    let d := tdOf m t
    if d.st = .running && !d.exiting && (tileOf m t).bundle == none then
      modTd t (fun d => { d with st := .waiting, wait := { kind := .tick, since := Nat.max d.nextIssue at_, pc := d.pc } }) m
    else m) m

/-- The clock events that govern the superstep of an index and have not happened. -/
def clockEvents (x : Part) : List SchedEv :=
  x.sched.filter (fun e => !e.done && (e.kind == .clockFixed || e.kind == .clockOptional) && e.superstep == stepIndex x)

/-- Is a tile held at the superstep boundary for a clock event of its half (R40, R467) or for a checkpoint (R441)? -/
def clockHeld (m : Mod) (t : Nat) : Bool :=
  match partOfTile m t with
  | some p =>
    let x := partOf m p
    x.jstate == .running && x.xphase == .compute && (x.heldForCkpt || (clockEvents x).any (fun e => bit e.mask (halfOf t)))
  | none => false

/-- At the boundary after the commit of a step to be saved, every tile waits for the checkpoint (R40, R441). -/
def holdForCkpt (p at_ : Nat) (m : Mod) : Mod :=
  match (partOf m p).ckpt with
  | some k => if k.due && !k.running then holdHalves (partOf m p).halves at_ (modPart p (fun x => { x with heldForCkpt := true }) m) else m
  | none => m

/-- At the start of a superstep, tiles of halves with a clock event wait for its tick. -/
def holdForClock (p at_ : Nat) (m : Mod) : Mod :=
  (clockEvents (partOf m p)).foldl (fun m e => holdHalves e.mask at_ m) m

end Sys2Proof.Machine
end

