-- ==== Sys2Proof/Machine/ChanOps.lean ====
section
/-! DEFINITION. Packets between modules and units, credits, circular regions (07 R192 to R197; 09 R250, R254, R258; 13 R382). -/

namespace Sys2Proof.Machine

/-! ## Leaving and crossing the module (R382, R386) -/

/-- The port of the forwarding entry of a module, if the entry is valid (R382, R394). -/
def forwardPort (m : Mod) (dest : Nat) : Option Nat :=
  let e := mget 0 m.fwd dest
  if bit e 15 && e % 64 ≤ 50 then some (e % 64) else none

/-- A packet or beat is dropped at a port (R382, R386): counted, and the step of the port's partition faults. -/
def routeDrop (q : Nat) (m : Mod) : Mod :=
  let m := { m with routeDrops := satAdd 32 m.routeDrops 1 }
  if (portOf m q).assigned then signalModule (portOf m q).part 0x08 q m else m

/-- May traffic of a job tag arrive at a port (R386)? -/
def portTakes (m : Mod) (q : Nat) (tag : BitVec 16) : Bool :=
  (portOf m q).assigned && partOfTag m tag.toNat == some (portOf m q).part

/-- Is a module number this module's? -/
def isHere (m : Mod) (n : Nat) : Bool := n == 0x3FFF || n == m.moduleNum

/-! ## Channel packets (R256, R258) -/

/-- A pool entry that becomes free keeps its counters (R122, R492). -/
def freeEp (e : Ep) : Ep :=
  { openings := e.openings, messages := e.messages, stall := e.stall, dropped := e.dropped, fullRet := e.fullRet, timeouts := e.timeouts, closedRet := e.closedRet }

/-- Does a packet of a kind go from a connection to an endpoint? -/
def pktForth (k : PktKind) : Bool :=
  match k with
  | .openReq | .close | .opq | .ring => true
  | .openReply | .closeNotice | .closeAck | .credit | .drop => false

/-- Does a packet go to the endpoint's module, or back to the connection's? -/
def pktDest (k : ChanPkt) : Nat :=
  match k.kind with
  | .openReq | .close | .opq | .ring => k.epModule
  | .openReply | .closeNotice | .closeAck | .credit | .drop => k.connModule

/-- Send a channel packet: within the module it is in flight until a cycle, else it leaves by a port. -/
def sendChan (port at_ : Nat) (k : ChanPkt) (m : Mod) : Mod :=
  if isHere m (pktDest k) then { m with flight := m.flight ++ [{ pkt := k, at_ }] }
  else sendChanLink port k m

/-- A packet that this module sends finds no port that carries its job (R382, R386): it is dropped, and the step of its partition faults. -/
def dropOutgoing (part : Option Nat) (q : Nat) (m : Mod) : Mod :=
  let m := { m with routeDrops := satAdd 32 m.routeDrops 1 }
  match part with
  | some p => signalModule p 0x08 q m
  | none => m

/-- Send a packet back to a connection: to another module by its forwarding entry, through a port assigned to the partition of its job
(R382, R386). -/
def sendBack (at_ : Nat) (k : ChanPkt) (m : Mod) : Mod :=
  if isHere m (pktDest k) then sendChan 63 at_ k m
  else match forwardPort m (pktDest k) with
    | some q => if portTakes m q k.jobTag then sendChan q at_ k m else dropOutgoing (partOfTag m k.jobTag.toNat) q m
    | none => dropOutgoing (partOfTag m k.jobTag.toNat) 0x3F m

/-- Are the seams that a tile's packets cross those of TP2 (R3, R209): by the profile of its job, or by the native one where its partition
holds none? -/
def shortSeams (m : Mod) (t : Nat) : Bool :=
  (match partOfTile m t with
    | some p => if (partOf m p).jstate = .none then m.native else (partOf m p).profile
    | none => m.native) == 2

/-- Uncontended travel of a packet between two tiles of the module, first beat at c + 3 (R258). -/
def pktTravel (m : Mod) (a b : Nat) : Nat :=
  6 + dist (globR a) (globR b) + dist (globC a) (globC b) + (if shortSeams m a then 3 else 4) * seamsBetween (globC a) (globC b)
    + 14 * (bridgeC (globC a) (globC b) + bridgeR (globR a) (globR b))

/-- The packet of a kind at an endpoint answering a connection. -/
def backPkt (kind : PktKind) (m : Mod) (ep connModule conn tgt amount code : Nat) : ChanPkt :=
  { kind, conn, connModule, ep, epModule := m.moduleNum, tgt, jobTag := BitVec.ofNat 16 (epOf m ep).tag, srcTile := (epOf m ep).owner
    amount, code, words := [] }

/-- The pool entry of a connection. -/
def connEntry (conn : Nat) : Nat := conn % 32768

/-- The connection that a pool entry holds: its number with that of its opening. -/
def connKey (m : Mod) (k : Nat) : Nat := k + 32768 * (epOf m k).openings

/-- Does its pool entry still hold a connection? -/
def connHeld (m : Mod) (conn : Nat) : Bool := connKey m (connEntry conn) == conn

/-- The tile that owns a connection of this module. -/
def connTile (m : Mod) (conn : Nat) : Nat := (epOf m (connEntry conn)).owner

/-- Cycle in which a packet sent by a tile in a cycle reaches another tile of the module. -/
def pktArrives (m : Mod) (from_ to_ c : Nat) : Nat := c + pktTravel m from_ to_

/-- Return units of credit for a message of a connection (R250): to the connection while it is attached, else to the endpoint's
unallocated quota (R247). -/
def returnCredit (ep connModule conn tgt units c : Nat) (m : Mod) : Mod :=
  let e := epOf m ep
  if e.conns.any (fun k => k.1 == connModule && k.2.1 == conn && k.2.2.1 == tgt) then
    sendBack (if isHere m connModule then pktArrives m e.owner (connTile m conn) c else c)
      (backPkt .credit m ep connModule conn tgt units 0) m
  else modEp ep (fun e => { e with credit := e.credit + units }) m

/-! ## Regions (R192 to R197) -/

/-- A region of a tile. -/
def regionOf (d : TileData) (g : Nat) : Region := mget {} d.regions g
/-- Change a region. -/
def modRegion (g : Nat) (f : Region → Region) (d : TileData) : TileData := { d with regions := mmod {} d.regions g f }
/-- SIZE (R192). -/
def Region.size (r : Region) : Nat := 128 * 2 ^ r.sizeLog2
/-- used = (TAIL − HEAD) mod 2^32 (R193). -/
def Region.used (r : Region) : Nat := (r.tail + 2 ^ 32 - r.head) % 2 ^ 32
/-- SIZE − used (R195). -/
def Region.room (r : Region) : Nat := r.size - r.used
/-- Byte address of count n (R193). -/
def Region.at (r : Region) (n : Nat) : Nat := r.base + n % r.size
/-- Words land in the ring from a count upward, wrapping (R193), through DW in a cycle. -/
def ringPuts (r : Region) (c n : Nat) : List W32 → TileData → TileData
  | [], d => d
  | w :: ws, d => ringPuts r c (n + 4) ws (spLand rankDW c (r.at n) w d)
/-- The byte addresses of k words of the ring from a count upward. -/
def ringAddrs (r : Region) (n k : Nat) : List Nat := (List.range k).map (fun i => r.at (n + 4 * i))

/-- The hardware side advances TAIL and writes its mirror word (R194), the cycle after its data. -/
def advanceTail (g c n : Nat) (d : TileData) : TileData :=
  let t := ((regionOf d g).tail + n) % 2 ^ 32
  let d := modRegion g (fun r => { r with tail := t, waitFrom := none }) d
  spLandLater rankDW (c + 1) ((regionOf d g).mirror + 4) (BitVec.ofNat 32 t) d

/-- The hardware side advances HEAD and writes its mirror word (R194), the cycle after its reads. -/
def advanceHead (g c n : Nat) (d : TileData) : TileData :=
  let h := ((regionOf d g).head + n) % 2 ^ 32
  let d := modRegion g (fun r => { r with head := h, waitFrom := none }) d
  spLandLater rankDW (c + 1) (regionOf d g).mirror (BitVec.ofNat 32 h) d

/-- The byte address of the program's pointer of a region (R193). -/
def Region.programWord (r : Region) : Nat := if r.attach = 3 then r.mirror + 4 else r.mirror

/-- Does HEAD, moved from `old` to `new`, pass the end of a record? -/
def headPasses (old new end_ : Nat) : Bool :=
  decide ((end_ + 2 ^ 32 - old) % 2 ^ 32 ≤ (new + 2 ^ 32 - old) % 2 ^ 32) && end_ != old

/-- The endpoint that lands in a region of a tile, if any. -/
def ringEndpoint (m : Mod) (t g : Nat) : Option Nat :=
  (m.pool.find? (fun e => e.2.kind = .ring && e.2.owner == t && e.2.region == g)).map (·.1)

/-- Credits of the ring records that the program's HEAD has passed (R250). -/
def passRecords (t g old new c : Nat) (m : Mod) : Mod :=
  match ringEndpoint m t g with
  | none => m
  | some k =>
    let gone := (epOf m k).recs.filter (fun r => headPasses old new r.1)
    let m := modEp k (fun e => { e with recs := e.recs.filter (fun r => !headPasses old new r.1) }) m
    gone.foldl (fun m r => returnCredit k r.2.2.1 r.2.2.2.1 r.2.2.2.2 r.2.1 c m) m

/-- A read of the scratchpad through DR for a decoupled unit: words that fail their parity are recorded, and the tile traps; the
words are delivered as read (R190). The table of R190 does not name the region controller's reads of mirror words: they are taken as those
of the unit it reads for, with port 0b101 (DESIGN CHOICE, log entry 128). A bundle in progress issues before its tile traps. -/
def drParity (t : Nat) (addrs : List Nat) (m : Mod) : Mod :=
  match spFails (tdOf m t) addrs with
  | [] => m
  | a :: r =>
    if (tileOf m t).bundle.isSome then
      modTd t (fun d => { d with
        faultsDue := dueInsert ⟨d.pc, 0, trapScratchParity, a, Nat.max d.nextIssue (nowOf m t), portDR, a :: r⟩ d.faultsDue }) m
    else trapLanding t 0 trapScratchParity a (modTd t (spRecord (nowOf m t) portDR (a :: r)) m)

/-- An invalid pointer counts and fails the step (R196), once for each store: a later read of the same word does nothing more. -/
def badPointer (t g : Nat) (m : Mod) : Mod :=
  if (regionOf (tdOf m t) g).badSeen then m
  else signalTile t 0x0C g (m.tick, m.phase)
    (modTd t (modRegion g (fun r => { r with badPtr := satAdd 16 r.badPtr 1, badEvent := true, badAt := nowOf m t + 1, badSeen := true })) m)

/-- The hardware side re-reads the program's mirror word of a region (R195, R196): a valid pointer is taken, an invalid one counts
and fails the step; one that does not move has no effect. -/
def rereadMirror (t g c : Nat) (m : Mod) : Mod :=
  let d := tdOf m t
  let r := regionOf d g
  match r.attach with
  | 0 => m
  | 3 =>
    let a := r.mirror + 4
    let v := (spWord d a).toNat
    let m := drParity t [a] m
    if v = r.tail then m
    else if (v + 2 ^ 32 - r.tail) % 2 ^ 32 ≤ r.room then modTd t (modRegion g (fun r => { r with tail := v })) m
    else badPointer t g m
  | _ =>
    let v := (spWord d r.mirror).toNat
    let m := drParity t [r.mirror] m
    if v = r.head then m
    else if (v + 2 ^ 32 - r.head) % 2 ^ 32 ≤ r.used then
      passRecords t g r.head v c (modTd t (modRegion g (fun r => { r with head := v })) m)
    else badPointer t g m

/-- What the stores of a bundle, by their byte addresses, mean for the regions of the tile (R196, R250): a new value stands in a program's
mirror word, and the channel interface follows the HEAD of each ring at once (log entry 27). -/
def followHeads (t c : Nat) (stores : List Nat) (m : Mod) : Mod :=
  (tdOf m t).regions.foldl (fun m e =>
    if e.2.attach != 0 && stores.contains e.2.programWord then
      let m := modTd t (modRegion e.1 (fun r => { r with badSeen := false })) m
      if e.2.attach = 2 then rereadMirror t e.1 c m else m
    else m) m

/-- Does the hardware side of a region lack n bytes: of data where it consumes, else of room (R195)? -/
def Region.lacks (r : Region) (n : Nat) : Bool := if r.attach = 3 then decide (r.used < n) else decide (r.room < n)

/-- The hardware side of a region needs n bytes: where it lacks them, it reads the program's pointer at once, and, if the lack remains,
waits and reads it again every 16 cycles (R195; the row MIRROR_REREAD). -/
def seekRoom (t g c n : Nat) (m : Mod) : Mod :=
  let r := regionOf (tdOf m t) g
  if !r.lacks n || r.waitFrom != none then m
  else
    let m := rereadMirror t g c m
    if (regionOf (tdOf m t) g).lacks n then modTd t (modRegion g (fun r => { r with waitFrom := some c, waitNeed := n })) m else m

end Sys2Proof.Machine
end

