-- ==== Sys2Proof/Machine/Flags.lean ====
section
/-! DEFINITION. Conditions and predicates (R59, R106), and the counters of non-finite results (R118 to R122). The machine has no
flag register: its predicates and counters are what other hardware keeps in flags. -/

namespace Sys2Proof.Machine

/-- An integer condition (R106, codes 0x00 to 0x05). -/
def condInt (c : Nat) (a b : W32) : Bool :=
  match c with
  | 0 => a == b
  | 1 => a != b
  | 2 => a.slt b
  | 3 => !a.slt b
  | 4 => a.ult b
  | _ => !a.ult b

/-- Is an FP32 word a NaN? -/
def f32IsNan (a : W32) : Bool := 0x7F800000 < a.toNat % 2 ^ 31
/-- Is an FP32 word an infinity? -/
def f32IsInf (a : W32) : Bool := a.toNat % 2 ^ 31 == 0x7F800000
/-- Is an FP32 word a zero? -/
def f32IsZero (a : W32) : Bool := a.toNat % 2 ^ 31 == 0
/-- Sign bit of an FP32 word. -/
def f32Neg (a : W32) : Bool := a.getLsbD 31

/-- A number that orders the non-NaN FP32 words by value, −0 and +0 equal. -/
def f32Key (a : W32) : Int := if f32Neg a then -((a.toNat % 2 ^ 31 : Nat) : Int) else ((a.toNat % 2 ^ 31 : Nat) : Int)

/-- A floating condition (R106, codes 0x08 to 0x0C). -/
def condFloat (c : Nat) (a b : W32) : Bool :=
  let un := f32IsNan a || f32IsNan b
  match c with
  | 0x08 => !un && f32Key a == f32Key b
  | 0x09 => un || f32Key a != f32Key b
  | 0x0A => !un && decide (f32Key a < f32Key b)
  | 0x0B => !un && decide (f32Key a ≤ f32Key b)
  | _ => un

/-- A condition of CMP or VCMP (R106). -/
def cond (c : Nat) (a b : W32) : Bool := if c ≤ 5 then condInt c a b else condFloat c a b

/-- One bit in all 32 bits of a predicate (R59). -/
def spread (b : Bool) : W32 := if b then BitVec.allOnes 32 else 0

/-- A predicate operation (03 Predicate operation encoding). -/
def predOp (fn : Nat) (a b : W32) : W32 :=
  match fn with
  | 0 => a &&& b
  | 1 => a ||| b
  | 2 => a ^^^ b
  | 3 => a &&& ~~~b
  | 4 => spread (a != 0)
  | 5 => spread (a == BitVec.allOnes 32)
  | 6 => BitVec.allOnes 32
  | _ => 0

/-- The class of a result (R118); the numbers are those of KIND (04 Non-finite kind encoding). -/
inductive Kind where
  | finite | invalid | overflow | divzero | propagated
  deriving DecidableEq, Repr

/-- KIND of a class. -/
def kindNo : Kind → Nat
  | .finite => 0
  | .invalid => 1
  | .overflow => 2
  | .divzero => 3
  | .propagated => 4

/-- Count the non-finite results of one instruction in a cycle, given as (lane, class) from the lowest lane, and capture the first
(R118 to R122); FREEZE holds the counters and the capture. -/
def countKinds (at_ : Nat) (sup : W32) (pc op : Nat) (ks : List (Nat × Kind)) (d : TileData) : TileData :=
  let nf := ks.filter (fun x => x.2 ≠ .finite)
  if d.nfFreeze then d
  else match nf with
    | [] => d
    | (lane, k) :: _ =>
      let n (q : Kind) : Nat := (nf.filter (fun x => x.2 = q)).length
      { d with
        nfResults := (d.nfResults + nf.length) % 2 ^ 64
        nfInvalid := (d.nfInvalid + n .invalid) % 2 ^ 64
        nfOverflow := (d.nfOverflow + n .overflow) % 2 ^ 64
        nfDivzero := (d.nfDivzero + n .divzero) % 2 ^ 64
        nfFirst := noteFirst at_ [sup.toNat, pc, lane, kindNo k, op] d.nfFirst }

/-- Count conversions of a destination format n (R144, R145): conversions, overflows, vanishes; each saturates. -/
def countConv (n conv ovf van : Nat) (d : TileData) : TileData :=
  if d.cvFreeze then d
  else
    let add (k v : Nat) (c : SMap Nat) : SMap Nat := mmod 0 c k (fun x => satAdd 64 x v)
    { d with cv := add (3 * (n - 1)) conv (add (3 * (n - 1) + 1) ovf (add (3 * (n - 1) + 2) van d.cv)) }

end Sys2Proof.Machine
end

