-- ==== Sys2Proof/Machine/Fp.lean ====
section
/-! DEFINITION. Exact binary floating point with one rounding to nearest, ties to even (R99 to R101, R125 to R127): values as
sign, integer and power of two; rounding onto any of the floating grids; FP32 results and their classes. -/

namespace Sys2Proof.Machine

/-- Round n / 2^k to nearest, ties to even. -/
def rneShift (n k : Nat) : Nat :=
  let q := n >>> k
  let r := n % 2 ^ k
  if 2 * r < 2 ^ k then q
  else if 2 ^ k < 2 * r then q + 1
  else if k = 0 then q else q + q % 2

/-- Round an integer times 2^e to an integer, ties to even. -/
def rneInt (i : Int) (e : Int) : Int :=
  if 0 ≤ e then i * (2 ^ e.toNat : Nat)
  else
    let m : Int := (rneShift i.natAbs (-e).toNat : Nat)
    if i < 0 then -m else m

/-- The code of m × 2^e rounded onto the grid with M mantissa bits and smallest step 2^qmin, as if the exponent field had no
end (R134): the step is that of the binade, and not below 2^qmin. -/
def roundMag (mbits : Nat) (qmin : Int) (m : Nat) (e : Int) : Nat :=
  if m = 0 then 0
  else
    let q := max ((m.log2 : Int) + e - mbits) qmin
    let k := if q ≤ e then m <<< (e - q).toNat else rneShift m (q - e).toNat
    ((q - qmin).toNat <<< mbits) + k

/-- A value of a floating format. -/
inductive FVal where
  | nan
  | inf (neg : Bool)
  | fin (neg : Bool) (m : Nat) (e : Int)
  deriving DecidableEq, Repr

/-- Canonical NaN of FP32 (R101). -/
def f32Nan : W32 := 0x7FC00000
/-- An FP32 infinity. -/
def f32Inf (neg : Bool) : W32 := if neg then 0xFF800000 else 0x7F800000
/-- An FP32 zero. -/
def f32Zero (neg : Bool) : W32 := if neg then 0x80000000 else 0

/-- Value of a code with E exponent bits, M mantissa bits and a bias, infinities and NaNs apart (R126): magnitude. -/
def codeMag (mbits bias code : Nat) : Nat × Int :=
  let e := code >>> mbits
  let f := code % 2 ^ mbits
  if e = 0 then (f, 1 - (bias : Int) - mbits) else (2 ^ mbits + f, (e : Int) - bias - mbits)

/-- Value of an FP32 word (R126, R127). -/
def f32Val (a : W32) : FVal :=
  if f32IsNan a then .nan
  else if f32IsInf a then .inf (f32Neg a)
  else let p := codeMag 23 127 (a.toNat % 2 ^ 31); .fin (f32Neg a) p.1 p.2

/-- FP32 of ± m × 2^e, rounded once; an infinity on overflow (R100). -/
def f32Round (neg : Bool) (m : Nat) (e : Int) : W32 :=
  let c := roundMag 23 (-149) m e
  let c := if 0x7F800000 ≤ c then 0x7F800000 else c
  BitVec.ofNat 32 (c + if neg then 2 ^ 31 else 0)

/-- FP32 of an exact integer times 2^e that is not zero, rounded once. -/
def f32OfInt (i : Int) (e : Int) : W32 := f32Round (decide (i < 0)) i.natAbs e

/-- ± m × 2^e as an integer multiple of 2^e0, for e0 ≤ e. -/
def termAt (e0 : Int) (neg : Bool) (m : Nat) (e : Int) : Int :=
  let v : Int := ((m <<< (e - e0).toNat : Nat) : Int)
  if neg then -v else v

/-- The finite terms of a list. -/
def finTerms : List FVal → List (Bool × Nat × Int)
  | [] => []
  | .fin n m e :: r => (n, m, e) :: finTerms r
  | _ :: r => finTerms r

/-- The exact sum of finite terms rounded once; a zero sum is −0 only if every term is a zero of negative sign (R108). -/
def sumFin (ts : List (Bool × Nat × Int)) : W32 :=
  let e0 := ts.foldl (fun a t => min a t.2.2) 0
  let i := ts.foldl (fun a t => a + termAt e0 t.1 t.2.1 t.2.2) (0 : Int)
  if i = 0 then f32Zero (ts.all (fun t => t.1 && t.2.1 == 0)) else f32OfInt i e0

/-- A sum of terms with the cases of R107, R111 and R116: NaN first, opposite infinities, an infinity, the exact sum. -/
def sumVals (ts : List FVal) : W32 :=
  if ts.any (· == .nan) then f32Nan
  else
    let pos := ts.any (· == .inf false)
    let neg := ts.any (· == .inf true)
    if pos && neg then f32Nan
    else if pos then f32Inf false
    else if neg then f32Inf true
    else sumFin (finTerms ts)

/-- The exact product of two values; zero times infinity is NaN (R109, R111). -/
def mulVal : FVal → FVal → FVal
  | .nan, _ => .nan
  | _, .nan => .nan
  | .inf s, .inf t => .inf (s != t)
  | .inf s, .fin t m _ => if m = 0 then .nan else .inf (s != t)
  | .fin s m _, .inf t => if m = 0 then .nan else .inf (s != t)
  | .fin s m e, .fin t n f => .fin (s != t) (m * n) (e + f)

/-- FP32 of one value, rounded once; the sign of a zero is kept. -/
def f32OfVal : FVal → W32
  | .nan => f32Nan
  | .inf s => f32Inf s
  | .fin s m e => if m = 0 then f32Zero s else f32Round s m e

/-- The negated FP32 word, bit for bit. -/
def f32Negate (a : W32) : W32 := a ^^^ 0x80000000

/-- VFADD (R107). -/
def fAdd (a b : W32) : W32 := sumVals [f32Val a, f32Val b]
/-- VFSUB (R107): a + (−b). -/
def fSub (a b : W32) : W32 := sumVals [f32Val a, f32Val (f32Negate b)]
/-- VFMUL (R109). -/
def fMul (a b : W32) : W32 := f32OfVal (mulVal (f32Val a) (f32Val b))
/-- VFMA (R110, R111): a × b + c with one rounding. -/
def fFma (a b c : W32) : W32 :=
  let p := mulVal (f32Val a) (f32Val b)
  if f32IsNan a || f32IsNan b || f32IsNan c then f32Nan else sumVals [p, f32Val c]

/-- A number that orders FP32 words by value with −0 below +0 (R112). -/
def f32Ord (a : W32) : Int := if f32Neg a then -((a.toNat % 2 ^ 31 : Nat) : Int) - 1 else ((a.toNat % 2 ^ 31 : Nat) : Int)
/-- VFMIN (R112). -/
def fMin (a b : W32) : W32 :=
  if f32IsNan a || f32IsNan b then f32Nan else if f32Ord b < f32Ord a then b else a
/-- VFMAX (R112). -/
def fMax (a b : W32) : W32 :=
  if f32IsNan a || f32IsNan b then f32Nan else if f32Ord a < f32Ord b then b else a

/-- The class of a result from its operands (R118). -/
def classify (ops : List W32) (res : W32) (zeroDiv : Bool) : Kind :=
  if f32IsNan res then (if ops.any f32IsNan then .propagated else .invalid)
  else if f32IsInf res then
    if ops.any (fun a => f32IsNan a || f32IsInf a) then .propagated else if zeroDiv then .divzero else .overflow
  else .finite

/-! ## Special functions (R113, R114) -/

/-- Newton's iteration for a square root from above. -/
def isqrtGo : Nat → Nat → Nat → Nat
  | 0, _, x => x
  | f + 1, n, x =>
    let y := (x + n / x) / 2
    if y < x then isqrtGo f n y else x

/-- The integer square root. -/
def isqrt (n : Nat) : Nat := if n = 0 then 0 else isqrtGo 64 n (2 ^ (n.log2 / 2 + 1))

/-- FP32 of a positive real in [m, m + 1) × 2^e, exactly m × 2^e unless `more`, m having 30 bits or more: a bit below
the last stands for what is not zero beyond it. -/
def f32Sticky (neg : Bool) (m : Nat) (more : Bool) (e : Int) : W32 := f32Round neg (2 * m + b2n more) (e - 1)

/-- VRCP (R114). -/
def fRcp (a : W32) : W32 :=
  match f32Val a with
  | .nan => f32Nan
  | .inf s => f32Zero s
  | .fin s m e =>
    if m = 0 then f32Inf s
    else f32Sticky s (2 ^ 80 / m) (2 ^ 80 % m != 0) (-80 - e)

/-- VRSQ (R114). -/
def fRsq (a : W32) : W32 :=
  match f32Val a with
  | .nan => f32Nan
  | .inf s => if s then f32Nan else 0
  | .fin s m e =>
    if m = 0 then f32Inf s
    else if s then f32Nan
    else
      -- make the exponent even: x = m' × 4^h
      let odd := e % 2 != 0
      let m' := if odd then 2 * m else m
      let h := if odd then (e - 1) / 2 else e / 2
      let r := isqrt (2 ^ 160 / m')
      f32Sticky false r (r * r * m' != 2 ^ 160) (-80 - h)

/-- Working precision of VEXP2 in bits. -/
abbrev expPrec : Nat := 320

/-- The product of 2^(2^−i) over the ones of a fraction, whose bits below the point are given from the highest: `root` is
2^(2^−i) and `acc` the product so far, both with `expPrec` bits below the point. -/
def exp2Frac : List Bool → Nat → Nat → Nat
  | [], _, acc => acc
  | b :: r, root, acc => exp2Frac r (isqrt (root <<< expPrec)) (if b then (acc * root) >>> expPrec else acc)

/-- VEXP2 (R114): 2^x = 2^n × 2^f with f in [0, 1). A non-integer x gives an irrational value, so one bit below the computed
ones stands for the rest (log entry 22). -/
def fExp2 (a : W32) : W32 :=
  match f32Val a with
  | .nan => f32Nan
  | .inf s => if s then 0 else f32Inf false
  | .fin s m e =>
    if m = 0 then 0x3F800000
    else
      let i := termAt (-149) s m e
      if i ≥ 128 * (2 ^ 149 : Nat) then f32Inf false
      else if i ≤ -150 * (2 ^ 149 : Nat) then 0
      else
        let n := i / (2 ^ 149 : Nat)
        let f := (i % (2 ^ 149 : Nat)).toNat
        if f = 0 then f32Round false 1 n
        else
          let fbits := ((List.range 149).map (fun k => bit f (148 - k)))
          f32Sticky false (exp2Frac fbits (isqrt (2 <<< (2 * expPrec))) (1 <<< expPrec)) true (n - expPrec)

/-- Working precision of VLOG2 in bits, and how many bits of the logarithm it forms. -/
abbrev logPrec : Nat := 480
abbrev logDigits : Nat := 200

/-- The bits of log2 of y in [1, 2), by squaring. -/
def log2Frac : Nat → Nat → Nat → Nat
  | 0, _, acc => acc
  | k + 1, y, acc =>
    let z := (y * y) >>> logPrec
    if 2 ^ (logPrec + 1) ≤ z then log2Frac k (z >>> 1) (2 * acc + 1) else log2Frac k z (2 * acc)

/-- VLOG2 (R114). A positive finite x other than a power of two has an irrational logarithm (log entry 22). -/
def fLog2 (a : W32) : W32 :=
  match f32Val a with
  | .nan => f32Nan
  | .inf s => if s then f32Nan else f32Inf false
  | .fin s m e =>
    if m = 0 then f32Inf true
    else if s then f32Nan
    else
      let n : Int := (m.log2 : Int) + e
      if m = 2 ^ m.log2 then (if n = 0 then 0 else f32OfInt n 0)
      else
        let frac := log2Frac logDigits (m <<< (logPrec - m.log2)) 0
        let i : Int := n * (2 ^ logDigits : Nat) + frac
        if 0 ≤ i then f32Sticky false i.toNat true (-logDigits) else f32Sticky true (-i - 1).toNat true (-logDigits)

end Sys2Proof.Machine
end

