-- ==== Sys2Proof/Machine/Formats.lean ====
section
/-! DEFINITION. The number formats and the conversions between them: VCVT codes, MX blocks, conversion events, EW16 elements (05). -/

namespace Sys2Proof.Machine

/-- A narrow floating element type (R125): width, mantissa bits, bias, code of the largest finite magnitude, whether it has
infinities, its NaN (none where it has none), and the EMAX of R133. -/
structure ElemFmt where
  width : Nat
  mbits : Nat
  bias : Nat
  maxMag : Nat
  infMag : Option Nat
  nanMag : Option Nat
  emax : Int

/-- FP16, BF16, E4M3, E5M2, E2M3 and E2M1 (R125, R127). -/
def fmtFP16 : ElemFmt := ⟨16, 10, 15, 0x7BFF, some 0x7C00, some 0x7E00, 15⟩
def fmtBF16 : ElemFmt := ⟨16, 7, 127, 0x7F7F, some 0x7F80, some 0x7FC0, 127⟩
def fmtE4M3 : ElemFmt := ⟨8, 3, 7, 0x7E, none, some 0x7F, 8⟩
def fmtE5M2 : ElemFmt := ⟨8, 2, 15, 0x7B, some 0x7C, some 0x7E, 15⟩
def fmtE2M3 : ElemFmt := ⟨6, 3, 1, 0x1F, none, none, 2⟩
def fmtE2M1 : ElemFmt := ⟨4, 1, 1, 0x7, none, none, 2⟩

/-- Exponent of the smallest step of a format. -/
def ElemFmt.qmin (f : ElemFmt) : Int := 1 - (f.bias : Int) - f.mbits
/-- The sign bit of a format in place. -/
def ElemFmt.signBit (f : ElemFmt) (neg : Bool) : Nat := if neg then 2 ^ (f.width - 1) else 0

/-- The value of an element code (R126). Magnitudes above the largest finite are an infinity or NaN where the format has them. -/
def elemVal (f : ElemFmt) (code : Nat) : FVal :=
  let neg := bit code (f.width - 1)
  let mag := code % 2 ^ (f.width - 1)
  if mag ≤ f.maxMag then let p := codeMag f.mbits f.bias mag; .fin neg p.1 p.2
  else if f.infMag = some mag then .inf neg else .nan

/-- A converted element: its code, whether it is a conversion overflow and a vanish (R144), and its class (R118, R119). -/
structure Conv where
  code : Nat
  ovf : Bool
  van : Bool
  kind : Kind
  deriving DecidableEq, Repr

/-- What a finite source beyond range becomes: FP16 and BF16 go to infinity, E4M3 and E5M2 to the largest finite (R138). -/
def overCode (f : ElemFmt) : Nat := if f.width = 16 then f.infMag.getD f.maxMag else f.maxMag

/-- A narrowing conversion of FP32 (R138). -/
def narrow (f : ElemFmt) (x : W32) : Conv :=
  match f32Val x with
  | .nan => ⟨f.nanMag.getD 0, false, false, .propagated⟩
  | .inf s =>
    match f.infMag with
    | some i => ⟨i + f.signBit s, false, false, .propagated⟩
    | none => ⟨f.nanMag.getD 0, false, false, .invalid⟩
  | .fin s m e =>
    let c := roundMag f.mbits f.qmin m e
    if f.maxMag < c then
      ⟨overCode f + f.signBit s, true, false, if f.infMag = some (overCode f) then .overflow else .finite⟩
    else ⟨c + f.signBit s, false, c == 0 && m != 0, .finite⟩

/-- Byte of an integer limited to −127 to 127, and whether the limit acted (R129, R134, R138). -/
def limit127 (q : Int) : Nat × Bool :=
  if 127 < q then (127, true) else if q < -127 then (129, true) else (lowBits 8 q, false)

/-- F32_I8 (R138): no non-finite result. -/
def narrowI8 (x : W32) : Conv :=
  match f32Val x with
  | .nan => ⟨0, true, false, .finite⟩
  | .inf s => ⟨if s then 129 else 127, true, false, .finite⟩
  | .fin s m e =>
    let q := rneInt (if s then -(m : Int) else m) e
    let b := limit127 q
    ⟨b.1, b.2, b.1 == 0 && m != 0, .finite⟩

/-- A widening conversion (R139), exact. -/
def widen (f : ElemFmt) (code : Nat) : Conv :=
  match elemVal f code with
  | .nan => ⟨f32Nan.toNat, false, false, .propagated⟩
  | .inf s => ⟨(f32Inf s).toNat, false, false, .propagated⟩
  | v => ⟨(f32OfVal v).toNat, false, false, .finite⟩

/-- FP32 of an integer, rounded once. -/
def f32OfSmall (q : Int) : W32 := if q = 0 then 0 else f32OfInt q 0

/-- I8_F32 (R129, R139): the integer. -/
def widenI8 (code : Nat) : Conv := ⟨(f32OfSmall (signed 8 code)).toNat, false, false, .finite⟩

/-! ## MX blocks (R131 to R134, R140) -/

/-- Element types of MX blocks: the floating ones, and MXINT8. -/
inductive MxElem where
  | fp (f : ElemFmt)
  | int8

/-- Width of an element. -/
def MxElem.width : MxElem → Nat
  | .fp f => f.width
  | .int8 => 8
/-- EMAX (R133). -/
def MxElem.emax : MxElem → Int
  | .fp f => f.emax
  | .int8 => 0

/-- round_element of ± m × 2^e (R134): code, limited, vanished. -/
def roundElem (el : MxElem) (neg : Bool) (m : Nat) (e : Int) : Nat × Bool × Bool :=
  match el with
  | .fp f =>
    let c := roundMag f.mbits f.qmin m e
    if f.maxMag < c then (f.maxMag + f.signBit neg, true, false) else (c + f.signBit neg, false, c == 0 && m != 0)
  | .int8 =>
    let b := limit127 (rneInt (if neg then -(m : Int) else m) (e + 6))
    (b.1, b.2, b.1 == 0 && m != 0)

/-- The encoded block of the participating values (R133): scale byte and one conversion for each value. -/
def mxEncode (el : MxElem) (xs : List W32) : Nat × List Conv :=
  let nan := xs.any f32IsNan
  if nan || xs.any f32IsInf then (0xFF, xs.map (fun _ => ⟨0, false, false, if nan then .propagated else .invalid⟩))
  else
    let amax := xs.foldl (fun a x => Nat.max a (x.toNat % 2 ^ 31)) 0
    let p := codeMag 23 127 amax
    let se : Int := if amax = 0 then -127 else (p.1.log2 : Int) + p.2 - el.emax
    let se := min (max se (-127)) 127
    ((se + 127).toNat, xs.map (fun x =>
      let q := codeMag 23 127 (x.toNat % 2 ^ 31)
      let r := roundElem el (f32Neg x) q.1 (q.2 - se)
      ⟨r.1, r.2.1, r.2.2, .finite⟩))

/-- One decoded element (R140). -/
def mxDecode (el : MxElem) (code scale : Nat) : Conv :=
  if scale = 0xFF then ⟨f32Nan.toNat, false, false, .propagated⟩
  else
    let v := match el with
      | .fp f => elemVal f code
      | .int8 => let q := signed 8 code; .fin (decide (q < 0)) q.natAbs (-6)
    match v with
    | .nan => ⟨f32Nan.toNat, false, false, .propagated⟩
    | .inf s => ⟨(f32Inf s).toNat, false, false, .propagated⟩
    | .fin s m e =>
      let r := f32OfVal (.fin s m (e + scale - 127))
      -- MXINT8 has no negative zero (R129)
      if f32IsInf r then ⟨r.toNat, true, false, .overflow⟩ else ⟨r.toNat, false, false, .finite⟩

/-! ## VCVT (R135 to R141) -/

/-- The conversions of the table Conversion codes. -/
inductive Cvt where
  | narrowTo (f : ElemFmt)
  | narrowI8
  | widenFrom (f : ElemFmt)
  | widenI8
  | enc (el : MxElem)
  | dec (el : MxElem)

/-- The conversion a CODE names, with its largest PART and the number of its destination format (R124, R135, R144). -/
def cvtOf (code : Nat) : Option (Cvt × Nat × Nat) :=
  match code with
  | 0x00 => some (.narrowTo fmtFP16, 1, 2)
  | 0x01 => some (.narrowTo fmtBF16, 1, 3)
  | 0x02 => some (.narrowTo fmtE4M3, 3, 4)
  | 0x03 => some (.narrowTo fmtE5M2, 3, 5)
  | 0x04 => some (.narrowI8, 3, 10)
  | 0x08 => some (.widenFrom fmtFP16, 1, 1)
  | 0x09 => some (.widenFrom fmtBF16, 1, 1)
  | 0x0A => some (.widenFrom fmtE4M3, 3, 1)
  | 0x0B => some (.widenFrom fmtE5M2, 3, 1)
  | 0x0C => some (.widenI8, 3, 1)
  | 0x10 => some (.enc (.fp fmtE4M3), 0, 6)
  | 0x11 => some (.enc (.fp fmtE5M2), 0, 6)
  | 0x12 => some (.enc (.fp fmtE2M3), 0, 7)
  | 0x13 => some (.enc (.fp fmtE2M1), 0, 8)
  | 0x14 => some (.enc .int8, 0, 9)
  | 0x18 => some (.dec (.fp fmtE4M3), 0, 1)
  | 0x19 => some (.dec (.fp fmtE5M2), 0, 1)
  | 0x1A => some (.dec (.fp fmtE2M3), 0, 1)
  | 0x1B => some (.dec (.fp fmtE2M1), 0, 1)
  | 0x1C => some (.dec .int8, 0, 1)
  | _ => none

/-- Is a VCVT FN defined? (R135) -/
def cvtOk (fn : Nat) : Bool :=
  match cvtOf (fn % 32) with
  | some (_, part, _) => fn / 32 ≤ part
  | none => false

/-- A register as one number, lane 0 least significant. -/
def regNat (l : List W32) : Nat := wordsNat l
/-- Replace `w` bits at `lo` of a number. -/
def putBits (v lo w x : Nat) : Nat := v - (bits v (lo + w - 1) lo <<< lo) + ((x % 2 ^ w) <<< lo)

/-- Where element i of a narrow part stands (R136): 16-bit parts hold 32 elements in 16 lanes, 8-bit parts in 8 lanes. -/
def partLo (width part i : Nat) : Nat := part * 32 * width + i * width

/-- A VCVT over the enabled lanes: the new vd as a number, and the conversion of each enabled lane. -/
def cvtRun (c : Cvt) (part : Nat) (va vd : List W32) (lanes : List Nat) : Nat × List (Nat × Conv) :=
  let a := regNat va
  let lane (i : Nat) : W32 := nth 0 va i
  let place (w : Nat) (lo : Nat → Nat) (l : List (Nat × Conv)) (v : Nat) : Nat :=
    l.foldl (fun v x => putBits v (lo x.1) w x.2.code) v
  let old := regNat vd
  match c with
  | .narrowTo f =>
    let l := lanes.map (fun i => (i, narrow f (lane i)))
    (place f.width (partLo f.width part) l old, l)
  | .narrowI8 =>
    let l := lanes.map (fun i => (i, narrowI8 (lane i)))
    (place 8 (partLo 8 part) l old, l)
  | .widenFrom f =>
    let l := lanes.map (fun i => (i, widen f (bits a (partLo f.width part i + f.width - 1) (partLo f.width part i))))
    (place 32 (32 * ·) l old, l)
  | .widenI8 =>
    let l := lanes.map (fun i => (i, widenI8 (bits a (partLo 8 part i + 7) (partLo 8 part i))))
    (place 32 (32 * ·) l old, l)
  | .enc el =>
    let r := mxEncode el (lanes.map lane)
    let l := lanes.zip r.2
    (putBits (place el.width (· * el.width) l old) (31 * 32) 8 r.1, l)
  | .dec el =>
    let s := bits a (31 * 32 + 7) (31 * 32)
    let l := lanes.map (fun i => (i, mxDecode el (bits a (i * el.width + el.width - 1) (i * el.width)) s))
    (place 32 (32 * ·) l old, l)

/-- Count the conversions of a list under a destination format (R144). -/
def countConvs (n : Nat) (l : List Conv) (d : TileData) : TileData :=
  countConv n l.length (l.filter (·.ovf)).length (l.filter (·.van)).length d

/-! ## EW16 (R148 to R151) -/

/-- RNE of an exact integer times 2^e at least significant bit L (R149). -/
def quantise (lsb : Int) (i : Int) (e : Int) : Int := rneInt i (e - lsb)

/-- Does an integer fit in n limbs? (R148) -/
def fitsLimbs (n : Nat) (i : Int) : Bool := decide (-(2 ^ (16 * n - 1) : Nat) ≤ i) && decide (i < (2 ^ (16 * n - 1) : Nat))

/-- FP32 of N × 2^L, rounded once; an infinity beyond the range (R151). -/
def ew16ToF32 (i : Int) (lsb : Int) : W32 := if i = 0 then 0 else f32OfInt i lsb

end Sys2Proof.Machine
end

