-- ==== Sys2Proof/Machine/Wgb.lean ====
section
/-! DEFINITION. The weight-gradient buffer: its blocks, the add of MWGB, reading and clearing by exports, the EMPTY state
(R305 to R311). -/

namespace Sys2Proof.Machine

/-- Words of a block: 1,024 in FP32 mode, 2,048 in EXACT mode (R305). -/
def wgbBlockWords (exact : Bool) : Nat := if exact then 2048 else 1024
/-- Block of a WGB word. -/
def wgbBlockOf (d : TileData) (w : Nat) : Nat := w / wgbBlockWords d.wgbExact
/-- Beats (64 bytes) of a block. -/
def wgbBeatsOf (d : TileData) (blk : Nat) : List Nat :=
  let n := wgbBlockWords d.wgbExact / 16
  (List.range n).map (fun i => n * blk + i)

/-- A block becomes FILLED, if it was EMPTY (R307): no beat of it has been read since. -/
def wgbFill (blk : Nat) (d : TileData) : TileData :=
  if d.wgbFilled.contains blk then d
  else { d with wgbFilled := (d.wgbFilled ++ [blk]), wgbRead := d.wgbRead.filter (fun b => !(wgbBeatsOf d blk).contains b) }

/-- Every block becomes EMPTY (R307): it reads +0. -/
def wgbEmptyAll (d : TileData) : TileData := { d with wgb := [], wgbFilled := [], wgbRead := [] }

/-- Words of the WGB. -/
def wgbWord (d : TileData) (w : Nat) : W32 := mget 0 d.wgb w

/-- A word written by an add: its beat has to be read again (R307). -/
def wgbPut (w : Nat) (v : W32) (d : TileData) : TileData :=
  { d with wgb := mset 0 d.wgb w v, wgbRead := d.wgbRead.filter (· ≠ w / 16) }

/-- Element j of row r of a block in EXACT mode. -/
def wgbExactElem (d : TileData) (blk r j : Nat) : Int :=
  let w := 2048 * blk + 64 * r + 2 * j
  signed 64 ((wgbWord d w).toNat + 2 ^ 32 * (wgbWord d (w + 1)).toNat)

/-- A range event of an EXACT add in a cycle (R309, R310): KIND 1 input, 2 sum. -/
def wgbEvent (at_ blk r j kind : Nat) (d : TileData) : TileData :=
  let e := noteFirst at_ [blk, r, j, kind] d.wgbEvents
  { d with wgbEvents := { e with count := satAdd 16 e.count 1 } }

/-- One element of an add in FP32 mode (R308). -/
def wgbAddF32 (blk r j : Nat) (x : W32) (d : TileData) : TileData :=
  let w := 1024 * blk + 32 * r + j
  let v := fAdd (wgbWord d w) x
  let d := wgbPut w v d
  if f32IsNan v || f32IsInf v then { d with wgbNonfinite := satAdd 32 d.wgbNonfinite 1 } else d

/-- One element of an add in EXACT mode (R309): on a range event it keeps its old value. Also says whether there was one. -/
def wgbAddExact (at_ blk r j : Nat) (x : W32) (d : TileData) : TileData × Bool :=
  match f32Val x with
  | .fin s m e =>
    let q := quantise d.wgbLsb (if s then -(m : Int) else m) e
    let n := wgbExactElem d blk r j + q
    if (2 ^ 63 : Nat) ≤ q.natAbs then (wgbEvent at_ blk r j 1 d, true)
    else if n < -(2 ^ 63 : Nat) || (2 ^ 63 : Nat) ≤ n then (wgbEvent at_ blk r j 2 d, true)
    else
      let w := 2048 * blk + 64 * r + 2 * j
      let v := lowBits 64 n
      let d := wgbPut (w + 1) (BitVec.ofNat 32 (v / 2 ^ 32)) (wgbPut w (BitVec.ofNat 32 v) d)
      (if q = 0 && m != 0 then { d with wgbVanish := satAdd 32 d.wgbVanish 1 } else d, false)
  | _ => (wgbEvent at_ blk r j 1 d, true)

/-- Add a collector row into row r of a block in a cycle (R308, R309); the count of range events. -/
def wgbAddRow (at_ blk r : Nat) (row : List W32) (d : TileData) : TileData × Nat :=
  (List.range 32).foldl (fun (s : TileData × Nat) j =>
    let x := nth 0 row j
    if s.1.wgbExact then let y := wgbAddExact at_ blk r j x s.1; (y.1, s.2 + b2n y.2)
    else (wgbAddF32 blk r j x s.1, s.2)) (d, 0)

/-- An export reads a beat and clears it; a block whose every beat has been read becomes EMPTY (R307). -/
def wgbExport (beat : Nat) (d : TileData) : List W32 × TileData :=
  let ws := (List.range 16).map (fun i => wgbWord d (16 * beat + i))
  let blk := wgbBlockOf d (16 * beat)
  let d := { d with
    wgb := (List.range 16).foldl (fun m i => mset 0 m (16 * beat + i) 0) d.wgb
    wgbRead := if d.wgbFilled.contains blk && !d.wgbRead.contains beat then d.wgbRead ++ [beat] else d.wgbRead }
  if (wgbBeatsOf d blk).all d.wgbRead.contains then
    (ws, { d with wgbFilled := d.wgbFilled.filter (· ≠ blk), wgbRead := d.wgbRead.filter (fun b => !(wgbBeatsOf d blk).contains b) })
  else (ws, d)

end Sys2Proof.Machine
end

