-- ==== Sys2Proof/Machine/Xo.lean ====
section
/-! DEFINITION. How a compiled beat is read out of a tile: XO, the WGB in its place, the quantiser, and the way onto a port's link (R190, R218,
R219, R226, R227, R235, R341 to R344). -/

namespace Sys2Proof.Machine

/-- One element the quantiser takes: its integer, whether it is a vanish, the kind of its range fault (0 none; R342, R344). -/
structure QElem where
  val : Int
  vanish : Bool
  fault : Nat

/-- An FP32 element at exponent L (R149, R344). -/
def quantF32 (lsb : Int) (x : W32) : QElem :=
  match f32Val x with
  | .fin s m e =>
    let n := quantise lsb (if s then -(m : Int) else m) e
    if n < -(2 ^ 95 : Nat) || (2 ^ 95 : Nat) ≤ n then ⟨0, false, 2⟩ else ⟨n, n == 0 && m != 0, 0⟩
  | _ => ⟨0, false, 1⟩

/-- An EXACT element stored at exponent Lw (R342). -/
def quantExact (lsb lw : Int) (i : Int) : QElem :=
  let n := if lsb ≤ lw then i else quantise lsb i lw
  ⟨n, n == 0 && i != 0, 0⟩

/-- L of a job at a tile (QUANT_LSB, R366). -/
def quantLsbOf (d : TileData) (job : Nat) : Int := signed 8 (mget 0 d.quantLsb job).toNat

/-- Count the elements of a beat and record its first range fault (R344); `size` is the bytes of an element. -/
def countQuant (at_ job src addr size : Nat) (l : List QElem) (d : TileData) : TileData :=
  let bad := (indices l.length (fun i => (nth ⟨0, false, 0⟩ l i).fault != 0))
  let f := bad.foldl (fun (f : FirstRec) i =>
    let f := noteFirst at_ [job, (nth ⟨0, false, 0⟩ l i).fault, src, (addr + size * i) / 4 % 2 ^ 18] f
    { f with count := satAdd 16 f.count 1 }) d.quantFault
  { d with
    quantConv := satAdd 64 d.quantConv l.length
    quantVan := satAdd 64 d.quantVan (l.filter (·.vanish)).length
    quantFault := f }

/-- The elements of 16 words of an EXACT beat. -/
def exactElems (ws : List W32) : List Int :=
  (List.range 8).map (fun i => signed 64 ((nth 0 ws (2 * i)).toNat + 2 ^ 32 * (nth 0 ws (2 * i + 1)).toNat))

/-- Read the words of a beat at its source; `base` holds the scratchpad as the read sees it in its cycle (R185, R219). The words, the addresses of those that
fail their parity check, and the tile after it (a WGB source clears its beat, R307). -/
def readBeat (src : BeatSrc) (readAt : Nat) (base d : TileData) : List W32 × List Nat × TileData :=
  match src with
  | .scratch _ addr =>
    let as := (List.range 16).map (fun i => addr + 4 * i)
    (as.map (spWordAt base readAt), spFails base as, d)
  | .wgb _ off _ => let r := wgbExport (off / 64) d; (r.1, [], r.2)
  | .read => ([], [], d)

/-! ## Faults of the exchange, and the link of a port (R226, R227, R235) -/

/-- Exchange fault codes (R235). -/
abbrev xCollision : Nat := 1
abbrev xUnarmed : Nat := 2
abbrev xArmError : Nat := 3
abbrev xXoBusy : Nat := 4
abbrev xOutOfPhase : Nat := 5
abbrev xBadRoute : Nat := 6
abbrev xRange : Nat := 7
abbrev xClockState : Nat := 8
abbrev xEarlyOverflow : Nat := 9
abbrev xStallLimit : Nat := 10
abbrev xNoRecord : Nat := 11
abbrev xPortOverrun : Nat := 12

/-- Exchange cycle of a local cycle of a partition, as a 20-bit field. -/
def xcycleAt (x : Part) (c : Nat) : Nat := lowBits 20 ((c : Int) - x.e0)

/-- Record an exchange fault of a partition: the first in EXCH_FAULT, each counted (R235, R238). -/
def noteExch (p tile port code c : Nat) (m : Mod) : Mod :=
  modPart p (fun x => { x with
    exchFaults := satAdd 32 x.exchFaults 1
    exchFault := noteFirst c [tile, port, xcycleAt x c, code] x.exchFault }) m

/-- A module fault of the exchange (R235); in a stall the exchange cycle is the one that is held. -/
def moduleXch (p code port : Nat) (m : Mod) : Mod :=
  signalModule p 0x03 code (noteExch p 0x1FFF port code (partNow m p) m)

/-- A compiled beat comes to a port from its router and takes the link in this cycle (R226, R227); one that would exceed the limit of a Tether
link is discarded. A port that is not UP sends nothing (R380). That the replay buffer is full does not hold it (log entry 110). -/
def sendCompiled (q tag n : Nat) (ws : List W32) (m : Mod) : Mod :=
  let y := portOf m q
  if y.state ≠ .up then m
  else if decide (q < 48) && linkFull (srcNow m) y.sent then moduleXch y.part xPortOverrun q m
  else takeLink q clsCompiled true true tag n ws m

/-! ## Copies of a beat -/

/-- A contribution beat sets out to its engine (R342). -/
def addContrib (c : ContribBeat) (m : Mod) : Mod := { m with contribs := m.contribs ++ [c] }

/-- A beat has been read: its tile is as the read leaves it, with one more beat sent, and its copies are no longer unread. -/
def noteRead (p t id : Nat) (src : BeatSrc) (readAt : Nat) (base : TileData) (m : Mod) : Mod :=
  modPart p (fun x => { x with beats := x.beats.filter (fun y => y.id != id) })
    (modTd t (fun d => let d := (readBeat src readAt base d).2.2; { d with beatsOut := (d.beatsOut + 1) % 2 ^ 64 }) m)

/-- What becomes of a copy of a beat that has been read: to a tile or a port it travels on; to an engine it is quantised and travels as a
contribution (R342). One that a collision has discarded (R222) is read and quantised all the same (R344), and goes no further. -/
def forwardCopy (p t : Nat) (ws : List W32) (b : Beat) (m : Mod) : Mod :=
  match b.dst with
  | .engine e arg =>
    let d := tdOf m t
    let job := bits arg 15 12
    let lsb := quantLsbOf d job
    let src := bits arg 11 10
    let exact := src == 2
    let lw := d.wgbLsb
    let elems := if exact then (exactElems ws).map (quantExact lsb lw) else ws.map (quantF32 lsb)
    let addr := match b.src with
      | .scratch _ a => a
      | .wgb _ o _ => o
      | .read => 0
    let m := modTd t (countQuant b.readAt job src addr (if exact then 8 else 4) elems) m
    let m := if elems.any (fun x => x.fault != 0) then signalTile t 0x05 job (tileTick m t b.readAt) m else m
    if b.lost then m
    else addContrib { engine := e, part := p, job, entry := bits arg 9 0, exact, shift := if exact then (lw - lsb).toNat else 0
                      beat := b.transfer, vals := elems.map (·.val), id := b.id } m
  | _ => if b.lost then m else modPart p (fun x => { x with beats := x.beats ++ [{ b with src := .read, data := ws }] }) m

/-- The copies of a beat. -/
def copiesOf (m : Mod) (p id : Nat) : List Beat := (partOf m p).beats.filter (fun x => x.id == id)

/-- Forward every copy of a beat that has been read. -/
def forwardAll (p t : Nat) (ws : List W32) (l : List Beat) (m : Mod) : Mod := l.foldl (fun m c => forwardCopy p t ws c m) m

/-- Read the first unread beat of a tile that is due by a cycle, with its copies (R218, R225); a parity error traps the tile a
cycle later, and the word is sent as read (R190). -/
def readNext (p t upto : Nat) (base : TileData) (m : Mod) : Mod :=
  let mine (b : Beat) : Bool := match b.src with
    | .scratch u _ => u == t && decide (b.readAt ≤ upto)
    | .wgb u _ _ => u == t && decide (b.readAt ≤ upto)
    | .read => false
  match (partOf m p).beats.find? mine with
  | none => m
  | some b =>
    let r := readBeat b.src b.readAt base (tdOf m t)
    let m := forwardAll p t r.1 (copiesOf m p b.id) (noteRead p t b.id b.src b.readAt base m)
    match r.2.1 with
    | [] => m
    | a :: _ =>
      modTd t (fun d => { d with
        faultsDue := dueInsert ⟨b.pc, 8, trapScratchParity, a, b.readAt + 1, portXO, r.2.1⟩ d.faultsDue }) m

/-- Read every beat of a tile that is due by a cycle, in order. -/
def readBeats (t upto : Nat) (base : TileData) (m : Mod) : Mod :=
  match partOfTile m t with
  | none => m
  | some p => (partOf m p).beats.foldl (fun m _ => readNext p t upto base m) m

/-- The same with the tile's scratchpad as it stands; a parity error whose check has come traps. -/
def readBeatsNow (t upto : Nat) (m : Mod) : Mod := interrupt t (nowOf m t) (readBeats t upto (tdOf m t) m)

/-- Read a beat at its source if it has not been read. -/
def ensureRead (b : Beat) (m : Mod) : Mod :=
  match b.src with
  | .read => m
  | .scratch t _ => readBeatsNow t b.readAt m
  | .wgb t _ _ => readBeatsNow t b.readAt m

/-- Words land in a tile's scratchpad through a port in a cycle: the reads of XO due by then see none of them (R185, R219). -/
def landWords (t rank c a : Nat) (ws : List W32) (m : Mod) : Mod := modTd t (spLands rank c a ws) (readBeatsNow t c m)

end Sys2Proof.Machine
end

