-- ==== Sys2Proof/Machine/Issue.lean ====
section
/-! DEFINITION. Issuing slot instructions: fetch checks, encoding checks, predicates, interlocks, the end of a bundle
(R59, R62, R64 to R72, R76 to R81, R90, R96). -/

namespace Sys2Proof.Machine

/-! ## Fields of a body (R66) -/

/-- RD, bits [21:17]. -/
def fRd (b : BitVec 22) : Nat := bits b.toNat 21 17
/-- RA, bits [16:12]. -/
def fRa (b : BitVec 22) : Nat := bits b.toNat 16 12
/-- RB, bits [11:7]. -/
def fRb (b : BitVec 22) : Nat := bits b.toNat 11 7
/-- FN, bits [6:0]. -/
def fFn (b : BitVec 22) : Nat := bits b.toNat 6 0
/-- IMM12, bits [11:0]. -/
def fImm (b : BitVec 22) : Nat := bits b.toNat 11 0
/-- IMM12 sign-extended to 32 bits (R105). -/
def fSimm (b : BitVec 22) : W32 := BitVec.signExtend 32 (BitVec.ofNat 12 (fImm b))

/-- Scoreboard key of s r. -/
abbrev kS (r : Nat) : Nat := r
/-- Scoreboard key of v r. -/
abbrev kV (r : Nat) : Nat := 32 + r
/-- Scoreboard key of p r. -/
abbrev kP (r : Nat) : Nat := 64 + r

/-- Number of a slot: S 0, V 1, M 2, X 3. -/
def slotNo : Slot → Nat
  | .s => 0
  | .v => 1
  | .m => 2
  | .x => 3

/-- What the encoding of a slot instruction says (R64 to R67, R70, R72, R76): its slot and opcode, whether the opcode is unlisted, whether its reserved fields
are zero and its FN defined, an unlisted or forbidden CSR it names, the registers it names, its latency, whether it is one of BR,
CALL, JR, LOOP and EXIT. -/
structure SlotIns where
  slot : Slot
  op : Nat
  illegal : Bool := false
  ok : Bool := true
  csr : Option Nat := none
  srcs : List Nat := []
  dests : List Nat := []
  lat : Nat := 1
  flow : Bool := false

/-- What an instruction may read as it executes: the tile as it stood before the bundle (R69), the lanes its predicate enables
(R59, R65), SUPERSTEP_NUM, and the issue cycle. -/
structure SlotEnv where
  base : TileData
  mask : W32
  sup : W32
  cycle : Nat

/-- What an S, V or M instruction does: the tile's data after it, its execution traps, and what it decides for the bundle. -/
structure SlotRes where
  d : TileData
  traps : List ExecTrap := []
  nextPc : Option Nat := none
  bubbles : Nat := 0
  late : List LateRead := []
  mop : Option MOp := none
  /-- the words it stores, with the rank of its port (R185) -/
  stores : List (Nat × Nat) := []
  exit : Bool := false
  /-- the bundle may not issue before this cycle, or not at all yet (a full M queue, R170) -/
  earliest : Nat := 0
  blocked : Bool := false

/-- The slot word of an instruction (R64), as TRAP_INFO holds it. -/
def slotWord (op : Nat) (j : Issue) (body : BitVec 22) : Nat :=
  (op <<< 26) ||| (j.pred.toNat <<< 23) ||| (b2n j.pneg <<< 22) ||| body.toNat

/-- The lanes an instruction executes in: predicate bit XOR PNEG (R65). -/
def execMask (d : TileData) (j : Issue) : W32 :=
  if j.pneg then ~~~(getP d j.pred.toNat) else getP d j.pred.toNat

/-- Bit 0 of the mask: what enables an S-, M- or X-slot instruction (R59). -/
def enabled (e : SlotEnv) : Bool := e.mask.getLsbD 0

/-- May the core issue a bundle: RUNNING, no EXIT issued, its clock running (R23, R82, R464), not held for a clock event (R467), not held for a checkpoint (R441)? -/
def coreRuns (m : Mod) (t : Nat) : Bool :=
  let d := tdOf m t
  d.st == .running && !d.exiting && clockRuns m t && !clockHeld m t &&
    (match partOfTile m t with
     | some p => !(partOf m p).heldForCkpt
     | none => true)

/-- The trap a fetch raises, if any (R62, R78, R96): TRAP_PC, SLOT, cause, TRAP_INFO. PC_RANGE comes first, then the parity of
the bundle's words, then the breakpoint; the encoding of the slot words is checked after all three (DESIGN CHOICE, log entry 20). -/
def fetchTrap (d : TileData) : Option (Nat × Nat × Nat × Nat) :=
  let bad := (List.range 4).filter (fun i => d.imemBad.contains (4 * d.pc + i))
  if d.pc > 4095 then some (4095, 0, trapPcRange, 4096)
  else if bad ≠ [] then some (d.pc, maskOf bad, trapImemParity, d.pc)
  else if d.breakEnable ∧ d.breakPcEn ∧ d.breakPc = d.pc ∧ ¬ d.skipBreak then
    some (d.pc, 0, trapBreak, 0)
  else none

/-- An issue trap: nothing of the bundle executes (R90). The cycles it has waited for registers are interlock cycles (R97). -/
def issueTrap (t cycle pc slots cause info : Nat) (m : Mod) : Mod :=
  trapTile t pc slots cause info cycle false false (modTd t (fun d => addCtr 2 (cycle - d.nextIssue) d) (dropBundle t m))

/-- The compiled beats that XO reads by a cycle, where a word of the scratchpad may fail its parity check: a trap of such a read may come
before the next bundle issues (R190). -/
def readsDue (t upto : Nat) (base : TileData) (m : Mod) : Mod := if base.spBad.isEmpty then m else readBeats t upto base m

/-- Start a bundle if none is in progress, or take the trap its fetch raises. A trap that an earlier bundle or a read of XO still had to
raise comes first. -/
def beginBundle (t : Nat) (m : Mod) : Mod :=
  match (tileOf m t).bundle with
  | some _ => m
  | none =>
    let m := readsDue t ((tdOf m t).nextIssue - 1) (tdOf m t) m
    let m := dueTraps t (tdOf m t).nextIssue m
    let d := tdOf m t
    if d.st ≠ .running then m
    else match fetchTrap d with
      | some (pc, slots, cause, info) => issueTrap t d.nextIssue pc slots cause info m
      | none => modTile t (fun x => { x with bundle := some { base := x.d, earliest := x.d.nextIssue } }) m

/-- Destinations that two slots may not share: all but s0 and p0 (R72). -/
def realDests (l : List Nat) : List Nat := l.filter (fun k => k ≠ kS 0 && k ≠ kP 0)

/-- Is this bundle the end bundle of an active loop level? (R72) -/
def endsLoop (d : TileData) : Bool := d.loops.any (fun l => l.last == d.pc)

/-- The issue trap of a slot, if any: SLOT, cause, TRAP_INFO. An unlisted opcode, then reserved fields and FN (R66, R67), then a forbidden CSR (R95),
then the bundle rules (R72), then what the instruction itself checks as it issues, only where it is enabled. A forbidden CSR index traps
whatever the predicate, as the other issue traps do (DESIGN CHOICE, log entry 120). -/
def slotTrap (e : SlotIns) (b : BundleCtx) (j : Issue) (body : BitVec 22) (own : Option (Nat × Nat × Nat)) :
    Option (Nat × Nat × Nat) :=
  if e.illegal then some (1 <<< slotNo e.slot, trapIllegalOpcode, slotWord e.op j body)
  else if !e.ok then some (1 <<< slotNo e.slot, trapReservedField, slotWord e.op j body)
  else match e.csr with
    | some k => some (1 <<< slotNo e.slot, trapCsrAccess, k)
    | none =>
      if (realDests e.dests).any b.dests.contains || (e.flow && endsLoop b.base) then some (0, trapIllegalBundle, 0)
      else own

/-- The cycle from which every register of a list may be used (R70). -/
def readyCycle (d : TileData) (l : List Nat) : Nat := l.foldl (fun a k => Nat.max a (mget 0 d.ready k)) 0

/-- Note an instruction of the bundle: its slot, its destinations, when its registers are ready, its result (R70, R71). A write to s0 or p0
is discarded, so it is never pending and nothing interlocks on it (DESIGN CHOICE, log entry 122); R71 counts it all the same. -/
def noteSlot (e : SlotIns) (j : Issue) (b : BundleCtx) : BundleCtx :=
  { b with
    slots := b.slots ++ [e.slot]
    dests := b.dests ++ realDests e.dests
    earliest := Nat.max b.earliest (readyCycle b.base (kP j.pred.toNat :: e.srcs ++ e.dests))
    lands := if e.slot = .s ∨ e.slot = .v then b.lands ++ e.dests.map (fun k => ⟨k, slotNo e.slot, e.lat⟩) else b.lands }

/-- Would a result of the bundle, issued at cycle c, land with an earlier result of its slot in its file? (R71) -/
def clashAt (d : TileData) (k : Nat) (lands : List Land) (c : Nat) : Bool :=
  lands.any (fun l => d.lands.any (fun r => r.cycle == c + l.lat * k && r.slot == l.slot && r.key / 32 == l.key / 32))

/-- The issue cycle of a bundle: from a cycle on, the first without a clash (R71). -/
def clashFree (d : TileData) (k : Nat) (lands : List Land) : Nat → Nat → Nat
  | 0, c => c
  | f + 1, c => if clashAt d k lands c then clashFree d k lands f (c + k) else c

/-- The issue cycle of the bundle in progress (R70, R71). -/
def issueCycle (m : Mod) (t : Nat) (b : BundleCtx) : Nat :=
  clashFree b.base (coreK m t) b.lands 64 b.earliest

/-- Registers whose X-slot result is still pending hold up a bundle that names them (R70). -/
def waitsForX (d : TileData) (l : List Nat) : Bool := l.any (fun k => d.xpend.any (fun x => x.1 == k))

/-- Give an X-slot result its landing cycle (R71): where another X-slot result lands in the same file in that cycle, the one of the
instruction that issued earlier lands, and the other one core cycle later. -/
def placeLanding (k : Nat) : Nat → Landing → List Landing → List Landing
  | 0, r, l => l ++ [r]
  | f + 1, r, l =>
    match l.find? (fun y => y.slot == 3 && y.cycle == r.cycle && y.key / 32 == r.key / 32) with
    | none => l ++ [r]
    | some y =>
      if y.issued ≤ r.issued then placeLanding k f { r with cycle := r.cycle + k } l
      else placeLanding k f { y with cycle := y.cycle + k } (l.filter (· ≠ y) ++ [r])

/-- Write the result of an X-slot instruction that completes at a cycle and lands two core cycles later (R71, R76): a scalar, or a
predicate in all 32 bits (R59). An instruction with no result pending issued in that cycle. -/
def xResult (key : Nat) (v : W32) (k cycle : Nat) (d : TileData) : TileData :=
  if key = kS 0 ∨ key = kP 0 then d
  else
    let issued := ((d.xpend.find? (fun x => x.1 == key)).map (·.2)).getD cycle
    let l := placeLanding k 64 { key, cycle := cycle + 2 * k, slot := 3, issued } (d.lands.filter (fun y => y.key ≠ key))
    let d := { d with
      ready := l.foldl (fun r y => if y.slot = 3 then mset 0 r y.key y.cycle else r) d.ready, lands := l
      xpend := d.xpend.filter (fun x => x.1 ≠ key) }
    if key < 32 then setS key v d else setP (key - 64) v d

/-- The result of the X-slot instruction that issues in a cycle comes later (R70). -/
def owes (keys : List Nat) (cycle : Nat) (d : TileData) : TileData := { d with xpend := d.xpend ++ (realDests keys).map (fun k => (k, cycle)) }

/-- The value TIME returns in its issue cycle (R89); selector 0x00 latches the tick. -/
def timeRead (m : Mod) (t cycle fn rd : Nat) (d : TileData) : TileData :=
  let p := match partOfTile m t with
    | some p => partOf m p
    | none => {}
  let at_ := tileTick m t cycle
  match fn with
  | 0 => { setS rd (BitVec.ofNat 32 at_.1.toNat) d with latch := BitVec.ofNat 16 (at_.1.toNat / 2 ^ 32) }
  | 1 => setS rd (d.latch.zeroExtend 32) d
  | 2 => setS rd (BitVec.ofNat 32 at_.2) d
  | 3 => setS rd p.superstep d
  | 4 => setS rd p.stepNum d
  | _ => setS rd (BitVec.ofNat 32 p.stepAttempt) d

/-- What a tile waits for now: also one whose wait has an end that is known and still to come (R252, R263). -/
def shownWait (m : Mod) (t : Nat) (d : TileData) : WaitKind :=
  match d.st with
  | .waiting => d.wait.kind
  | .running => if nowOf m t < d.shown.2 then d.shown.1 else .none
  | _ => .none

/-- TILE_STATUS (03). -/
def tileStatus (m : Mod) (t : Nat) (d : TileData) : W64 :=
  let w := shownWait m t d
  let st := match d.st with
    | .idle => 0 | .running => (if w = .none then 1 else 2) | .waiting => 2 | .trapped => 3 | .ended => 4 | .debugStop => 5
  let wc := match w with
    | .waitq .. => 1 | .sync => 2 | .tick => 3 | .bwait .. => 4 | .csend .. => 5 | .crecv .. => 6 | .swait .. => 7 | .none => 0
  let rem := match d.loops with
    | [] => 0
    | l :: _ => l.remain
  pack [(48, d.pc % 4096), (40, st), (36, wc), (34, d.loops.length), (33, b2n ((halfSt m (halfOf t)).clk == .half)), (0, rem)]

/-- TILE_ID (03). -/
def tileIdReg (t : Nat) : W64 :=
  pack [(27, halfOf t), (25, dieOf t), (20, rowOf t), (14, colOf t), (0, t)]

/-- The value of a CSR (R95); none for an unlisted index. -/
def csrValue (m : Mod) (t : Nat) (d : TileData) (k : Nat) : Option W64 :=
  if k = 0x000 then some (tileIdReg t)
  else if k = 0x001 then some (pack [(32, d.waitLimit), (3, b2n d.singleStep), (2, b2n d.breakEnable)])
  else if k = 0x002 then some (tileStatus m t d)
  else if k = 0x003 then some (pack [(0, d.startPc)])
  else if k = 0x004 then
    some (pack [(48, d.trap.pc % 4096), (44, d.trap.slots), (8, d.trap.cause), (1, b2n d.trap.multi), (0, b2n d.trap.valid)])
  else if k = 0x005 then some (pack [(0, d.trap.info)])
  else if k = 0x006 then some (pack [(48, d.trap.phase), (0, d.trap.tick.toNat)])
  else if k = 0x008 then some (pack [(12, b2n d.breakPcEn), (0, d.breakPc)])
  else if 0x010 ≤ k ∧ k ≤ 0x017 then some (BitVec.ofNat 64 (mget 0 d.ctr (k - 0x010)))
  else if k = 0x018 then some (pack [(0, b2n d.freeze)])
  else if 0x01C ≤ k ∧ k ≤ 0x01F then some (mget 0 d.scr (k - 0x01C))
  else none

/-- Is a CSR index listed? (R95) -/
def csrListed (k : Nat) : Bool :=
  k ≤ 0x006 || k == 0x008 || (0x010 ≤ k && k ≤ 0x018) || (0x01C ≤ k && k ≤ 0x01F)

/-- May the program write a CSR? (R95) -/
def csrWritable (k : Nat) : Bool := k == 0x018 || (0x01C ≤ k && k ≤ 0x01F)

/-- Set COUNTER_CONTROL: CLEAR sets every tile counter to zero (R97). -/
def writeCounterControl (v : Nat) (d : TileData) : TileData :=
  { d with freeze := bit v 0, ctr := if bit v 1 then [] else d.ctr }

/-- The reads of TIME and CSRR of a bundle, in its issue cycle. -/
def lateRead (m : Mod) (t cycle : Nat) (base : TileData) (r : LateRead) (d : TileData) : TileData :=
  match r with
  | .time fn rd => timeRead m t cycle fn rd d
  | .csr imm rd =>
    let b := { base with ctr := d.ctr, shown := (.none, 0) }
    let v := ((csrValue m t b (imm % 2048)).getD 0).toNat
    setS rd (BitVec.ofNat 32 (if bit imm 11 then v / 2 ^ 32 else v)) d
  | .control v => writeCounterControl v d

/-- The loop stack and the next PC after a bundle that no branch redirects (R79, R81). -/
def fallThrough (pc : Nat) (loops : List LoopLevel) : Nat × List LoopLevel :=
  match loops with
  | [] => (pc + 1, [])
  | l :: r =>
    if l.last = pc then
      if l.remain > 1 then (l.start, { l with remain := l.remain - 1 } :: r) else (pc + 1, r)
    else (pc + 1, l :: r)

/-- Cycles between the bundle before and the issue of this one are interlock cycles (R97). -/
def countInterlock (n : Nat) (d : TileData) : TileData := addCtr 0 n (addCtr 2 n d)

/-- The bundle counts as issued, and its bubbles as such (R97). -/
def countBundle (n bubbles : Nat) (d : TileData) : TileData := addCtr 0 n (addCtr 1 1 (addCtr 3 bubbles d))

/-- When the results of a bundle issued at a cycle are ready (R70, R71). Landings of the past are forgotten. -/
def landResults (c k : Nat) (l : List Land) (d : TileData) : TileData :=
  { d with
    ready := l.foldl (fun r x => if x.key = kS 0 ∨ x.key = kP 0 then r else mset 0 r x.key (c + x.lat * k)) d.ready
    lands := d.lands.filter (fun y => decide (c < y.cycle)) ++ l.map (fun x => ⟨x.key, c + x.lat * k, x.slot, c⟩) }

/-- The stores of a bundle issued at a cycle land two core cycles later (R185, R187). -/
def stampStores (c k : Nat) (l : List (Nat × Nat)) (d : TileData) : TileData :=
  { d with spLast := l.foldl (fun s x => mset (0, 0) s (x.1 / 4) (c + 2 * k, x.2)) d.spLast }

/-- PC, loop stack and M queue after a bundle (R79, R81, R160). -/
def goOn (c next : Nat) (b : BundleCtx) (d : TileData) : TileData :=
  { d with
    pc := b.nextPc.getD (fallThrough b.base.pc d.loops).1
    loops := (fallThrough b.base.pc d.loops).2
    nextIssue := next
    skipBreak := false
    exiting := b.exit
    mq := match b.mop with
      | some op => d.mq ++ [{ op := op, issued := c, pc := b.base.pc }]
      | none => d.mq }

/-- The end of a bundle without its traps and wait: issue cycle, counters, late reads, landings, PC and loop stack. Its bubbles count as far
as the tile runs: up to the first trap of the bundle (R97). -/
def retireBundle (m : Mod) (t : Nat) (b : BundleCtx) (d : TileData) : TileData :=
  let c := issueCycle m t b
  let k := coreK m t
  let next := c + k * (1 + b.bubbles)
  let stop := b.traps.foldl (fun a x => Nat.min a (c + Nat.max 1 x.delay * k)) next
  let d := b.late.foldl (fun d r => lateRead m t c b.base r d) (countInterlock (c - b.base.nextIssue) d)
  goOn c next b (stampStores c k b.stores (landResults c k b.lands (countBundle (stop - c) (stop - c - k) d)))

/-- Execution traps of a bundle: the first is recorded, any further one sets MULTI (R90, R91). One that a later stage raises is recorded
when that stage comes. -/
def takeTraps (t pc cycle k : Nat) (l : List ExecTrap) (m : Mod) : Mod :=
  let later (x : ExecTrap) : Bool := x.delay != 0
  let m := (l.filter (fun x => !later x)).foldl (fun m x => trapTile t pc (1 <<< x.slot) x.cause x.info cycle false false m) m
  modTd t (fun d => { d with
    faultsDue := (l.filter later).foldl (fun f x =>
      dueInsert ⟨pc, 1 <<< x.slot, x.cause, x.info, cycle + x.delay * k, x.port, x.words⟩ f) d.faultsDue }) m

/-- A waiting tile goes on at a cycle; the cycles of its wait are counted (R84, R97): up to the issue of its next bundle, those two cycles
after the condition too (DESIGN CHOICE, log entry 140). -/
def wakeUp (next : Nat) (d : TileData) : TileData := { countWait next d with st := .running, wait := {}, nextIssue := next }

/-- A bundle that issued at a cycle ends in a wait: the wait begins with the next cycle in which the tile could have issued (R84). -/
def beginWait (w : WaitKind) (pc issued : Nat) (d : TileData) : TileData :=
  { d with st := .waiting, wait := { kind := w, since := d.nextIssue, pc, issued } }

/-- The cycle in which the bundle after a wait issues, its condition met at a cycle (R76, R84): two core cycles later, no earlier than a
branch of the waiting bundle allows; a condition met by the issue cycle adds none. -/
def wakeCycle (d : TileData) (k cycle : Nat) : Nat :=
  if cycle ≤ d.wait.issued then d.nextIssue else Nat.max (cycle + 2 * k) d.nextIssue

/-- A wait ends: its condition is met at a cycle (R84). A single step of R96 ends here, as one without a wait does in `afterBundle`: DEBUG_STOP
with trap STOPPED (DESIGN CHOICE, log entry 119). A trap of a later stage comes first. Where the condition is known before its cycle, the
tile shows the wait until then. -/
def endWait (t cycle : Nat) (m : Mod) : Mod :=
  let m := dueTraps t (wakeCycle (tdOf m t) (coreK m t) cycle) m
  let d := tdOf m t
  if d.st ≠ .waiting then m
  else
    let next := wakeCycle d (coreK m t) cycle
    let m := modTd t (fun d => { wakeUp next d with shown := (d.wait.kind, cycle) }) m
    if d.oneBundle then trapTile t d.pc 0 trapStopped 0 next false false m else m

/-- After its traps, a bundle that issued at a cycle, of a tile that still runs, begins its wait, or ends a single step (R84, R96): the tile
stops again as a STOP stops it, with trap STOPPED, and Gondola is signalled DEBUG_STOP (DESIGN CHOICE, log entry 119). -/
def afterBundle (t c : Nat) (b : BundleCtx) (m : Mod) : Mod :=
  if (tdOf m t).st ≠ .running then m
  else match b.waitOn, b.waitDue with
    | some w, some due => endWait t due (modTd t (beginWait w b.base.pc c) m)
    | some w, none => modTd t (beginWait w b.base.pc c) m
    | none, _ => if b.base.oneBundle then trapTile t (tdOf m t).pc 0 trapStopped 0 (tdOf m t).nextIssue false false m else m

/-- The tile at the end of its bundle. -/
def retireTile (m : Mod) (t : Nat) (b : BundleCtx) (x : Tile) : Tile := { d := retireBundle m t b x.d, bundle := none }

/-- The last slot of a bundle is in: the bundle issues. XO reads that are due by the cycle its stores land in see none of them (R219). A wait begins, or a single step ends, unless the bundle trapped. -/
def finishBundle (t : Nat) (m : Mod) : Mod :=
  match (tileOf m t).bundle with
  | none => m
  | some b =>
    if b.blocked then dropBundle t m
    else
      let c := issueCycle m t b
      let k := coreK m t
      let m := readBeats t (c + 2) b.base m
      let m := followHeads t (c + 2) (b.stores.map (·.1)) (modTile t (retireTile m t b) m)
      afterBundle t c b (takeTraps t b.base.pc c k b.traps m)

/-- Issue one slot instruction: fetch and encoding checks, then, if enabled, its effect, then the end of the bundle when no
further slot follows. An instruction that names a register whose X-slot result is pending issues nothing and checks nothing (R70). Where the
core may not issue, or the slot does not follow the bundle's slots so far, nothing happens
(log entry 21). -/
def issueSlot (e : SlotIns) (own : SlotEnv → Option (Nat × Nat × Nat)) (eff : SlotEnv → Mod → Mod)
    (j : Issue) (body : BitVec 22) (m : Mod) : Mod :=
  let t := j.tile.val
  if !coreRuns m t then m
  else
    let m := beginBundle t m
    match (tileOf m t).bundle with
    | none => m
    | some b =>
      if b.slots.any (fun q => decide (slotNo e.slot ≤ slotNo q)) then m
      else
        let b' := noteSlot e j b
        let env : SlotEnv := { base := b.base, mask := execMask b.base j, cycle := issueCycle m t b',
                               sup := ((partOfTile m t).map (fun p => (partOf m p).superstep)).getD 0 }
        let blocked := b.blocked || waitsForX b.base (kP j.pred.toNat :: e.srcs ++ e.dests)
        let m := readsDue t (env.cycle - 1) b.base m
        if (tdOf m t).faultsDue.any (fun x => decide (x.cycle ≤ env.cycle)) then
          interrupt t env.cycle (modTile t (fun x => { x with bundle := some { b' with base := bundleBase x, earliest := env.cycle } }) m)
        else match (if blocked then none else slotTrap e b j body (own env)) with
        | some (slots, cause, info) => issueTrap t env.cycle b.base.pc slots cause info m
        | none =>
          let m := modTile t (fun x => { x with bundle := some { b' with base := bundleBase x, blocked } }) m
          let m := if blocked then m else eff env m
          if j.more && e.slot != .x then m else finishBundle t m

/-- What an S, V or M instruction does to the tile and its bundle. -/
def applyRes (t : Nat) (f : TileData → SlotRes) (m : Mod) : Mod :=
  modTile t (fun x =>
    let r := f x.d
    { d := r.d
      bundle := x.bundle.map (fun b =>
        { b with
          traps := b.traps ++ r.traps
          nextPc := r.nextPc <|> b.nextPc
          bubbles := b.bubbles + r.bubbles
          late := b.late ++ r.late
          mop := r.mop <|> b.mop
          stores := b.stores ++ r.stores
          exit := b.exit || r.exit
          earliest := Nat.max b.earliest r.earliest
          blocked := b.blocked || r.blocked }) }) m

/-- No check of its own at issue. -/
def noOwn (_ : SlotEnv) : Option (Nat × Nat × Nat) := none

/-- Issue an S- or M-slot instruction: bit 0 of its predicate enables it (R59). -/
def issueS (e : SlotIns) (own : SlotEnv → Option (Nat × Nat × Nat)) (f : SlotEnv → TileData → SlotRes)
    (j : Issue) (body : BitVec 22) : State → Ans :=
  onMod (issueSlot e (fun env => if enabled env then own env else none)
    (fun env m => if enabled env then applyRes j.tile.val (f env) m else m) j body)

/-- Issue a V-slot instruction: it has no effect where no lane is enabled (R65). -/
def issueV (e : SlotIns) (f : SlotEnv → TileData → SlotRes) (j : Issue) (body : BitVec 22) : State → Ans :=
  onMod (issueSlot e noOwn (fun env m => if env.mask = 0 then m else applyRes j.tile.val (f env) m) j body)

/-- Issue an X-slot instruction: bit 0 enables it; its effect may reach beyond the tile. -/
def issueX (e : SlotIns) (f : SlotEnv → Mod → Mod) (j : Issue) (body : BitVec 22) : State → Ans :=
  onMod (issueSlot e noOwn (fun env m => if enabled env then f env m else m) j body)

/-- Issue an X-slot instruction that also checks its register operands as it issues (R243): the check answers whether they hold. -/
def issueXIf (e : SlotIns) (ok : Mod → SlotEnv → Bool) (f : SlotEnv → Mod → Mod) (j : Issue) (body : BitVec 22) : State → Ans :=
  onMod (fun m => issueSlot e
    (fun env => if enabled env && !ok m env then some (8, trapReservedField, slotWord e.op j body) else none)
    (fun env m => if enabled env then f env m else m) j body m)

/-- An execution trap of the slot in progress. -/
def addTrap (t : Nat) (x : ExecTrap) (m : Mod) : Mod :=
  modTile t (fun y => { y with bundle := y.bundle.map (fun b => { b with traps := b.traps ++ [x] }) }) m

/-- The bundle ends in a wait whose condition is met at a known cycle (R84). -/
def setWaitDue (t : Nat) (w : WaitKind) (due : Nat) (m : Mod) : Mod :=
  modTile t (fun y => { y with bundle := y.bundle.map (fun b => { b with waitOn := some w, waitDue := some due }) }) m

/-- The bundle ends in a wait (R84). -/
def setWait (t : Nat) (w : WaitKind) (m : Mod) : Mod :=
  modTile t (fun y => { y with bundle := y.bundle.map (fun b => { b with waitOn := some w }) }) m

end Sys2Proof.Machine
end

