-- ==== Sys2Proof/Machine/Operands.lean ====
section
/-! DEFINITION. The operand forms: which fields each format names, which must be zero, and the opcodes each slot lists
(R66, R67). A form says what R70 to R72 and R76 need of an instruction. -/

namespace Sys2Proof.Machine

/-- A predicate register field: bits [4:3] must be zero (R66). -/
def predField (r : Nat) : Bool := r < 8

/-! ## S slot -/

/-- RR with sd, sa, sb; FN 0. -/
def sRR (op lat : Nat) (b : BitVec 22) : SlotIns :=
  { slot := .s, op, ok := fFn b == 0, srcs := [kS (fRa b), kS (fRb b)], dests := [kS (fRd b)], lat }
/-- RI with sd, sa and an immediate. -/
def sRI (op : Nat) (b : BitVec 22) : SlotIns :=
  { slot := .s, op, srcs := [kS (fRa b)], dests := [kS (fRd b)] }
/-- RI shift: IMM12[11:5] zero. -/
def sShI (op : Nat) (b : BitVec 22) : SlotIns := { sRI op b with ok := fImm b < 32 }
/-- LI: BODY [16] is RSV. LIH also reads sd. -/
def sLI (op : Nat) (keeps : Bool) (b : BitVec 22) : SlotIns :=
  { slot := .s, op, ok := !bit b.toNat 16, srcs := if keeps then [kS (fRd b)] else [], dests := [kS (fRd b)] }
/-- CMP: pd = condition FN of sa, sb; integer conditions only (R106). -/
def sCmp (b : BitVec 22) : SlotIns :=
  { slot := .s, op := 0x19, ok := fFn b ≤ 5 && predField (fRd b), srcs := [kS (fRa b), kS (fRb b)], dests := [kP (fRd b)] }
/-- PLOGIC: predicate fields; fields its operation does not use are zero (R67). -/
def sPlogic (b : BitVec 22) : SlotIns :=
  { slot := .s, op := 0x1A
    ok := fFn b ≤ 7 && predField (fRd b) && predField (fRa b) && predField (fRb b) &&
      (fFn b ≤ 3 || fRb b == 0) && (fFn b ≤ 5 || fRa b == 0)
    srcs := [kP (fRa b), kP (fRb b)], dests := [kP (fRd b)] }
/-- LD. -/
def sLd (b : BitVec 22) : SlotIns := { slot := .s, op := 0x20, srcs := [kS (fRa b)], dests := [kS (fRd b)], lat := 6 }
/-- ST: RD is a source. -/
def sSt (b : BitVec 22) : SlotIns := { slot := .s, op := 0x21, srcs := [kS (fRa b), kS (fRd b)] }
/-- BT: BODY [9:0] is RSV. CALL writes s31. -/
def sBT (op : Nat) (dests : List Nat) (b : BitVec 22) : SlotIns :=
  { slot := .s, op, ok := bits b.toNat 9 0 == 0, dests, flow := true }
/-- TARGET of a BT body. -/
def fTarget (b : BitVec 22) : Nat := bits b.toNat 21 10
/-- JR: RD, RB and FN zero. -/
def sJr (b : BitVec 22) : SlotIns :=
  { slot := .s, op := 0x2A, ok := fRd b == 0 && fRb b == 0 && fFn b == 0, srcs := [kS (fRa b)], flow := true }
/-- LP: RA in BODY [21:17], END in [16:5], [4:0] RSV. -/
def sLoop (b : BitVec 22) : SlotIns :=
  { slot := .s, op := 0x2B, ok := bits b.toNat 4 0 == 0, srcs := [kS (bits b.toNat 21 17)], flow := true }
/-- END of an LP body. -/
def fEnd (b : BitVec 22) : Nat := bits b.toNat 16 5
/-- TIME: RA and RB zero, FN 0 to 5. -/
def sTime (b : BitVec 22) : SlotIns :=
  { slot := .s, op := 0x30, ok := fRa b == 0 && fRb b == 0 && fFn b ≤ 5, dests := [kS (fRd b)], lat := 2 }
/-- CSRR: RA zero; an unlisted index is CSR_ACCESS (R95). -/
def sCsrr (b : BitVec 22) : SlotIns :=
  { slot := .s, op := 0x31, ok := fRa b == 0, csr := if csrListed (fImm b % 2048) then none else some (fImm b % 2048)
    dests := [kS (fRd b)], lat := 2 }
/-- CSRW: RD zero; only COUNTER_CONTROL and TILE_SCRATCH0 to 3 (R95). -/
def sCsrw (b : BitVec 22) : SlotIns :=
  { slot := .s, op := 0x32, ok := fRd b == 0, csr := if csrWritable (fImm b % 2048) then none else some (fImm b % 2048)
    srcs := [kS (fRa b)] }
/-- BREAK and EXIT: the whole BODY is RSV (R64). -/
def sBare (op : Nat) (flow : Bool) (b : BitVec 22) : SlotIns := { slot := .s, op, ok := b == 0, flow }

/-! ## V slot -/

/-- RR with vd, va, vb; FN 0. -/
def vRR (op lat : Nat) (b : BitVec 22) : SlotIns :=
  { slot := .v, op, ok := fFn b == 0, srcs := [kV (fRa b), kV (fRb b)], dests := [kV (fRd b)], lat }
/-- VFMA also reads vd. -/
def vRRacc (op lat : Nat) (b : BitVec 22) : SlotIns :=
  { slot := .v, op, ok := fFn b == 0, srcs := [kV (fRa b), kV (fRb b), kV (fRd b)], dests := [kV (fRd b)], lat }
/-- One source: RB and FN zero. -/
def vUn (op lat : Nat) (b : BitVec 22) : SlotIns :=
  { slot := .v, op, ok := fRb b == 0 && fFn b == 0, srcs := [kV (fRa b)], dests := [kV (fRd b)], lat }
/-- VCMP: pd; a listed condition. -/
def vCmp (b : BitVec 22) : SlotIns :=
  { slot := .v, op := 0x18, ok := (fFn b ≤ 5 || (8 ≤ fFn b && fFn b ≤ 0xC)) && predField (fRd b)
    srcs := [kV (fRa b), kV (fRb b)], dests := [kP (fRd b)], lat := 2 }
/-- VSEL: FN[6:3] zero; the predicate FN[2:0] is a source. -/
def vSel (b : BitVec 22) : SlotIns :=
  { slot := .v, op := 0x19, ok := fFn b < 8, srcs := [kV (fRa b), kV (fRb b), kP (fFn b % 8)], dests := [kV (fRd b)], lat := 2 }
/-- VLD: RI, vd at sa. -/
def vLd (b : BitVec 22) : SlotIns := { slot := .v, op := 0x20, srcs := [kS (fRa b)], dests := [kV (fRd b)], lat := 6 }
/-- VST: RI, vd is a source. -/
def vSt (b : BitVec 22) : SlotIns := { slot := .v, op := 0x21, srcs := [kS (fRa b), kV (fRd b)] }
/-- VLDC: IMM12[11:5] zero. -/
def vLdc (b : BitVec 22) : SlotIns :=
  { slot := .v, op := 0x22, ok := fImm b < 32, srcs := [kS (fRa b)], dests := [kV (fRd b)], lat := 6 }
/-- VSTC: IMM12[11:5] zero. -/
def vStc (b : BitVec 22) : SlotIns := { slot := .v, op := 0x23, ok := fImm b < 32, srcs := [kS (fRa b), kV (fRd b)] }
/-- VRED: FN 0 to 3, RB zero. -/
def vRed (b : BitVec 22) : SlotIns :=
  { slot := .v, op := 0x28, ok := fFn b ≤ 3 && fRb b == 0, srcs := [kV (fRa b)], dests := [kV (fRd b)], lat := 6 }
/-- VBCAST: RA names a scalar; RB and FN zero. -/
def vBcast (b : BitVec 22) : SlotIns :=
  { slot := .v, op := 0x29, ok := fRb b == 0 && fFn b == 0, srcs := [kS (fRa b)], dests := [kV (fRd b)], lat := 2 }
/-- VEXTR: RD names a scalar; FN[6:5] and RB zero. -/
def vExtr (b : BitVec 22) : SlotIns :=
  { slot := .v, op := 0x2A, ok := fFn b < 32 && fRb b == 0, srcs := [kV (fRa b)], dests := [kS (fRd b)], lat := 2 }

/-! ## Scratchpad addresses (R75, R105) -/

/-- Checks of an address: MISALIGNED first, then SCRATCH_RANGE on every word touched; the trap of the slot, if any. -/
def addrTrap (slot a align : Nat) (words : List Nat) : Option ExecTrap :=
  if a % align ≠ 0 then some ⟨slot, trapMisaligned, a, 0, 0, []⟩
  else (words.find? (fun w => decide (0x100000 ≤ w))).map (fun w => ⟨slot, trapScratchRange, w, 0, 0, []⟩)

/-- sa + IMM12 × scale mod 2^32 (R105). -/
def effAddr (base : TileData) (b : BitVec 22) (scale : Nat) : Nat :=
  (getS base (fRa b) + fSimm b * BitVec.ofNat 32 scale).toNat

/-- The word addresses of a line. -/
def lineWords (a : Nat) : List Nat := (List.range 32).map (fun i => a + 4 * i)

/-- The word addresses of a column of the block at sa: sa + 4 × column + 128 × r, each modulo 2^32 (R75). -/
def columnWords (sa col : Nat) : List Nat := (List.range 32).map (fun r => (sa + 4 * col + 128 * r) % 2 ^ 32)

/-- The traps of a parity failure of words loaded through a port: one SCRATCH_PARITY, at the parity stage c+3, which records them
(R187, R190). -/
def parityTraps (slot port : Nat) (fails : List Nat) : List ExecTrap :=
  match fails with
  | [] => []
  | a :: _ => [⟨slot, trapScratchParity, a / 4 * 4, 3, port, fails⟩]

end Sys2Proof.Machine
end

