-- ==== Sys2Proof/Machine/Exchange.lean ====
section
/-! DEFINITION. The compiled exchange: travel, links and collisions, XSEND and XRECV, the local sync, the phase (08; R38, R39, R86). -/

namespace Sys2Proof.Machine

/-! ## Units, travel, links (R207 to R209, R536) -/

/-- Attach tile of a unit: kind 0 a tile, 1 a port, 2 the engine of a port (R207). -/
def unitTile (k u : Nat) : Nat := if k = 0 then u else portTile u
/-- End term of a unit (R209). -/
def endTerm (k : Nat) : Nat := if k = 0 then 0 else if k = 1 then 2 else 4
/-- Added cycles of a seam (R209): 4 in TP1, 3 in TP2. -/
def seamCost (profile : Nat) : Nat := if profile = 2 then 3 else 4

/-- t(U, V) (R209). -/
def travel (profile sk su dk du : Nat) : Nat :=
  let a := unitTile sk su; let b := unitTile dk du
  3 + dist (globR a) (globR b) + dist (globC a) (globC b) + seamCost profile * seamsBetween (globC a) (globC b)
    + 14 * (bridgeC (globC a) (globC b) + bridgeR (globR a) (globR b)) + endTerm sk + endTerm dk

/-- Router-to-router hops of a leg: the driving router, the link code of R236, the added cycles of R16. -/
def hopsAlong (profile : Nat) (row : Bool) (fixed from_ to_ : Nat) : List (Nat × Nat × Nat) :=
  (List.range (dist from_ to_)).map (fun i =>
    let up := decide (from_ ≤ to_)
    let a := if up then from_ + i else from_ - i
    let b := if up then a + 1 else a - 1
    if row then (tileAt fixed a, if up then 2 else 4, seamCost profile * seamsBetween a b + 14 * bridgeC a b)
    else (tileAt a fixed, if up then 3 else 1, 14 * bridgeR a b))

/-- Give hops their cycles, the first in cycle y (R536). The link number is 16 · router + code. -/
def timeHops : Nat → List (Nat × Nat × Nat) → List (Nat × Nat) × Nat
  | y, [] => ([], y)
  | y, (t, c, a) :: r => let n := timeHops (y + 1 + a) r; ((16 * t + c, y) :: n.1, n.2)

/-- The links a copy needs, each with its cycle, in order (R536). -/
def pathLinks (profile : Nat) (w : Path) : List (Nat × Nat) :=
  let a := unitTile w.srcK w.src; let b := unitTile w.dstK w.dst
  let hops := hopsAlong profile true (globR a) (globC a) (globC b) ++ hopsAlong profile false (globC b) (globR a) (globR b)
  let mid := timeHops (w.enter + 2 + endTerm w.srcK) hops
  (16 * a + (8 + w.srcK), w.enter) :: mid.1 ++ [(16 * b + (5 + w.dstK), mid.2)]

/-- The links a copy really takes: none after the collision that discards it (R222, R225). -/
def liveLinks (profile : Nat) (w : Path) : List (Nat × Nat) :=
  match w.cut with
  | none => pathLinks profile w
  | some c => (pathLinks profile w).filter (fun l => decide (l.2 ≤ c))

/-! ## Faults (R235, R236) -/

/-- Count an exchange fault at a tile (R237) and in its partition. -/
def noteTileXch (t code c : Nat) (m : Mod) : Mod :=
  let m := modTd t (fun d => { d with xchFaults := satAdd 16 d.xchFaults 1 }) m
  match partOfTile m t with
  | some p => noteExch p t 0x3F code c m
  | none => m

/-- TRAP_INFO of EXCHANGE_FAULT (R236). -/
def xchInfo (m : Mod) (t c tag link code : Nat) : Nat :=
  let x := match partOfTile m t with
    | some p => xcycleAt (partOf m p) c
    | none => 0
  x <<< 20 ||| tag <<< 16 ||| link <<< 8 ||| code

/-- A fault that hardware finds at a tile outside an instruction (R90, R235): the tile traps in the cycle of the fault. -/
def tileXch (t c tag link code : Nat) (m : Mod) : Mod :=
  let m := noteTileXch t code c m
  let info := xchInfo m t c tag link code
  interrupt t (nowOf m t) (modTd t (fun d => { d with
    faultsDue := dueInsert ⟨d.pc, 8, trapExchangeFault, info, c, 0, []⟩ d.faultsDue }) m)

/-- A fault found at XSEND or XRECV: an execution trap of its slot (R235, R236). -/
def insXch (t c tag code : Nat) (m : Mod) : Mod :=
  let m := noteTileXch t code c m
  addTrap t ⟨3, trapExchangeFault, xchInfo m t c tag 0 code, 0, 0, []⟩ m

/-! ## Collisions (R222, R225) -/

/-- Does another beat take a link in a cycle? -/
def takenBy (profile : Nat) (paths : List Path) (v : Path) (l : Nat × Nat) : Bool :=
  paths.any (fun w => w.beat != v.beat && w.late == v.late && (liveLinks profile w).contains l)

/-- The first link of a copy that another beat takes in the same cycle. -/
def firstClash (profile : Nat) (paths : List Path) (w : Path) : Option (Nat × Nat) :=
  (liveLinks profile w).find? (takenBy profile paths w)

/-- Copies that share a link in a cycle are discarded there (R222, R225). -/
def cutAt (profile : Nat) (late : Bool) (l : Nat × Nat) (w : Path) : Path :=
  if w.late == late && (liveLinks profile w).contains l then { w with cut := some l.2 } else w

/-- Does a beat's copy run along a path? -/
def onPath (w : Path) (b : Beat) : Bool :=
  b.id == w.beat && (match b.dst with
    | .tile t => w.dstK == 0 && w.dst == t
    | .port q _ => w.dstK == 1 && w.dst == q
    | .engine e _ => w.dstK == 2 && w.dst == e
    | .link e _ _ _ => w.dstK == 2 && w.dst == e)

/-- Discard the copies whose paths are cut: one that is still to be read is read all the same. -/
def dropCut (x : Part) : Part :=
  let cut (b : Beat) : Bool := x.paths.any (fun w => w.cut != none && onPath w b)
  { x with beats := (x.beats.filter (fun b => !(cut b && b.src == .read))).map (fun b => if cut b then { b with lost := true } else b) }

/-- The contributions of a partition whose paths are cut. -/
def dropContribs (p : Nat) (m : Mod) : Mod :=
  let cut (c : ContribBeat) : Bool := c.part == p &&
    (partOf m p).paths.any (fun w => w.cut != none && w.beat == c.id && w.dstK == 2 && w.dst == c.engine)
  { m with contribs := m.contribs.filter (fun c => !cut c) }

/-- Put the copies of one beat on their links: each link taken twice in a cycle is a COLLISION at the router that drives it; the
tag is that of the beat put on last. A beat that moves in a stall has its fault in the exchange cycle that the stall holds (R232). -/
def placeBeat (p tag : Nat) (late : Bool) (ws : List Path) (m : Mod) : Mod :=
  let prof := (partOf m p).profile
  let clashes := (ws.filterMap (firstClash prof (partOf m p).paths)).eraseDups
  let m := modPart p (fun x => { x with paths := x.paths ++ ws }) m
  let m := clashes.foldl (fun m l => modPart p (fun x => { x with paths := x.paths.map (cutAt prof late l) }) m) m
  let m := dropContribs p (modPart p dropCut m)
  clashes.foldl (fun m l => tileXch (l.1 / 16) (if late then partNow m p else l.2) tag (l.1 % 16) xCollision m) m

/-- Tiles of a multicast group entry (R224). -/
def groupTiles (g : W32) : List Nat :=
  let v := g.toNat
  (List.range (bits v 11 6 + 1 - bits v 5 0)).flatMap (fun r =>
    (List.range (bits v 30 24 + 1 - bits v 23 17)).map (fun c => tileAt (bits v 5 0 + r) (bits v 23 17 + c)))

/-- The unit of a destination: its kind and its number (R207). -/
def dstUnit : BeatDst → Nat × Nat
  | .tile t => (0, t)
  | .port q _ => (1, q)
  | .engine e _ => (2, e)
  | .link e _ _ _ => (2, e)

/-- Send one beat: its copies are in flight from the cycle it enters in (R209, R218, R225), and belong to the present exchange phase (R214).
One that moves in a stall enters in a source cycle, and its exchange cycle is the one that is held (R232). -/
def launchBeat (p sk su : Nat) (dsts : List BeatDst) (tag : Nat) (src : BeatSrc) (readAt pc enter : Nat) (data : List W32)
    (late : Bool) (port transfer : Nat) (m : Mod) : Mod :=
  let x := partOf m p
  let id := x.beatNo
  let at_ (d : BeatDst) : Nat := enter + travel x.profile sk su (dstUnit d).1 (dstUnit d).2
  let copies := dsts.map (fun d =>
    ({ id, dst := d, tag, src, readAt := if late then at_ d else readAt, pc, data, arrive := if late then partNow m p else at_ d, late
       lost := false, port, transfer, till := x.e0 + x.xlen } : Beat))
  let m := modPart p (fun x => { x with beatNo := id + 1, beats := x.beats ++ copies }) m
  placeBeat p tag late (dsts.map (fun d => ⟨id, sk, su, (dstUnit d).1, (dstUnit d).2, enter, none, late⟩)) m

/-! ## XSEND and XRECV (R217 to R221) -/

/-- An X-slot encoding of two source registers. -/
def xIns (op : Nat) (ok : Bool) (srcs dests : List Nat) : SlotIns := { slot := .x, op, ok, srcs, dests }

/-- Do RA's reserved bits and range hold for a scratchpad address (R217)? -/
def xRangeOk (ra n : Nat) : Bool := bits ra 27 20 == 0 && bits ra 5 0 == 0 && decide (bits ra 19 0 + 64 * n ≤ 0x100000)

/-- Destinations of an XSEND (R217), or the code of its fault (R235, R341). -/
def xDests (m : Mod) (p : Nat) (rb : Nat) : List BeatDst ⊕ Nat :=
  let u := bits rb 21 16
  let portOk := decide (u ≤ 50) && (portOf m u).assigned && (portOf m u).part == p
  match bits rb 31 30 with
  | 0 => if bits rb 29 13 ≠ 0 then .inr xRange else if 5119 < bits rb 12 0 then .inr xBadRoute else .inl [.tile (bits rb 12 0)]
  | 1 =>
    let g := mget 0 (partOf m p).groups (bits rb 9 0)
    if bits rb 29 10 ≠ 0 then .inr xRange
    else if !g.getLsbD 31 then .inr xBadRoute else .inl ((groupTiles g).map .tile)
  | 2 => if bits rb 29 22 ≠ 0 then .inr xRange else if !portOk then .inr xBadRoute else .inl [.port u (bits rb 15 0)]
  | _ => if bits rb 29 22 ≠ 0 then .inr xRange else if !portOk || bits rb 11 10 == 3 then .inr xBadRoute
    else .inl [.engine u (bits rb 15 0)]

/-- SRC of a contribution (R340): 0 for every other destination. -/
def xSrc (rb : Nat) : Nat := if bits rb 31 30 = 3 then bits rb 11 10 else 0

/-- Does an XSEND's source range hold (R217, R341)? -/
def xSourceOk (d : TileData) (ra rb n : Nat) : Bool :=
  match xSrc rb with
  | 1 => bits ra 27 20 == 0 && bits ra 5 0 == 0 && !d.wgbExact && decide (bits ra 19 0 + 64 * n ≤ 0x30000)
  | 2 => bits ra 27 20 == 0 && bits ra 5 0 == 0 && d.wgbExact && decide (bits ra 19 0 + 64 * n ≤ 0x30000) && n % 2 == 0
  | _ => xRangeOk ra n

/-- Is a local cycle an exchange cycle (R214)? -/
def inPhase (x : Part) (c : Nat) : Bool := decide (x.e0 ≤ c) && decide (c < x.e0 + x.xlen)

/-- XSEND (R217 to R219, R340, R341): checks in the order phase, range, destination, XO (log entry 26). -/
def xsendEff (t : Nat) (b : BitVec 22) (e : SlotEnv) (m : Mod) : Mod :=
  match partOfTile m t with
  | none => m
  | some p =>
    let d := tdOf m t
    let ra := (getS e.base (fRd b)).toNat
    let rb := (getS e.base (fRa b)).toNat
    let n := fImm b + 1
    let tag := bits ra 31 28
    let c := e.cycle
    if !inPhase (partOf m p) c then insXch t c tag xOutOfPhase m
    else if !xSourceOk d ra rb n then insXch t c tag xRange m
    else match xDests m p rb with
      | .inr code => insXch t c tag code m
      | .inl dsts =>
        if c < d.xoFree then insXch t c tag xXoBusy m
        else
          let m := modTd t (fun d => { d with xoFree := c + n }) m
          let off := bits ra 19 0
          (List.range n).foldl (fun m k =>
            let src : BeatSrc := match xSrc rb with
              | 0 => .scratch t (off + 64 * k)
              | s => .wgb t (off + 64 * k) (s == 2)
            launchBeat p 0 t dsts tag src (c + 2 + k) e.base.pc (c + 5 + k) [] false 0x3F k m) m

/-- XSEND. -/
def execXsend (j : Issue) (b : BitVec 22) (s : State) : Ans :=
  issueX (xIns 0x01 true [kS (fRd b), kS (fRa b)] []) (xsendEff j.tile.val b) j b s

/-- The tags of the receives that are armed in a cycle: one whose last beat lands in it still is (R220). -/
def armedTags (c : Nat) (d : TileData) : List Nat :=
  d.armed.map (·.tag) ++ (d.disarming.filter (fun r => decide (c ≤ r.2))).map (·.1)

/-- XRECV (R217, R220, R221): checks in the order phase, range, arming. -/
def xrecvEff (t : Nat) (b : BitVec 22) (e : SlotEnv) (m : Mod) : Mod :=
  match partOfTile m t with
  | none => m
  | some p =>
    let d := tdOf m t
    let ra := (getS e.base (fRd b)).toNat
    let n := fImm b + 1
    let tag := bits ra 31 28
    let c := e.cycle
    if !inPhase (partOf m p) c then insXch t c tag xOutOfPhase m
    else if !xRangeOk ra n then insXch t c tag xRange m
    else if (armedTags c d).contains tag || decide (4 ≤ (armedTags c d).length) then insXch t c tag xArmError m
    else modTd t (fun d => { d with armed := d.armed ++ [{ tag, addr := bits ra 19 0, beats := n, landed := 0, since := c + 1 }] }) m

/-- XRECV. -/
def execXrecv (j : Issue) (b : BitVec 22) (s : State) : Ans :=
  issueX (xIns 0x02 (fRa b == 0) [kS (fRd b)] []) (xrecvEff j.tile.val b) j b s

/-! ## The local sync (R42, R86, R211, R213) -/

/-- HALF_RETURN of a record. -/
def recHalfReturn (r : W64) : Bool := r.getLsbD 29
/-- Is a record TICKED? -/
def recTicked (r : W64) : Bool := bits r.toNat 31 30 == 1
/-- E of a record. -/
def recLen (r : W64) : Nat := bits r.toNat 19 0 + 1
/-- The exchange record of the current superstep (R211). -/
def curRecord (x : Part) : W64 := mget 0 x.records (stepIndex x)

/-- Tiles of the job that take part in the local sync: those that are not ENDED (R86). -/
def syncTiles (m : Mod) (p : Nat) : List Nat := (tilesOfPart m p).filter (fun t => (tdOf m t).st ≠ .ended)

/-- Tiles in SYNC now wait for the tick of the exchange start (R86): WAIT_CAUSE becomes 0x3. -/
def waitTick (p : Nat) (m : Mod) : Mod :=
  (tilesOfPart m p).foldl (fun m t =>
    if (tdOf m t).wait.kind = .sync then modTd t (fun d => { d with wait := { d.wait with kind := .tick } }) m else m) m

/-- LOCAL_SYNC_CLOSE (R86, R211, R213, R215, R42): once the last participant has arrived, and not before the boundary, the sync closes and
the record is selected. Where no tick follows, the tiles keep WAIT_CAUSE 0x2 from the close to e0: R86 and the table of wait causes do not
say what they show between (DESIGN CHOICE, log entry 121). -/
def trySync (p : Nat) (m : Mod) : Mod :=
  let x := partOf m p
  let need := syncTiles m p
  if x.jstate ≠ .running || x.xphase ≠ .compute || x.closedAt ≠ none || need.isEmpty || !need.all x.arrived.contains then m
  else
    let r := curRecord x
    let m := modPart p (fun x => { x with closedAt := some (Nat.max x.lastArrive x.boundary), arrived := [], record := stepIndex x }) m
    if !r.getLsbD 32 then moduleXch p xNoRecord 0x3F m
    else
      let slow := (maskBits 8 x.halves).any (fun h => (halfSt m h).clk == .half)
      let m := if slow && !recHalfReturn r then moduleXch p xClockState 0x3F m else m
      let due := match nextEvent x with
        | some e => e.superstep == stepIndex x
        | none => false
      tryReady p (if recTicked r || due then waitTick p m else m)

/-- The effect of SYNC in its slot (R86): the tile arrives and waits. -/
def syncEff (t : Nat) (e : SlotEnv) (m : Mod) : Mod :=
  let m := match partOfTile m t with
    | some p => modPart p (fun x => { x with arrived := t :: x.arrived.filter (· ≠ t), lastArrive := Nat.max x.lastArrive e.cycle }) m
    | none => m
  setWait t .sync m

/-- SYNC (R86). -/
def execSync (j : Issue) (b : BitVec 22) (s : State) : Ans :=
  match issueX (xIns 0x18 (b == 0) [] []) (syncEff j.tile.val) j b s with
  | .next s => onMod (fun m =>
      match partOfTile m j.tile.val with
      | some p => trySync p m
      | none => m) s
  | a => a

/-! ## The phase (R39, R212, R214) -/

/-- Release a tile that waits in SYNC or for a tick: its next bundle issues at a cycle (R84, R212). -/
def releaseAt (next t : Nat) (m : Mod) : Mod :=
  let d := tdOf m t
  if d.st = .waiting && (d.wait.kind == .sync || d.wait.kind == .tick) then
    let m := modTd t (fun d => { countWait next d with st := .running, wait := {}, nextIssue := next }) m
    if d.oneBundle then trapTile t d.pc 0 trapStopped 0 next false false m else m
  else m

end Sys2Proof.Machine
end

