-- ==== Sys2Proof/Machine/Channels.lean ====
section
/-! DEFINITION. Dynamic channels: COPEN, CCLOSE, CSEND, CRECV, their packets and timeouts (R239 to R260, R270). -/

namespace Sys2Proof.Machine

/-! ## Status words, handles (R241 to R244) -/

/-- Channel status codes (R242). -/
abbrev chOk : Nat := 0
abbrev chFull : Nat := 1
abbrev chClosed : Nat := 2
abbrev chTimeout : Nat := 3
abbrev chBroken : Nat := 4

/-- A status word (R244). -/
def statusWord (code value : Nat) : W32 := BitVec.ofNat 32 (value % 65536 * 65536 + code)

/-- Write the status of an X-slot instruction that completes at a cycle. -/
def putStatus (t rd code value cycle : Nat) (m : Mod) : Mod :=
  modTd t (xResult (kS rd) (statusWord code value) (coreK m t) cycle) m

/-- Free a handle. -/
def dropHandle (t h : Nat) (m : Mod) : Mod := modTd t (fun d => { d with handles := mset 0 d.handles h 0 }) m

/-- The pool entries in use, rising. -/
def usedEps (m : Mod) : List Nat := (m.pool.filter (fun e => decide (e.2.state ≠ .free))).map (·.1)

/-- The valid targets of a channel group: module, endpoint, port (R260). -/
def groupTargets (m : Mod) (g : Nat) : List (Nat × Nat × Nat) :=
  ((List.range 16).map (fun j => (mget 0 m.cgroups (16 * g + j)).toNat)).filterMap (fun v =>
    if bit v 63 then some (bits v 13 0, bits v 62 48, bits v 47 42) else none)

/-- The targets of a connection: module, endpoint, port. -/
def connTargets (m : Mod) (e : Ep) : List (Nat × Nat × Nat) :=
  if e.kind = .sendMulti then groupTargets m e.target else [(e.module, e.target, e.port)]

/-- A packet of a connection to its i-th target. -/
def forthPkt (kind : PktKind) (m : Mod) (conn : Nat) (tgt : Nat × Nat × Nat) (i amount code : Nat) (words : List W32) : ChanPkt :=
  let e := epOf m conn
  { kind, conn := connKey m conn, connModule := m.moduleNum, ep := tgt.2.1, epModule := if isHere m tgt.1 then m.moduleNum else tgt.1, tgt := i
    jobTag := BitVec.ofNat 16 e.tag, srcTile := e.owner, amount, code, words }

/-- Send a packet of a connection, accepted in a cycle, to its i-th target (R258). -/
def sendForth (kind : PktKind) (conn : Nat) (tgt : Nat × Nat × Nat) (i amount code : Nat) (words : List W32) (c : Nat) (m : Mod) : Mod :=
  let at_ := if isHere m tgt.1 then pktArrives m (connTile m conn) (epOf m tgt.2.1).owner c else c
  sendChan tgt.2.2 at_ (forthPkt kind m conn tgt i amount code words) m

/-- Send a packet to the targets of a connection that a test of their place takes. -/
def sendSome (kind : PktKind) (conn amount code : Nat) (words : List W32) (c : Nat) (chosen : Nat → Bool) (m : Mod) : Mod :=
  let l := connTargets m (epOf m conn)
  ((List.range l.length).filter chosen).foldl (fun m i => sendForth kind conn (nth (0, 0, 63) l i) i amount code words c m) m

/-- Send a packet to every target of a connection. -/
def sendAll (kind : PktKind) (conn amount code : Nat) (words : List W32) (c : Nat) (m : Mod) : Mod :=
  sendSome kind conn amount code words c (fun _ => true) m

/-! ## COPEN and CCLOSE (R245 to R248) -/

/-- Do COPEN's operands hold (R243)? -/
def copenOk (ra rb : Nat) : Bool :=
  bits ra 15 14 == 0 && (!bit ra 31 || bits ra 30 26 == 0) && (decide (bits ra 13 0 ≤ 9999) || bits ra 13 0 == 0x3FFF) &&
    bits rb 15 6 == 0 && decide (1 ≤ bits rb 31 16) && decide (bits rb 31 16 ≤ 4096) && (decide (bits rb 5 0 ≤ 50) || bits rb 5 0 == 63)

/-- Can a target's module be reached through its port (R245)? -/
def reachable (m : Mod) (p : Nat) (tgt : Nat × Nat × Nat) : Bool :=
  isHere m tgt.1 ||
    (decide (tgt.2.2 ≤ 50) && (portOf m tgt.2.2).assigned && (portOf m tgt.2.2).part == p && (portOf m tgt.2.2).state == .up)

/-- Is a target a free pool entry of this module (R246)? It is answered from the pool table without travel. -/
def freeHere (m : Mod) (tgt : Nat × Nat × Nat) : Bool := isHere m tgt.1 && (epOf m tgt.2.1).state == .free

/-- COPEN (R241, R245, R246). Where one target of a group cannot be reached, none is asked, and the answer comes 6 cycles after issue as from
the pool table: R245 gives it no cycle (DESIGN CHOICE, log entry 144). -/
def copenEff (t : Nat) (b : BitVec 22) (e : SlotEnv) (m : Mod) : Mod :=
  let ra := (getS e.base (fRa b)).toNat
  let rb := (getS e.base (fRb b)).toNat
  let p := (partOfTile m t).getD 0
  let held := (tdOf m t).handles.map (·.1)
  let used := usedEps m
  if decide (64 ≤ held.length) || decide (32768 ≤ used.length) then putStatus t (fRd b) chFull 0 e.cycle m
  else
    let tgts := if bit ra 31 then groupTargets m (bits ra 25 16) else [(bits ra 13 0, bits ra 30 16, bits rb 5 0)]
    let away (i : Nat) : Bool := !freeHere m (nth (0, 0, 63) tgts i)
    let asked := ((List.range tgts.length).filter away).length
    if asked = 0 || !tgts.all (reachable m p) then putStatus t (fRd b) chClosed 0 (e.cycle + 6) m
    else
      let f := takeFree m
      let k := kthFree used (Config.poolChoice f.1 % (32768 - used.length))
      let h := kthFree held 0
      let m := modEp k (fun e =>
        { freeEp e with
          openings := e.openings + 1, state := .opening, kind := if bit ra 31 then .sendMulti else .send, owner := t, handle := h, tag := (partOf m p).tag.toNat
          module := if isHere m (bits ra 13 0) then m.moduleNum else bits ra 13 0
          target := if bit ra 31 then bits ra 25 16 else bits ra 30 16, port := bits rb 5 0, quota := bits rb 31 16 }) f.2
      let m := modTd t (fun d => { d with
        handles := mset 0 d.handles h (k + 1)
        xpend := (owes [kS (fRd b)] e.cycle d).xpend
        copens := d.copens ++ [{ handle := h, conn := k, rd := fRd b, since := e.cycle, awaiting := asked
                                 closed := decide (asked < tgts.length), full := false, granted := [], lost := false }] }) m
      sendSome .openReq k (bits rb 31 16) 0 [] e.cycle away m

/-- COPEN. -/
def execCopen (j : Issue) (b : BitVec 22) (s : State) : Ans :=
  issueXIf (xIns 0x10 (fFn b == 0) [kS (fRa b), kS (fRb b)] [kS (fRd b)])
    (fun _ e => copenOk (getS e.base (fRa b)).toNat (getS e.base (fRb b)).toNat) (copenEff j.tile.val b) j b s

/-- A receive endpoint closes (R248): a close notice to every connection; messages landed stay. -/
def closeEndpoint (k c : Nat) (m : Mod) : Mod :=
  let e := epOf m k
  if e.state ≠ .opened then m
  else e.conns.foldl (fun m x =>
      sendBack (if isHere m x.1 then pktArrives m e.owner (connTile m x.2.1) c else c) (backPkt .closeNotice m k x.1 x.2.1 x.2.2.1 0 0) m)
    (modEp k (fun e => { e with state := .closed }) m)

/-- A send connection is closed by its tile (R247): the handle is free, and the pool entry once every target has acknowledged. -/
def closeConn (t h k c : Nat) (m : Mod) : Mod :=
  let m := dropHandle t h (modEp k (fun e => { e with state := .closed, closing := true, acks := (connTargets m e).length }) m)
  sendAll .close k 0 0 [] c m

/-- Is an entry a receive endpoint? -/
def isReceive (e : Ep) : Bool := e.kind == .opq || e.kind == .ring
/-- Is an entry the send side of a connection? -/
def isSend (e : Ep) : Bool := e.kind == .send || e.kind == .sendMulti

/-- CCLOSE (R247, R248). -/
def ccloseEff (t : Nat) (b : BitVec 22) (e : SlotEnv) (m : Mod) : Mod :=
  let h := bits (getS e.base (fRa b)).toNat 5 0
  match handleEp m t h with
  | none => putStatus t (fRd b) chClosed 0 e.cycle m
  | some k =>
    let x := epOf m k
    if x.state = .opening || (isReceive x && x.state == .closed) then
      putStatus t (fRd b) chClosed 0 e.cycle (modEp k (fun x => { x with closedRet := satAdd 16 x.closedRet 1 }) m)
    else putStatus t (fRd b) chOk 0 e.cycle (if isReceive x then closeEndpoint k e.cycle m else closeConn t h k e.cycle m)

/-- CCLOSE. -/
def execCclose (j : Issue) (b : BitVec 22) (s : State) : Ans :=
  issueXIf (xIns 0x11 (bits b.toNat 11 0 == 0) [kS (fRa b)] [kS (fRd b)]) (fun _ e => bits (getS e.base (fRa b)).toNat 31 6 == 0)
    (ccloseEff j.tile.val b) j b s

/-- A tile that is reset closes its receive endpoints (R248, R484); its connections stay. -/
def closeReceives (t c : Nat) (m : Mod) : Mod :=
  (tdOf m t).handles.foldl (fun m x => if isReceive (epOf m (x.2 - 1)) then closeEndpoint (x.2 - 1) c m else m) m

/-- A tile that ends closes all it holds (R82, R247, R248). -/
def closeTile (t c : Nat) (m : Mod) : Mod :=
  (tdOf m t).handles.foldl (fun m x =>
    let k := x.2 - 1
    if isReceive (epOf m k) then closeEndpoint k c m
    else if (epOf m k).state = .opening then dropHandle t x.1 m
    else closeConn t x.1 k c m) m

/-! ## Sending (R249, R250, R252) -/

/-- Cost of a message (R250). -/
def msgCost (ring : Bool) (len : Nat) : Nat := if ring then (8 + len + 127) / 128 else 1

/-- Do the operands of CSEND and CSENDNB hold (R243, R250)? A handle of an entry of the wrong kind raises RESERVED_FIELD whether that entry is
open or not: R243 says it of an open one only (DESIGN CHOICE, log entry 146). -/
def csendOk (t : Nat) (b : BitVec 22) (m : Mod) (e : SlotEnv) : Bool :=
  let ra := (getS e.base (fRa b)).toNat
  let len := bits ra 28 16
  bits ra 31 29 == 0 && bits ra 15 6 == 0 &&
    (match handleEp m t (bits ra 5 0) with
      | none => true
      | some k =>
        let x := epOf m k
        isSend x && (x.state != .opened ||
          (if x.ring then decide (1 ≤ len) && decide (len ≤ 4096) && bits b.toNat 6 2 == 0 && decide (msgCost true len ≤ x.quota)
            else len == 0)))

/-- Has a connection the credit for a message at every target? -/
def creditOk (m : Mod) (k cost : Nat) : Bool := (epOf m k).credits.all (fun c => decide (cost ≤ c))

/-- Count a message dropped at its sender (R249): at the tile, and at its connection while that is still its. -/
def countDropped (k t : Nat) (m : Mod) : Mod :=
  let x := epOf m k
  let m := if x.state = .free || !isSend x || x.owner ≠ t then m else modEp k (fun x => { x with dropped := satAdd 16 x.dropped 1 }) m
  modTd t (fun d => { d with dropped := satAdd 32 d.dropped 1 }) m

/-- Bytes of the words beyond LENGTH are not delivered (R252). -/
def trimWords (len : Nat) (ws : List W32) : List W32 :=
  leWords ((len + 3) / 4) (wordsNat ws % 2 ^ (8 * len))

/-- A send is accepted in a cycle (R250, R252): the credit is taken at every target, the message copied, one packet sent to each. A
ring message is read through DR. -/
def acceptSend (t k cost : Nat) (words : List W32) (len addr c : Nat) (m : Mod) : Mod :=
  let x := epOf m k
  let m := if x.ring then drParity t ((List.range ((len + 3) / 4)).map (fun i => addr + 4 * i)) m else m
  let ws := if x.ring then trimWords len (spWords (tdOf m t) addr ((len + 3) / 4)) else words
  let m := modEp k (fun x => { x with
    credits := x.credits.map (· - cost), messages := satAdd 32 x.messages 1, sent := x.sent + 1 }) m
  sendAll (if x.ring then .ring else .opq) k len (x.sent % 65536) ws c m

/-- The cycle in which the copy of an accepted message completes (R252): a ring source takes one DR access for each 128-byte line
it touches (log entry 28). -/
def copyEnd (ring : Bool) (len addr c k : Nat) : Nat :=
  if ring then c + ((addr + (len + 3) / 4 * 4 + 127) / 128 - addr / 128) * k else c

/-- CSEND and CSENDNB (R249, R252). -/
def csendEff (block : Bool) (t : Nat) (b : BitVec 22) (e : SlotEnv) (m : Mod) : Mod :=
  let ra := (getS e.base (fRa b)).toNat
  let rb := getS e.base (fRb b)
  let rc := getS e.base (bits b.toNat 6 2)
  let h := bits ra 5 0
  let len := bits ra 28 16
  match handleEp m t h with
  | none => putStatus t (fRd b) chClosed 0 e.cycle m
  | some k =>
    let x := epOf m k
    if x.state ≠ .opened then
      if x.state = .closed then
        putStatus t (fRd b) chClosed 0 e.cycle (countDropped k t (modEp k (fun x => { x with closedRet := satAdd 16 x.closedRet 1 }) m))
      else putStatus t (fRd b) chClosed 0 e.cycle m
    else
      let addr := rb.toNat
      let n := (len + 3) / 4 * 4
      if x.ring && addr % 4 != 0 then addTrap t ⟨3, trapMisaligned, addr, 0, 0, []⟩ m
      else if x.ring && decide (0x100000 < addr + n) then addTrap t ⟨3, trapScratchRange, Nat.max addr 0x100000, 0, 0, []⟩ m
      else
        let cost := msgCost x.ring len
        if creditOk m k cost then
          let done := copyEnd x.ring len addr e.cycle (coreK m t)
          let m := putStatus t (fRd b) chOk 0 done (acceptSend t k cost [rb, rc] len addr e.cycle m)
          if x.ring then setWaitDue t (.csend h (fRd b) cost [rb, rc] len addr) done m else m
        else if block then
          setWait t (.csend h (fRd b) cost [rb, rc] len addr)
            (modTd t (owes [kS (fRd b)] e.cycle) m)
        else putStatus t (fRd b) chFull 0 e.cycle (modEp k (fun x => { x with fullRet := satAdd 16 x.fullRet 1 }) m)

/-- The encoding of CSEND and CSENDNB. -/
def csendIns (op : Nat) (b : BitVec 22) : SlotIns :=
  xIns op (bits b.toNat 1 0 == 0) [kS (fRa b), kS (fRb b), kS (bits b.toNat 6 2)] [kS (fRd b)]

/-- CSEND. -/
def execCsend (j : Issue) (b : BitVec 22) (s : State) : Ans :=
  issueXIf (csendIns 0x12 b) (csendOk j.tile.val b) (csendEff true j.tile.val b) j b s
/-- CSENDNB. -/
def execCsendnb (j : Issue) (b : BitVec 22) (s : State) : Ans :=
  issueXIf (csendIns 0x13 b) (csendOk j.tile.val b) (csendEff false j.tile.val b) j b s

/-- A waiting CSEND completes with a status at a cycle, its wait for credit over at another (R252, R259): until then it still waits. -/
def endSend (t rd code c done : Nat) (m : Mod) : Mod :=
  let m := leaveWait t c m
  endWait t done (putStatus t rd code 0 done (modTd t (fun d => { d with shown := (d.wait.kind, done) }) m))

/-- A waiting CSEND of a tile takes the credit as soon as every target has it (R252, R258). -/
def retrySend (t c : Nat) (m : Mod) : Mod :=
  let d := tdOf m t
  match d.st, d.wait.kind with
  | .waiting, .csend h rd cost words len addr =>
    match handleEp m t h with
    | some k =>
      if (epOf m k).state = .opened && creditOk m k cost then
        let c := Nat.max c (d.nextIssue - coreK m t)
        endSend t rd chOk c (copyEnd (epOf m k).ring len addr c (coreK m t)) (acceptSend t k cost words len addr c m)
      else m
    | none => m
  | _, _ => m

/-! ## Receiving (R255) -/

/-- CRECV takes the head of the queue at a cycle: word WORD to RD, ones to PD; with POP the entry goes and its credit returns. -/
def takeMessage (t k rd pd : Nat) (word pop : Bool) (c : Nat) (m : Mod) : Mod :=
  match (epOf m k).opq with
  | [] => m
  | (w0, w1, cm, conn, tgt) :: r =>
    let m := modTd t (fun d => xResult (kP pd) (BitVec.allOnes 32) (coreK m t) c (xResult (kS rd) (if word then w1 else w0) (coreK m t) c d)) m
    if pop then returnCredit k cm conn tgt 1 c (modEp k (fun x => { x with opq := r }) m) else m

/-- CRECV ends with a status other than OK: PD reads zeros. -/
def failReceive (t rd pd code c : Nat) (m : Mod) : Mod :=
  modTd t (xResult (kP pd) 0 (coreK m t) c) (putStatus t rd code 0 c m)

/-- PD of CRECV. -/
def fPd (b : BitVec 22) : Nat := bits b.toNat 11 9

/-- Do the operands of CRECV and CRECVNB hold (R243; log entry 146)? -/
def crecvOk (t : Nat) (b : BitVec 22) (m : Mod) (e : SlotEnv) : Bool :=
  let ra := (getS e.base (fRa b)).toNat
  bits ra 31 6 == 0 && (match handleEp m t (bits ra 5 0) with
    | none => true
    | some k => (epOf m k).kind == .opq)

/-- CRECV and CRECVNB (R255). -/
def crecvEff (block : Bool) (t : Nat) (b : BitVec 22) (e : SlotEnv) (m : Mod) : Mod :=
  let h := bits (getS e.base (fRa b)).toNat 5 0
  let word := bit b.toNat 8
  let pop := bit b.toNat 7
  match handleEp m t h with
  | none => failReceive t (fRd b) (fPd b) chClosed e.cycle m
  | some k =>
    let x := epOf m k
    if !x.opq.isEmpty then takeMessage t k (fRd b) (fPd b) word pop e.cycle m
    else if x.state ≠ .opened then
      failReceive t (fRd b) (fPd b) chClosed e.cycle (modEp k (fun x => { x with closedRet := satAdd 16 x.closedRet 1 }) m)
    else if block then
      setWait t (.crecv h (fRd b) (fPd b) word pop)
        (modTd t (owes [kS (fRd b), kP (fPd b)] e.cycle) m)
    else failReceive t (fRd b) (fPd b) chTimeout e.cycle m

/-- The encoding of CRECV and CRECVNB. -/
def crecvIns (op : Nat) (b : BitVec 22) : SlotIns :=
  xIns op (fFn b == 0) [kS (fRa b)] [kS (fRd b), kP (fPd b)]

/-- CRECV. -/
def execCrecv (j : Issue) (b : BitVec 22) (s : State) : Ans :=
  issueXIf (crecvIns 0x14 b) (crecvOk j.tile.val b) (crecvEff true j.tile.val b) j b s
/-- CRECVNB. -/
def execCrecvnb (j : Issue) (b : BitVec 22) (s : State) : Ans :=
  issueXIf (crecvIns 0x15 b) (crecvOk j.tile.val b) (crecvEff false j.tile.val b) j b s

/-! ## Packets arriving (R245 to R255, R382, R386) -/

/-- The command that stands for the arrival of a channel packet at a port. -/
def arrivalOf (q : PortId) (k : ChanPkt) : Instr :=
  match k.kind with
  | .openReq => .openRequest (.port q k)
  | .openReply => .copenReply (.port q k)
  | .close => .closeAck (.port q k)
  | .closeNotice => .closeNotice (.port q k)
  | .closeAck => .closeAck (.port q k)
  | .credit => .creditReturn (.port q k)
  | .drop => .dropNotice (.port q k)
  | .opq => .opqLanding (.port q k)
  | .ring => .ringRecordLanding (.port q k)

/-- Do two packets belong to one connection and go one way: they keep their order (R251, R256)? -/
def sameWay (a b : ChanPkt) : Bool :=
  a.conn == b.conn && a.connModule == b.connModule && a.ep == b.ep && a.epModule == b.epModule && a.tgt == b.tgt &&
    pktForth a.kind == pktForth b.kind

/-- Give a channel packet to its handler, with the cycle of its arrival: one in flight within the module, which holds in a stall of its
partition (R232) and passes no earlier one of its connection (R251), or one from a link, which is dropped at a port that does not carry its
job and forwarded when it is for another module (R382, R386). -/
def withPacket (src : PktFrom) (kinds : List PktKind) (f : ChanPkt → Nat → Mod → Mod) (m : Mod) : Mod :=
  match src with
    | .flight k =>
      (match nth? m.flight k with
        | none => m
        | some x =>
          if !kinds.contains x.pkt.kind || m.power.active || ((partOfTag m x.pkt.jobTag.toNat).any (fabricHeld m)) ||
              (m.flight.take k).any (fun y => sameWay y.pkt x.pkt) then m
          else f x.pkt x.at_ { m with flight := dropNth m.flight k })
    | .port q pkt =>
      if !kinds.contains pkt.kind then m
      else whenMoving q.val (arrivalOf q pkt) (fun m =>
        if !portTakes m q.val pkt.jobTag then routeDrop q.val m
        else if isHere m (pktDest pkt) then
          if m.flight.any (fun y => sameWay y.pkt pkt) then { m with flight := m.flight ++ [{ pkt, at_ := m.now }] } else f pkt m.now m
        else match forwardPort m (pktDest pkt) with
          | some o =>
            if (portOf m o).assigned && (portOf m o).part == (portOf m q.val).part && decide (pkt.hops.toNat + 1 ≤ 8) then
              sendChanLink o { pkt with hops := pkt.hops + 1 } { m with forwarded := satAdd 32 m.forwarded 1 }
            else routeDrop q.val m
          | none => routeDrop q.val m) m

/-- OPEN_REQUEST (R245): the target decides. The reply says whether its endpoint is a ring. FULL and CLOSED count in FULL_RETURNS and
CLOSED_RETURNS of the endpoint that refuses: the spec does not say where (DESIGN CHOICE, log entry 145). -/
def openRequest (k : ChanPkt) (c : Nat) (m : Mod) : Mod :=
  let x := epOf m k.ep
  let code := if !isReceive x || x.state ≠ .opened || x.tag ≠ k.jobTag.toNat then chClosed
    else if x.credit < k.amount then chFull else chOk
  let m := modEp k.ep (fun x =>
    if code = chOk then { x with credit := x.credit - k.amount, conns := x.conns ++ [(k.connModule, k.conn, k.tgt, k.amount)] }
    else if x.state = .free then x
    else if code = chFull then { x with fullRet := satAdd 16 x.fullRet 1 } else { x with closedRet := satAdd 16 x.closedRet 1 }) m
  let at_ := if isHere m k.connModule then pktArrives m (if x.state = .free then k.srcTile else x.owner) k.srcTile c else c
  sendBack at_ { backPkt .openReply m k.ep k.connModule k.conn k.tgt k.amount (code + 16 * b2n (x.kind == .ring)) with
    jobTag := k.jobTag, srcTile := k.srcTile } m

/-- OPEN_REQUEST. -/
def execOpenRequest (src : PktFrom) (s : State) : Ans := onModIf (fromOk [.openReq] src) (withPacket src [.openReq] openRequest) s

/-- A grant with no COPEN waiting is answered with a close (R246), which carries what the request carried; to another module it takes the
port that the forwarding entry names. -/
def lateClose (k : ChanPkt) (c : Nat) (m : Mod) : Mod :=
  let r : ChanPkt := { k with kind := .close, amount := 0, code := 0, words := [], hops := 0 }
  if isHere m k.epModule then sendChan 63 (pktArrives m k.srcTile (epOf m k.ep).owner c) r m
  else match forwardPort m k.epModule with
    | some q => if portTakes m q k.jobTag then sendChan q c r m else dropOutgoing (partOfTag m k.jobTag.toNat) q m
    | none => dropOutgoing (partOfTag m k.jobTag.toNat) 0x3F m

/-- COPEN_REPLY (R245, R246): the last reply completes the COPEN. A grant with no COPEN waiting is answered with a close. -/
def copenReply (k : ChanPkt) (c : Nat) (m : Mod) : Mod :=
  let t := k.srcTile
  let code := k.code % 16
  let n := connEntry k.conn
  match (tdOf m t).copens.find? (fun x => x.conn == n && connHeld m k.conn) with
  | none => if code = chOk then lateClose k c m else m
  | some x =>
    let x := { x with
      awaiting := x.awaiting - 1, closed := x.closed || code == chClosed, full := x.full || code == chFull
      granted := if code = chOk then x.granted ++ [k.tgt] else x.granted }
    let rest := (tdOf m t).copens.filter (fun y => y.conn != n)
    let m := modEp n (fun e => { e with ring := e.ring || k.code / 16 == 1 }) m
    if x.awaiting ≠ 0 then modTd t (fun d => { d with copens := rest ++ [x] }) m
    else
      let tgts := connTargets m (epOf m n)
      let m := modTd t (fun d => { d with copens := rest }) m
      if !x.closed && !x.full then
        putStatus t x.rd chOk x.handle c
          (modEp n (fun e => { e with state := if x.lost then .closed else .opened, credits := tgts.map (fun _ => e.quota), credit := e.quota }) m)
      else
        let m := x.granted.foldl (fun m i => sendForth .close n (nth (0, 0, 63) tgts i) i 0 0 [] c m) m
        putStatus t x.rd (if x.closed then chClosed else chFull) 0 c (dropHandle t x.handle (modEp n freeEp m))

/-- COPEN_REPLY. -/
def execCopenReply (src : PktFrom) (s : State) : Ans := onModIf (fromOk [.openReply] src) (withPacket src [.openReply] copenReply) s

/-- COPEN_TIMEOUT (R246): no last reply within STALL_LIMIT × 1,024 cycles of issue; grants are given back. -/
def execCopenTimeout (t : TileId) (h : Fin 64) (s : State) : Ans :=
  onMod (fun m =>
    let t := t.val
    let d := tdOf m t
    match d.copens.find? (fun x => x.handle == h.val) with
    | none => m
    | some x =>
      let due := x.since + d.stallLimit * 1024
      if nowOf m t < due || !clockRuns m t then m
      else
        let tgts := connTargets m (epOf m x.conn)
        let m := modTd t (fun d => { d with copens := d.copens.filter (fun y => y.handle != h.val) }) m
        let m := x.granted.foldl (fun m i => sendForth .close x.conn (nth (0, 0, 63) tgts i) i 0 0 [] due m) m
        putStatus t x.rd chTimeout 0 due (dropHandle t x.handle (modEp x.conn freeEp m))) s

/-- CLOSE_NOTICE (R249, R260): the connection is closed; a CSEND waiting on it completes with CLOSED. One whose COPEN still waits for
replies is closed as it opens; one that an earlier holder of the entry was to hear changes nothing. -/
def closeNotice (k : ChanPkt) (c : Nat) (m : Mod) : Mod :=
  let n := connEntry k.conn
  let e := epOf m n
  if !connHeld m k.conn then m
  else if e.state = .opening then
    modTd e.owner (fun d => { d with copens := d.copens.map (fun x => if x.conn = n then { x with lost := true } else x) }) m
  else if e.state ≠ .opened || !isSend e then m
  else
    let m := modEp n (fun e => { e with state := .closed }) m
    let d := tdOf m e.owner
    match d.st, d.wait.kind with
    | .waiting, .csend h rd .. =>
      if handleEp m e.owner h = some n then
        endSend e.owner rd chClosed c c
          (countDropped n e.owner (modEp n (fun e => { e with closedRet := satAdd 16 e.closedRet 1 }) m))
      else m
    | _, _ => m

/-- CLOSE_NOTICE. -/
def execCloseNotice (src : PktFrom) (s : State) : Ans := onModIf (fromOk [.closeNotice] src) (withPacket src [.closeNotice] closeNotice) s

/-- The pool entry of a closed connection is free when its last target has acknowledged (R247). -/
def closeAcked (k : ChanPkt) (m : Mod) : Mod :=
  let e := epOf m (connEntry k.conn)
  if e.closing && isSend e && connHeld m k.conn then modEp (connEntry k.conn) (fun e => if e.acks ≤ 1 then freeEp e else { e with acks := e.acks - 1 }) m else m

/-- CLOSE_ACK (R247): a close reaches its target, which returns the quota and acknowledges, or the acknowledgement arrives. -/
def closeAck (k : ChanPkt) (c : Nat) (m : Mod) : Mod :=
  if k.kind = .closeAck then closeAcked k m
  else
    let e := epOf m k.ep
    let mine (x : Nat × Nat × Nat × Nat) : Bool := x.1 == k.connModule && x.2.1 == k.conn && x.2.2.1 == k.tgt
    let quota := ((e.conns.filter mine).map (fun x => x.2.2.2)).foldl (· + ·) 0
    let held := (e.opq.filter (fun x => x.2.2.1 == k.connModule && x.2.2.2.1 == k.conn && x.2.2.2.2 == k.tgt)).length +
      ((e.recs.filter (fun x => x.2.2.1 == k.connModule && x.2.2.2.1 == k.conn && x.2.2.2.2 == k.tgt)).map (fun x => x.2.1)).foldl (· + ·) 0
    let m := modEp k.ep (fun e => { e with conns := e.conns.filter (fun x => !mine x), credit := e.credit + (quota - held) }) m
    sendBack (if isHere m k.connModule then pktArrives m e.owner k.srcTile c else c)
      { backPkt .closeAck m k.ep k.connModule k.conn k.tgt 0 0 with jobTag := k.jobTag, srcTile := k.srcTile } m

/-- CLOSE_ACK. -/
def execCloseAck (src : PktFrom) (s : State) : Ans := onModIf (fromOk [.close, .closeAck] src) (withPacket src [.close, .closeAck] closeAck) s

/-- CREDIT_RETURN (R250, R258): the credit reaches the connection, and a send that waits for it takes it. -/
def creditReturn (k : ChanPkt) (c : Nat) (m : Mod) : Mod :=
  let e := epOf m (connEntry k.conn)
  if e.state ≠ .opened || !isSend e || !connHeld m k.conn then m
  else
    let m := modEp (connEntry k.conn) (fun e => { e with credits := modNth (· + k.amount) e.credits k.tgt }) m
    retrySend e.owner c m

/-- CREDIT_RETURN. -/
def execCreditReturn (src : PktFrom) (s : State) : Ans := onModIf (fromOk [.credit] src) (withPacket src [.credit] creditReturn) s

/-- DROP_NOTICE (R249): where another connection holds the entry by now, only the tile counts it. -/
def dropNotice (k : ChanPkt) (_ : Nat) (m : Mod) : Mod :=
  if connHeld m k.conn then countDropped (connEntry k.conn) k.srcTile m
  else modTd k.srcTile (fun d => { d with dropped := satAdd 32 d.dropped 1 }) m

/-- DROP_NOTICE. -/
def execDropNotice (src : PktFrom) (s : State) : Ans := onModIf (fromOk [.drop] src) (withPacket src [.drop] dropNotice) s

/-- A message that reaches a closed endpoint is dropped there, and the sender hears of it (R249). -/
def dropMessage (k : ChanPkt) (c : Nat) (m : Mod) : Mod :=
  sendBack (if isHere m k.connModule then pktArrives m (epOf m k.ep).owner k.srcTile c else c)
    { backPkt .drop m k.ep k.connModule k.conn k.tgt 0 0 with jobTag := k.jobTag, srcTile := k.srcTile } m

/-- OPQ_LANDING (R249, R255): the message joins the queue, and a CRECV that waits on it takes it. -/
def opqLanding (k : ChanPkt) (c : Nat) (m : Mod) : Mod :=
  let e := epOf m k.ep
  if e.state ≠ .opened || e.kind ≠ .opq then dropMessage k c m
  else
    let m := modEp k.ep (fun e => { e with
      opq := e.opq ++ [(nth 0 k.words 0, nth 0 k.words 1, k.connModule, k.conn, k.tgt)], messages := satAdd 32 e.messages 1 }) m
    let d := tdOf m e.owner
    match d.st, d.wait.kind with
    | .waiting, .crecv h rd pd word pop =>
      if handleEp m e.owner h = some k.ep then
        let c := Nat.max c (d.nextIssue - coreK m e.owner)
        endWait e.owner c (takeMessage e.owner k.ep rd pd word pop c (leaveWait e.owner c m))
      else m
    | _, _ => m

/-- OPQ_LANDING. -/
def execOpqLanding (src : PktFrom) (s : State) : Ans := onModIf (fromOk [.opq] src) (withPacket src [.opq] opqLanding) s

/-- Header of a ring record (R254). -/
def recordHeader (k : ChanPkt) : List W32 :=
  [BitVec.ofNat 32 (k.code % 65536 * 65536 + k.amount), BitVec.ofNat 32 (k.connModule % 2 ^ 14 * 2 ^ 13 + k.srcTile)]

/-- RING_RECORD_LANDING (R193 to R195, R254): the record is written at TAIL. Where the region has no room even after its HEAD is read
again, the record waits in flight, ahead of the later ones of its connection (R251). -/
def ringLanding (k : ChanPkt) (c : Nat) (m : Mod) : Mod :=
  let e := epOf m k.ep
  if e.state ≠ .opened || e.kind ≠ .ring then dropMessage k c m
  else
    let units := msgCost true k.amount
    let m := seekRoom e.owner e.region c (128 * units) m
    let r := regionOf (tdOf m e.owner) e.region
    if r.room < 128 * units then { m with flight := { pkt := k, at_ := c } :: m.flight }
    else
      let ws := recordHeader k ++ k.words
      let ws := ws ++ List.replicate (32 * units - ws.length) 0
      let m := modTd e.owner (fun d => advanceTail e.region c (128 * units) (ringPuts r c r.tail ws d)) (readBeatsNow e.owner c m)
      modEp k.ep (fun e => { e with
        recs := e.recs ++ [((r.tail + 128 * units) % 2 ^ 32, units, k.connModule, k.conn, k.tgt)], messages := satAdd 32 e.messages 1 }) m

/-- RING_RECORD_LANDING. -/
def execRingRecordLanding (src : PktFrom) (s : State) : Ans := onModIf (fromOk [.ring] src) (withPacket src [.ring] ringLanding) s

/-! ## Stall limits (R253, R255) -/

/-- Has a waiting tile reached its stall limit? -/
def stallDue (m : Mod) (t : Nat) : Bool :=
  let d := tdOf m t
  clockRuns m t && decide (d.wait.since + d.stallLimit * 1024 ≤ nowOf m t)

/-- SEND_TIMEOUT (R253): a CSEND has waited STALL_LIMIT × 1,024 cycles for credit. -/
def execSendTimeout (t : TileId) (s : State) : Ans :=
  onMod (fun m =>
    let t := t.val
    let d := tdOf m t
    match d.st, d.wait.kind with
    | .waiting, .csend h .. =>
      if !stallDue m t then m
      else match handleEp m t h with
        | none => m
        | some k =>
          let c := d.wait.since + d.stallLimit * 1024
          let m := modEp k (fun x => { x with timeouts := satAdd 16 x.timeouts 1 }) m
          let m := modTd t (fun d => { d with sendTimeouts := satAdd 16 d.sendTimeouts 1 }) m
          trapTile t d.wait.pc 8 trapSendTimeout (k <<< 16 ||| h) c false false m
    | _, _ => m) s

/-- RECV_TIMEOUT (R255): a CRECV ends with TIMEOUT at the stall limit. -/
def execRecvTimeout (t : TileId) (s : State) : Ans :=
  onMod (fun m =>
    let t := t.val
    let d := tdOf m t
    match d.st, d.wait.kind with
    | .waiting, .crecv h rd pd _ _ =>
      if !stallDue m t then m
      else
        let c := d.wait.since + d.stallLimit * 1024
        let m := match handleEp m t h with
          | some k => modEp k (fun x => { x with timeouts := satAdd 16 x.timeouts 1 }) (leaveWait t c m)
          | none => m
        let m := modTd t (fun d => { d with recvTimeouts := satAdd 16 d.recvTimeouts 1 }) m
        endWait t c (failReceive t rd pd chTimeout c m)
    | _, _ => m) s

end Sys2Proof.Machine
end

