-- ==== Sys2Proof/Machine/Barriers.lean ====
section
/-! DEFINITION. Barrier objects and completion signals (R261 to R265, R271). -/

namespace Sys2Proof.Machine

/-- Is a tile in the rectangle of a barrier (R261)? -/
def inRect (x : Bar) (t : Nat) : Bool :=
  decide (x.rLo ≤ globR t) && decide (globR t ≤ x.rHi) && decide (x.cLo ≤ globC t) && decide (globC t ≤ x.cHi)

/-- May a tile use a barrier: it is valid, the tile a member, and of its partition (R262)? -/
def isMember (m : Mod) (b t : Nat) : Bool :=
  let x := barOf m b
  x.valid && partOfTile m t == some x.part && inRect x t

/-- A waiter of a barrier is woken with a status; it learns of it 24 cycles after the event (R263, R264). -/
def wakeBwait (b c code : Nat) (m : Mod) (t : Nat) : Mod :=
  let d := tdOf m t
  match d.st, d.wait.kind with
  | .waiting, .bwait b' _ rd => if b = b' then endWait t (c + 24) (putStatus t rd code 0 (c + 24) m) else m
  | _, _ => m

/-- Is a generation after another, by the serial rule (R54, R263)? -/
def genAfter (gen g : Nat) : Bool := let n := (gen + 65536 - g) % 65536; decide (0 < n) && decide (n < 0x8000)

/-- Does a tile wait in BWAIT for a generation that a barrier has passed? -/
def waitsPast (m : Mod) (b t : Nat) : Bool :=
  match (tdOf m t).wait.kind with
  | .bwait _ g _ => genAfter (barOf m b).gen g
  | _ => false

/-- BARRIER_RELEASE (R261, R263): GENERATION advances, COUNT is 0, the waiters for a generation that is now past hear of it. -/
def releaseBar (b c : Nat) (m : Mod) : Mod :=
  let m := modBar b (fun x => { x with
    gen := (x.gen + 1) % 65536, arrived := [], releases := satAdd 32 x.releases 1
    releasedAt := c :: x.releasedAt.filter (fun r => decide (c < r + 24)) }) m
  let ws := (barOf m b).waiters.filter (waitsPast m b)
  let m := modBar b (fun x => { x with waiters := x.waiters.filter (fun t => !waitsPast m b t) }) m
  ws.foldl (wakeBwait b c chOk) m

/-- BARRIER_BREAK (R264): the waiters hear BROKEN; unless the job is killed, Gondola fails the step. -/
def breakBar (b cause c : Nat) (fails : Bool) (m : Mod) : Mod :=
  let x := barOf m b
  if x.state = .broken then m
  else
    let m := modBar b (fun x => { x with state := .broken, cause := cause, breaks := satAdd 16 x.breaks 1, waiters := [] }) m
    let m := x.waiters.foldl (wakeBwait b c chBroken) m
    if fails then signalModule x.part 0x0A cause m else m

/-- BARRIVE (R262): it is counted 24 cycles later. -/
def barriveEff (t : Nat) (b : BitVec 22) (e : SlotEnv) (m : Mod) : Mod :=
  let n := bits (getS e.base (fRa b)).toNat 11 0
  let m := modTd t (owes [kS (fRd b)] e.cycle) m
  modBar n (fun x => { x with pending := x.pending ++ [(t, fRd b, e.cycle + 24)] }) m

/-- BARRIVE. -/
def execBarrive (j : Issue) (b : BitVec 22) (s : State) : Ans :=
  issueXIf (xIns 0x19 (bits b.toNat 11 0 == 0) [kS (fRa b)] [kS (fRd b)]) (fun _ e => bits (getS e.base (fRa b)).toNat 31 12 == 0)
    (barriveEff j.tile.val b) j b s

/-- Count one arrival of a cycle (R262); repeat arrivals of members wait for the end of the cycle. -/
def countArrival (b c : Nat) (g : Nat) (x : Nat × Nat × Nat) (m : Mod) : Mod :=
  let t := x.1
  let z := barOf m b
  if z.state = .broken then putStatus t x.2.1 chBroken z.gen (c + 24) m
  else
    let m := modBar b (fun z => { z with
      firstAt := if z.arrived.isEmpty then c else z.firstAt, arrived := z.arrived ++ [t], lastTile := t, lastTick := (tileTick m t c).1 }) m
    putStatus t x.2.1 chOk g (c + 24) m

/-- The arrivals of one cycle: those of members that have not arrived in this generation, and the repeats. -/
def splitArrivals (seen : List Nat) : List (Nat × Nat × Nat) → List (Nat × Nat × Nat) × List (Nat × Nat × Nat)
  | [] => ([], [])
  | x :: r =>
    if seen.contains x.1 then let s := splitArrivals seen r; (s.1, x :: s.2)
    else let s := splitArrivals (x.1 :: seen) r; (x :: s.1, s.2)

/-- BARRIER_ARRIVAL (R261, R262, R264): the arrivals of the earliest cycle are counted; a release comes before a break. The barrier stands
still in an emergency stop (R23) and in a stall of its partition (R232). -/
def execBarrierArrival (b : Fin 4096) (s : State) : Ans :=
  onMod (fun m =>
    let b := b.val
    match (if fabricHeld m (barOf m b).part then [] else (barOf m b).pending) with
    | [] => m
    | p :: ps =>
      let c := ps.foldl (fun a x => Nat.min a x.2.2) p.2.2
      let now := (p :: ps).filter (fun x => x.2.2 == c)
      let m := modBar b (fun x => { x with pending := x.pending.filter (fun x => x.2.2 != c) }) m
      let outs := now.filter (fun x => !isMember m b x.1)
      let ins := now.filter (fun x => isMember m b x.1)
      let m := outs.foldl (fun m x =>
        putStatus x.1 x.2.1 chClosed 0 (c + 24) (modBar b (fun z => { z with refused := satAdd 16 z.refused 1 }) m)) m
      if ins.isEmpty then m
      else
        let m := if (barOf m b).state = .retired then breakBar b (barOf m b).cause c true m else m
        let z := barOf m b
        let sp := splitArrivals z.arrived ins
        let m := sp.1.foldl (fun m x => countArrival b c z.gen x m) m
        let counted := z.state = .active && !sp.1.isEmpty
        let m := if counted then modBar b (fun z => { z with lastTile := sp.1.foldl (fun a x => Nat.max a x.1) 0 }) m else m
        let m := if counted && (barOf m b).arrived.length == z.participants then releaseBar b c m else m
        sp.2.foldl (fun m x =>
          let m := if (barOf m b).state = .active then breakBar b 3 c true m else m
          putStatus x.1 x.2.1 chBroken (barOf m b).gen (c + 24) m) m) s

/-- BARRIER_LIMIT_EXPIRY (R264): the first arrival of the generation is LIMIT × 65,536 cycles old. -/
def execBarrierLimitExpiry (b : Fin 4096) (s : State) : Ans :=
  onMod (fun m =>
    let x := barOf m b.val
    let due := x.firstAt + x.limit * 65536
    if m.power.active || x.state ≠ .active || x.limit = 0 || x.arrived.isEmpty || partNow m x.part < due then m
    else breakBar b.val 4 due true m) s

/-- BWAIT (R263): the release that ended the generation it names may still be on its way to the tile. -/
def bwaitEff (t : Nat) (b : BitVec 22) (e : SlotEnv) (m : Mod) : Mod :=
  let n := bits (getS e.base (fRa b)).toNat 11 0
  let g := bits (getS e.base (fRb b)).toNat 15 0
  let x := barOf m n
  let ahead := (x.gen + 65536 - g) % 65536
  let rd := fRd b
  if !isMember m n t then putStatus t rd chClosed 0 e.cycle m
  else if x.state = .broken || x.state = .retired then putStatus t rd chBroken 0 e.cycle m
  else if 0x4000 < ahead && ahead < 0xC000 then putStatus t rd chClosed 0 e.cycle m
  else if genAfter x.gen g then
    let due := match nth? x.releasedAt (ahead - 1) with
      | some r => r + 24
      | none => 0
    if decide (e.cycle < due) then setWaitDue t (.bwait n g rd) due (putStatus t rd chOk 0 due m)
    else putStatus t rd chOk 0 e.cycle m
  else
    setWait t (.bwait n g rd)
      (modTd t (owes [kS rd] e.cycle) (modBar n (fun x => { x with waiters := x.waiters ++ [t] }) m))

/-- BWAIT. -/
def execBwait (j : Issue) (b : BitVec 22) (s : State) : Ans :=
  issueXIf (xIns 0x1A (fFn b == 0) [kS (fRa b), kS (fRb b)] [kS (fRd b)])
    (fun _ e => bits (getS e.base (fRa b)).toNat 31 12 == 0 && bits (getS e.base (fRb b)).toNat 31 16 == 0)
    (bwaitEff j.tile.val b) j b s

/-- A member of an active barrier is gone (R264): it breaks if any has arrived or, as its list says, waits in BWAIT, else it retires. -/
def goneFrom (b cause c : Nat) (waits fails : Bool) (m : Mod) : Mod :=
  let x := barOf m b
  if x.state ≠ .active then m
  else if !x.arrived.isEmpty || waits then breakBar b cause c fails m
  else modBar b (fun x => { x with state := .retired, cause := cause }) m

/-- BARRIER_RETIRE and its breaks (R82, R264): a member ends (cause 2) or is reset or killed (cause 1). -/
def memberGone (t cause c : Nat) (fails : Bool) (m : Mod) : Mod :=
  m.bars.foldl (fun m e =>
    if !isMember m e.1 t then m
    else
      let m := modBar e.1 (fun x => { x with waiters := x.waiters.filter (· ≠ t) }) m
      goneFrom e.1 cause c (!(barOf m e.1).waiters.isEmpty) fails m) m

/-! ## Completion signals (R265) -/

/-- A completion increments a signal, which saturates; an SWAIT that waits for it takes its count. -/
def addSignal (t n c : Nat) (m : Mod) : Mod :=
  let m := modTd t (fun d => { d with sigs := mmod 0 d.sigs n (fun v => satAdd 16 v 1) }) m
  let d := tdOf m t
  match d.st, d.wait.kind with
  | .waiting, .swait g k =>
    if g = n && decide (k ≤ mget 0 d.sigs n) then
      endWait t c (modTd t (fun d => { d with sigs := mmod 0 d.sigs n (· - k) }) m)
    else m
  | _, _ => m

/-- SWAIT (R265). -/
def swaitEff (t : Nat) (b : BitVec 22) (_ : SlotEnv) (m : Mod) : Mod :=
  let g := bits b.toNat 21 16
  let k := bits b.toNat 15 10
  if k ≤ mget 0 (tdOf m t).sigs g then modTd t (fun d => { d with sigs := mmod 0 d.sigs g (· - k) }) m
  else setWait t (.swait g k) m

/-- SWAIT. -/
def execSwait (j : Issue) (b : BitVec 22) (s : State) : Ans :=
  issueX (xIns 0x21 (bits b.toNat 9 0 == 0 && bits b.toNat 15 10 != 0) [] []) (swaitEff j.tile.val b) j b s

end Sys2Proof.Machine
end

