-- ==== Sys2Proof/Machine/Dram.lean ====
section
/-! DEFINITION. DRAM: pages and frames, the homes of bursts, ECC, parameter shards, the step record and its generation check,
arbitration at a channel (10 R272 to R275, R278, R286, R292 to R297, R300, R301, R303, R538; 11 R315 to R320). -/

namespace Sys2Proof.Machine

/-! ## Frames and bursts (R272 to R274) -/

/-- Frames of the B tier (R274). -/
abbrev framesB : Nat := 589824
/-- Frames of the C tier (R274). -/
abbrev framesC : Nat := 524288
/-- Pages of the DRAM range (R272). -/
abbrev pageCount : Nat := 1114112
/-- End of the DRAM range (R272). -/
abbrev dramEnd : Nat := 0x22000000000
/-- Frames of a tier. -/
def framesOf (tierC : Bool) : Nat := if tierC then framesC else framesB
/-- Number of the physical burst k of a frame: bursts of the B tier come first. -/
def burstNo (tierC : Bool) (frame k : Nat) : Nat := (if tierC then framesB + frame else frame) * 8192 + k
/-- Is a physical burst in the C tier? -/
def burstTierC (b : Nat) : Bool := decide (framesB * 8192 ≤ b)
/-- Frame of a physical burst in its tier. -/
def burstFrame (b : Nat) : Nat := if burstTierC b then b / 8192 - framesB else b / 8192
/-- burst_home (R274): stack. -/
def burstStack (b : Nat) : Nat :=
  if burstTierC b then 4 * ((b - framesB * 8192) % 8) + 3 else 4 * (b % 24 / 3) + b % 24 % 3
/-- burst_home (R274): local burst. -/
def burstLocal (b : Nat) : Nat := if burstTierC b then (b - framesB * 8192) / 8 else b / 24
/-- burst_home (R274): channel. -/
def burstChan (b : Nat) : Nat := burstLocal b % 16

/-- Is a page mapped (R273)? -/
def isMapped (x : Page) : Bool := x.state != .unmapped
/-- The tier that serves a page: a MOVING page is served from the tier opposite TO_C (R278). -/
def pageTierC (x : Page) : Bool :=
  match x.state with
  | .c => true
  | .moving => !x.toC
  | _ => false
/-- Physical burst of burst k of a page, as served now. -/
def pageBurst (m : Mod) (p k : Nat) : Nat := let x := pageOf m p; burstNo (pageTierC x) x.frame k
/-- Destination burst of burst k of a MOVING page. -/
def destBurst (m : Mod) (p k : Nat) : Nat := let x := pageOf m p; burstNo x.toC x.dest k
/-- The page whose FRAME holds a physical burst (R303); 0x1FFFFF for a frame that is not mapped. -/
def burstPage (m : Mod) (b : Nat) : Nat :=
  ((m.dir.find? (fun e => isMapped e.2 && pageTierC e.2 == burstTierC b && e.2.frame == burstFrame b)).map (·.1)).getD 0x1FFFFF

/-- Frames of a tier in use: of mapped pages, of moves into it, of MAPs being zero-filled, of moves whose source frame waits (R276,
R278). -/
def usedFrames (m : Mod) (tierC : Bool) : List Nat :=
  m.dir.filterMap (fun e => if isMapped e.2 && pageTierC e.2 == tierC then some e.2.frame else none) ++
  m.dir.filterMap (fun e => if e.2.state == .moving && e.2.toC == tierC then some e.2.dest else none) ++
  m.fills.flatMap (fun f => if f.tierC == tierC then f.pages.map (·.2) else []) ++
  (m.relFrames.filter (fun r => r.tierC == tierC)).map (·.frame)
/-- Free frames of a tier (R304). -/
def freeFrames (m : Mod) (tierC : Bool) : Nat := framesOf tierC - (usedFrames m tierC).length
/-- Use of a tier by a partition (R277): pages mapped in it, pages of accepted MAPs, destination frames of moves into it. -/
def tierUse (m : Mod) (p : Nat) (tierC : Bool) : Nat :=
  (m.dir.filter (fun e => isMapped e.2 && e.2.part == p && (pageTierC e.2 == tierC || (e.2.state == .moving && e.2.toC == tierC)))).length +
  ((m.fills.filter (fun f => f.part == p && f.tierC == tierC)).map (fun f => f.pages.length)).foldl (· + ·) 0
/-- Quota of a partition in a tier (R277). -/
def quotaOf (m : Mod) (p : Nat) (tierC : Bool) : Nat := if tierC then (partOf m p).quotaC else (partOf m p).quotaB

/-- Insert a number in a rising list. -/
def insertUp (x : Nat) : List Nat → List Nat
  | [] => [x]
  | y :: r => if x ≤ y then x :: y :: r else y :: insertUp x r
/-- A list of numbers sorted upward. -/
def sortUp (l : List Nat) : List Nat := l.foldr insertUp []

/-- Take n free frames of a tier: which ones is the module's choice (R276 says only "a free frame"; log entry 10). -/
def takeFrames (tierC : Bool) : Nat → List Nat → Mod → List Nat × Mod
  | 0, _, m => ([], m)
  | n + 1, used, m =>
    let f := takeFree m
    let fr := kthFree used (Config.frameChoice f.1 % (framesOf tierC - used.length))
    let r := takeFrames tierC n (insertUp fr used) f.2
    (fr :: r.1, r.2)

/-! ## Shards (R315 to R317) -/

/-- Number Q of banked arrays of a shard (R317). -/
def shardQ (s : Shard) : Nat := 1 + b2n (s.algo != 0) + b2n (s.algo == 2) + b2n (s.wcFmt != 0)
/-- Lines of a set, K (R317). -/
def shardK (s : Shard) : Nat := if s.algo = 0 then 1 else 2 * shardQ s + 1
/-- Sets of a page (R317). -/
def shardSets (s : Shard) : Nat := 340 / shardK s
/-- Pages of a shard (R317). -/
def shardPages (s : Shard) : Nat := (s.elements + shardSets s * 1536 - 1) / (shardSets s * 1536)
/-- The live bank of a shard (R319). -/
def liveBank (s : Shard) : Nat := if s.algo = 0 then 0 else s.gen.toNat % 2
/-- Does a page belong to a shard? -/
def inShard (s : Shard) (page : Nat) : Bool := s.valid && decide (s.firstPage ≤ page) && decide (page < s.firstPage + shardPages s)
/-- Does a device address lie in a banked line of a valid shard (R317)? -/
def isBanked (m : Mod) (a : Nat) : Bool :=
  let page := a / 0x200000
  let line := a % 0x200000 / 6144
  m.shards.any (fun e =>
    inShard e.2 page && decide (1 ≤ line) && decide (line ≤ shardSets e.2 * shardK e.2) && decide ((line - 1) % shardK e.2 < 2 * shardQ e.2))
/-- The shard whose step record lies in a burst of a page (R318). -/
def recordShard (m : Mod) (page k : Nat) : Option Nat :=
  if 24 ≤ k then none else (m.shards.find? (fun e => e.2.valid && e.2.firstPage == page)).map (·.1)

/-! ## Causes and counters (R296, R297, R303, R409) -/

/-- RESTORE_REQUIRED is set (R409); Gondola hears of it when it is set anew. -/
def setRestore (p stack : Nat) (m : Mod) : Mod :=
  if (partOf m p).restoreRequired then m
  else hostEvent 0x06 p stack 2 0 (modPart p (fun x => { x with restoreRequired := true }) m)

/-- Words corrected at a stack (R296). -/
def countFix (b n : Nat) (m : Mod) : Mod := modStack (burstStack b) (fun s => { s with corrected := satAdd 32 s.corrected n }) m

/-- An uncorrectable word j of a burst is found (R296 to R298, R303): counted, the first recorded with its page, a MEMORY event. WORD has
three bits for the 32 words of a burst: above word 7 it is a free value. -/
def noteUE (b page : Nat) (m : Mod) (j : Nat) : Mod :=
  let n := burstStack b
  let f := if j < 8 then (j, m) else let t := takeFree m; (Config.unstated t.1 % 8, t.2)
  let m := modStack n (fun s =>
    let s := { s with uncorrected := satAdd 16 s.uncorrected 1 }
    if s.ueValid then s else { s with ueValid := true, ueBurst := burstLocal b, ueWord := f.1, uePage := page })
    (noteSet (0x3008 + 0x40 * n) 0 [burstLocal b, f.1, page] f.2)
  hostEvent 0x06 (if page = 0x1FFFFF then 0xFF else (pageOf m page).part) n 1 0 m

/-- 64-bit words of a physical burst with an ECC mark: 1 correctable, 2 uncorrectable (R296). -/
def eccMarks (m : Mod) (b mark : Nat) : List Nat := indices 32 (fun j => mget 0 m.ecc (32 * b + j) == mark)
/-- The 64 words of a physical burst. -/
def burstWords (m : Mod) (b : Nat) : List W32 := mgets 0 m.dram (64 * b) 64

/-- A burst read (R296, R297): corrected words are counted, uncorrectable ones noted. The uncorrectable words, and the module. -/
def eccRead (b : Nat) (m : Mod) : List Nat × Mod :=
  let bad := eccMarks m b 2
  let m := countFix b (eccMarks m b 1).length m
  (bad, bad.foldl (noteUE b (burstPage m b)) m)

/-! ## Writing (R278, R286, R296) -/

/-- A word of a burst after bytes at an offset are written. -/
def mergeWord (old : W32) (w off : Nat) (bytes : List Byte) : W32 :=
  let l := (leBytes 4 old.toNat)
  BitVec.ofNat 32 (leNat ((List.range 4).map (fun k =>
    if off ≤ 4 * w + k && decide (4 * w + k < off + bytes.length) then nth 0 bytes (4 * w + k - off) else nth 0 l k)))

/-- Write bytes at an offset of a physical burst (R286, R296): a word covered in part is merged, corrected if it can be; one that
cannot stays uncorrectable and is noted. The uncorrectable words met, and the module. -/
def writeBurst (b off : Nat) (bytes : List Byte) (m : Mod) : List Nat × Mod :=
  if bytes.isEmpty then ([], m)
  else
    let last := off + bytes.length - 1
    let ws := (List.range (last / 4 + 1 - off / 4)).map (· + off / 4)
    let old := mgets 0 m.dram (64 * b + off / 4) ws.length
    let m := { m with dram := msets 0 m.dram (64 * b + off / 4) ((ws.zip old).map (fun (x : Nat × W32) => mergeWord x.2 x.1 off bytes)) }
    let es := (List.range (last / 8 + 1 - off / 8)).map (· + off / 8)
    let whole (j : Nat) : Bool := decide (off ≤ 8 * j) && decide (8 * j + 8 ≤ off + bytes.length)
    let mark (j : Nat) : Nat := mget 0 m.ecc (32 * b + j)
    let fixed := es.filter (fun j => !whole j && mark j == 1)
    let bad := es.filter (fun j => !whole j && mark j == 2)
    let m := { m with ecc := es.foldl (fun e j => if bad.contains j then e else mset 0 e (32 * b + j) 0) m.ecc }
    let m := countFix b fixed.length m
    (bad, bad.foldl (noteUE b (burstPage m b)) m)

/-- Has the Winch agent read burst k of a moving page? -/
def isCopied (v : Mv) (k : Nat) : Bool := decide (k < v.asked) && !v.unread.contains k

/-- Where a write to a physical burst is forwarded: the destination of a burst of a MOVING page that is copied, and that of a source
frame not yet released (R278). -/
def forwardTo (m : Mod) (b : Nat) : Option Nat :=
  let k := b % 8192
  match m.moves.find? (fun v => pageBurst m v.page k == b) with
  | some v => if isCopied v k then some (destBurst m v.page k) else none
  | none =>
    (m.relFrames.find? (fun r => burstNo r.tierC r.frame k == b)).map (fun r => burstNo (!r.tierC) r.dest k)

/-- A write at a physical burst, with its forward (R278). -/
def writeBoth (b off : Nat) (bytes : List Byte) (m : Mod) : List Nat × Mod :=
  let r := writeBurst b off bytes m
  match forwardTo m b with
  | some d => (r.1, (writeBurst d off bytes r.2).2)
  | none => r

/-! ## The step record (R318 to R320) -/

/-- A generation check of a shard (R320); `none` is a check that fails whatever GEN is. -/
def genCheck (i : Nat) (chk : Option Nat) (m : Mod) : Mod :=
  let s := shardOf m i
  if chk = some s.gen.toNat then m
  else
    let m := noteSet (0x5808 + 0x20 * s.part) 0 [i] m
    signalModule s.part 0x0B 0 (modPart s.part (fun x => { x with
      genMismatches := satAdd 32 x.genMismatches 1
      genFirstShard := if x.genValid then x.genFirstShard else i
      genValid := true }) m)

/-- The words of a burst of a page as a reader other than the NMU gets them: GEN_NOW, LIVE_BANK and zeros in bytes 16 to 31 of a step
record (R318, R319). -/
def serveWords (m : Mod) (page k : Nat) (ws : List W32) : List W32 :=
  match recordShard m page k with
  | none => ws
  | some i =>
    let s := shardOf m i
    ws.take 4 ++ [s.gen, BitVec.ofNat 32 (liveBank s), 0, 0] ++ ws.drop 8

/-- The part of bytes at an offset that lies in a range lo to hi − 1: its offset and bytes. -/
def cutBytes (off : Nat) (bytes : List Byte) (lo hi : Nat) : Nat × List Byte :=
  let a := Nat.max off lo
  (a, (bytes.drop (a - off)).take (hi - a))

/-- A write of a unit other than the NMU and the Winch agents to a burst of a page, which is physical burst b (R318, R320): bytes 16 to
31 of a step record are discarded, bytes 24 to 31 are a generation check. The uncorrectable words met, and the module. -/
def serveWrite (page k b off : Nat) (bytes : List Byte) (m : Mod) : List Nat × Mod :=
  match recordShard m page k with
  | none => writeBoth b off bytes m
  | some i =>
    let c := cutBytes off bytes 24 32
    let v := leNat c.2
    let m := if c.2.isEmpty then m else genCheck i (if c.2.length = 8 && v < 2 ^ 32 then some v else none) m
    let lo := cutBytes off bytes 0 16
    let hi := cutBytes off bytes 32 256
    let r := writeBoth b lo.1 lo.2 m
    let r2 := writeBoth b hi.1 hi.2 r.2
    (r.1 ++ r2.1, r2.2)

/-! ## Windows of the DRAM range (R300) -/

/-- May a remote access with a job tag reach bytes of a burst: an open window covers them, with the right, and the page belongs to
its partition (R300)? -/
def dwinAllows (m : Mod) (tag : Nat) (write : Bool) (a len : Nat) : Bool :=
  let p1 := a / 0x200000
  let p2 := (a + len - 1) / 0x200000
  m.dwins.any (fun e =>
    let w := e.2
    w.opened && w.tag == tag && (if write then w.write else w.read) && decide (w.first ≤ p1) && decide (p2 ≤ w.first + w.countM1) &&
      isMapped (pageOf m p1) && (pageOf m p1).part == w.part)

/-! ## Requests (R292 to R294) -/

/-- The stack cycle (1 ns) of a source cycle (1.25 ns) (R23): an emergency stop does not hold it. -/
def stackNow (m : Mod) : Nat := srcNow m * 5 / 4
/-- A channel of a stack. -/
def chanOf (m : Mod) (n ch : Nat) : Chan := mget {} (stackOf m n).chans ch
/-- Change a channel. -/
def modChan (n ch : Nat) (f : Chan → Chan) (m : Mod) : Mod := modStack n (fun s => { s with chans := mmod {} s.chans ch f }) m
/-- A request for a physical burst reaches its channel at a stack cycle (R292). -/
def sendReq (rank index : Nat) (what : ReqFor) (b : Nat) (second : Bool) (at_ : Nat) (m : Mod) : Mod :=
  modChan (burstStack b) (burstChan b) (fun c => { c with
    reqs := c.reqs ++ [{ rank, index, what, burst := b, second, waiting := false, backoff := 4, presentAt := at_, arrived := at_, starved := false }] }) m

/-- Is any request at a channel for something? -/
def anyReq (m : Mod) (p : Req → Bool) : Bool := m.stk.any (fun s => s.2.chans.any (fun c => c.2.reqs.any p))

/-! ## Arbitration (R275, R293, R294, R301, R303) -/

/-- The partition a request is made for, 0xFF for none. -/
def reqPart (m : Mod) (r : Req) : Nat :=
  match r.what with
  | .stream t _ _ _ => (partOfTile m t).getD 0xFF
  | .nmuRecord i => (shardOf m i).part
  | .nmuRead i _ _ => (shardOf m i).part
  | .nmuWrite i _ _ => (shardOf m i).part
  | .winchRead page _ => (pageOf m page).part
  | .winchWrite page => (pageOf m page).part
  | .winchZero page => ((m.fills.find? (fun f => f.pages.any (fun x => x.1 == page))).map (·.part)).getD 0xFF
  | .remote q _ _ => (portOf m q).part
  | .gondola => 0xFF
  | .gondolaData => 0xFF

/-- May a unit of a rank mark a locked sequence: Gondola, an NMU, a Winch agent (R294)? -/
def mayLock (rank : Nat) : Bool := rank == 1 || rank == 2 || rank == 5
/-- Does an open locked sequence of a channel belong to the unit of a rank and index (R294)? -/
def lockedBy (c : Chan) (rank index : Nat) : Bool := decide (0 < c.lockLeft) && c.lockRank == rank && c.lockIndex == index
/-- Does a request take part in arbitration: in an emergency stop NMU, Reel and Winch pause at a burst boundary, with no locked sequence
open (R301)? -/
def reqRuns (m : Mod) (c : Chan) (r : Req) : Bool := !m.power.active || r.rank == 1 || r.rank == 3 || lockedBy c r.rank r.index
/-- Does a request go before another: lower rank, then lower index (R293)? -/
def reqBefore (a b : Req) : Bool := decide (a.rank < b.rank) || (a.rank == b.rank && decide (a.index < b.index))
/-- The request to grant among those present; of two of equal rank and index, which R293 does not order, the one that stands first in the
channel's list, the one sent first (DESIGN CHOICE, log entry 150). -/
def pickReq (l : List (Nat × Req)) : Option (Nat × Req) :=
  l.foldl (fun a x => match a with
    | none => some x
    | some y => if reqBefore x.2 y.2 then some x else some y) none

/-- A burst boundary after the maintenance windows that have fallen due by it (R275): a window that falls due while the channel is idle
opens then. The boundary and the next due cycle. -/
def afterWindows (c : Chan) (at_ : Nat) : Nat × Nat :=
  if at_ < c.maintDue then (at_, c.maintDue)
  else
    let last := c.maintDue + (at_ - c.maintDue) / 2048 * 2048
    let start := if c.maintDue = last then Nat.max c.boundary last else last
    (Nat.max at_ (start + 48), last + 2048)

/-- A burst that a channel is to grant next: the boundary, the next due cycle of its window, which request it is, whether it goes on with an
open locked sequence. -/
structure Turn where
  at_ : Nat
  due : Nat
  k : Nat
  req : Req
  locked : Bool

/-- The grant of a channel at its next boundary with a request (R293): inside a locked sequence the next burst is that of its unit, and
no window opens (R294); a sequence whose unit has nothing more to ask at the boundary has ended. -/
def nextTurn (m : Mod) (c : Chan) : Option Turn :=
  let l := (List.range c.reqs.length).filterMap (fun k => match nth? c.reqs k with
    | some r => if reqRuns m c r then some (k, r) else none
    | none => none)
  match pickReq (l.filter (fun x => lockedBy c x.2.rank x.2.index && decide (x.2.presentAt ≤ c.boundary))) with
  | some (k, r) => some ⟨c.boundary, c.maintDue, k, r, true⟩
  | none =>
    match l with
    | [] => none
    | x :: xs =>
      let w := afterWindows c (Nat.max c.boundary (xs.foldl (fun a x => Nat.min a x.2.presentAt) x.2.presentAt))
      (pickReq (l.filter (fun x => decide (x.2.presentAt ≤ w.1)))).map (fun y => ⟨w.1, w.2, y.1, y.2, false⟩)

/-- A request present at a boundary that is not granted there withdraws and backs off (R294). -/
def loseReq (at_ : Nat) (r : Req) : Req :=
  if decide (r.presentAt ≤ at_) then
    { r with waiting := true, presentAt := at_ + r.backoff, backoff := Nat.min (2 * r.backoff) 4096 }
  else r

/-- Has a request waited beyond the limit of its stack at a boundary (R303)? -/
def starves (at_ limit : Nat) (r : Req) : Bool := limit != 0 && decide (limit * 1024 < at_ - r.arrived)
/-- Count and signal the requests of a list that have newly starved (R303). -/
def noteStarved (n at_ limit : Nat) (l : List Req) (m : Mod) : Mod :=
  (l.filter (fun r => !r.starved && starves at_ limit r)).foldl (fun m r =>
    hostEvent 0x06 (reqPart m r) n 3 0 (modStack n (fun s => { s with starveEvents := satAdd 32 s.starveEvents 1 }) m)) m

/-- How many further bursts the sequence has that a grant begins or goes on with: a unit that may lock marks at most 16 bursts, how many is
its own choice, a free value (R294; log entry 39). -/
def lockAfter (c : Chan) (rank : Nat) (locked : Bool) (m : Mod) : Nat × Mod :=
  if locked then (c.lockLeft - 1, m) else if mayLock rank then let f := takeFree m; (Config.unstated f.1 % 16, f.2) else (0, m)

/-- A channel grants a burst at a boundary to a unit whose request arrived in a cycle: the other requests stay and, outside a locked
sequence, those present lose (R293, R294, R303). -/
def grantBurst (n ch at_ due rank index arrived : Nat) (locked : Bool) (rest : List Req) (m : Mod) : Mod :=
  let c := chanOf m n ch
  let limit := (stackOf m n).starveLimit
  let m := noteStarved n at_ limit (c.reqs.filter (reqRuns m c)) m
  let m := modStack n (fun s => { s with waitMax := mmod 0 s.waitMax rank (fun w => Nat.min (Nat.max w (at_ - arrived)) 0xFFF) }) m
  let f := lockAfter c rank locked m
  let next := at_ + (if isC n then 5 else 2)
  modChan n ch (fun y => { y with
    boundary := next, maintDue := due, lockLeft := f.1, lockRank := rank, lockIndex := index
    gonUntil := if rank = 1 then next else y.gonUntil
    reqs := rest.map (fun x =>
      if reqRuns m c x then
        let x := { x with starved := x.starved || starves at_ limit x }
        if locked then x else loseReq at_ x
      else x) }) f.2

/-- Split bytes at an address into pieces at 256-byte boundaries (R284); `off` is the place of the first in the data. -/
def splitPieces : Nat → Nat → Nat → Nat → List Piece
  | 0, _, _, _ => []
  | f + 1, a, len, off =>
    if len = 0 then []
    else
      let n := Nat.min (256 - a % 256) len
      { addr := a, len := n, off, st := .unsent, data := [], err := 0, banked := false } :: splitPieces f (a + n) (len - n) (off + n)

end Sys2Proof.Machine
end

