-- ==== Sys2Proof/Machine/Matrix.lean ====
section
/-! DEFINITION. The M slot: bodies, checks at issue, the four-entry queue; operand formats, layouts and the exact dot product of
the arrays (06). -/

namespace Sys2Proof.Machine

/-! ## Formats and classes (R154, R155) -/

/-- Class of an array format: 0 16-bit, 1 8-bit, 2 INT8, 3 4-bit; none for FP32 and reserved codes. -/
def arrClass (fmt : Nat) : Option Nat :=
  if fmt = 1 ∨ fmt = 2 then some 0
  else if (3 ≤ fmt ∧ fmt ≤ 7) ∨ fmt = 9 then some 1
  else if fmt = 8 then some 3
  else if fmt = 0xA then some 2
  else none

/-- Cycles per vector P (R154). -/
def perVec (fmt : Nat) : Nat := if arrClass fmt = some 0 then 2 else 1
/-- Is a format an MX format? -/
def isMx (fmt : Nat) : Bool := 5 ≤ fmt && fmt ≤ 9
/-- Element type of an array format; none for FP32. INT8 elements are plain integers. -/
def arrElem (fmt : Nat) : Option MxElem :=
  match fmt with
  | 1 => some (.fp fmtFP16)
  | 2 => some (.fp fmtBF16)
  | 3 => some (.fp fmtE4M3)
  | 4 => some (.fp fmtE5M2)
  | 5 => some (.fp fmtE4M3)
  | 6 => some (.fp fmtE5M2)
  | 7 => some (.fp fmtE2M3)
  | 8 => some (.fp fmtE2M1)
  | 9 => some .int8
  | 0xA => some .int8
  | _ => none

/-- Value of an element code of a format, before any scale (R126, R129). -/
def arrVal (fmt code : Nat) : FVal :=
  match arrElem fmt with
  | some (.fp f) => elemVal f code
  | some .int8 =>
    let q := signed 8 code
    .fin (decide (q < 0)) q.natAbs (if fmt = 0xA then 0 else -6)
  | none => .fin false 0 0

/-- A value times an E8M0 scale (R128). -/
def scaleVal (v : FVal) (byte : Nat) : FVal :=
  if byte = 0xFF then .nan
  else match v with
    | .fin s m e => .fin s m (e + byte - 127)
    | x => x

/-- Elements of a vector: 64 for a 4-bit stream in normal mode, else 32 (R154). -/
def vecLen (fmt : Nat) (tr : Bool) : Nat := if fmt = 8 ∧ ¬ tr then 64 else 32
/-- Outputs of a vector (R154). -/
def outLen (fmt : Nat) (tr : Bool) : Nat := if fmt = 8 ∧ tr then 64 else 32
/-- Collector rows a vector fills (R161). -/
def rowsPerVec (fmt : Nat) (tr : Bool) : Nat := outLen fmt tr / 32
/-- Beats of an MRUN of n vectors (R156). -/
def beatsOf (fmt n : Nat) : Nat := perVec fmt * (n - 1) + 32

/-! ## Stream and image layouts (R156 to R159) -/

/-- A scratchpad byte. -/
def spByte (d : TileData) (a : Nat) : Nat := bits (spWord d a).toNat (a % 4 * 8 + 7) (a % 4 * 8)
/-- `w` bits at bit `lo` of the scratchpad bytes from a (within 16 bits of a byte boundary). -/
def spBits (d : TileData) (a lo w : Nat) : Nat :=
  let v := spByte d (a + lo / 8) + 256 * spByte d (a + lo / 8 + 1)
  bits v (lo % 8 + w - 1) (lo % 8)

/-- The element codes at position i of the beat at an address (R157). -/
def beatPos (d : TileData) (fmt : Nat) (tr : Bool) (a i : Nat) : List Nat :=
  if fmt = 7 then [spBits d a (6 * i) 6]
  else if arrClass fmt = some 0 then [spBits d a (i / 2 * 16) 16]
  else if fmt = 8 then
    let b := spByte d (a + i)
    if tr then [b % 16] else [b % 16, b / 16]
  else [spByte d (a + i)]

/-- Vector t of a stream: position i stands in beat P·t + i (R156). -/
def streamVec (d : TileData) (fmt : Nat) (tr : Bool) (addr t : Nat) : List Nat :=
  (List.range 32).flatMap (fun i => beatPos d fmt tr (addr + 32 * (perVec fmt * t + i)) i)

/-- Scale bytes of vector t (R158). -/
def streamScale (d : TileData) (fmt : Nat) (tr : Bool) (sc t : Nat) : List Nat :=
  if !isMx fmt then []
  else if fmt = 8 && !tr then [spByte d (sc + 2 * t), spByte d (sc + 2 * t + 1)]
  else [spByte d (sc + t)]

/-- Scale bytes of an MRUN's stream. -/
def scaleBytes (fmt n : Nat) (tr : Bool) : Nat := if !isMx fmt then 0 else if fmt = 8 && !tr then 2 * n else n

/-- Slot size of a weight image (R159). -/
def slotSize (fmt : Nat) : Nat := if arrClass fmt = some 0 then 64 else 32
/-- Scale bytes of a weight image (R159). -/
def imgScales (fmt : Nat) : Nat := if !isMx fmt then 0 else if fmt = 8 then 64 else 32
/-- Cells of slot i, cell j of an image: (k, code) for each W[k][j] it holds (R159). -/
def imgCell (d : TileData) (fmt img i j : Nat) : List (Nat × Nat) :=
  let a := img + slotSize fmt * i
  if fmt = 7 then [(i, spBits d a (6 * j) 6)]
  else if arrClass fmt = some 0 then [(i, spBits d a (16 * j) 16)]
  else if fmt = 8 then [(2 * i, spByte d (a + j) % 16), (2 * i + 1, spByte d (a + j) / 16)]
  else [(i, spByte d (a + j))]

/-- The buffer an image and its scales give (R159). -/
def readImage (d : TileData) (fmt img sc : Nat) : WBuf :=
  { fmt := some fmt
    elems := (List.range 32).foldl (fun m i => (List.range 32).foldl (fun m j =>
        (imgCell d fmt img i j).foldl (fun m x => mset 0 m (32 * x.1 + j) x.2) m) m) []
    scales := msets 0 [] 0 ((List.range (imgScales fmt)).map (fun k => spByte d (sc + k))) }

/-! ## Dot products (R166 to R169) -/

/-- Value of W[k][j] of a buffer, with its scale (R155, R159). -/
def wVal (w : WBuf) (k j : Nat) : FVal :=
  match w.fmt with
  | none => .fin false 0 0
  | some fmt =>
    let v := arrVal fmt (mget 0 w.elems (32 * k + j))
    if isMx fmt then scaleVal v (mget 0 w.scales (32 * (k / 32) + j)) else v

/-- Value of element k of a vector, with its scale (R158). -/
def xVal (fmt : Nat) (vec sc : List Nat) (k : Nat) : FVal :=
  let v := arrVal fmt (nth 0 vec k)
  if isMx fmt then scaleVal v (nth 0 sc (k / 32)) else v

/-- The pairs of values that meet for output o (R153): element k with W[k][o], or W[o][k] in transposed mode. -/
def dotPairs (fmt : Nat) (tr : Bool) (vec sc : List Nat) (w : WBuf) (o : Nat) : List (FVal × FVal) :=
  (List.range (vecLen fmt tr)).map (fun k => (xVal fmt vec sc k, if tr then wVal w o k else wVal w k o))

/-- Value of an INT8 activation or weight pair's product as an integer. -/
def intOf : FVal → Int
  | .fin s m _ => if s then -(m : Int) else m
  | _ => 0

/-- Is a value a zero of negative sign? -/
def negZero : FVal → Bool
  | .fin s m _ => s && m == 0
  | _ => false

/-- The new collector element (R166 to R168). For INT8 the exact integer sum times the product scale is one term; a sum of zero is negative
only where every product is a zero of negative sign (R167). -/
def dotRound (fmt : Nat) (rb : W32) (pairs : List (FVal × FVal)) (old : W32) : W32 :=
  if fmt = 0xA then
    let i := pairs.foldl (fun a p => a + intOf p.1 * intOf p.2) (0 : Int)
    let sign := if i = 0 then pairs.all (fun p => negZero (mulVal p.1 p.2)) else decide (i < 0)
    sumVals [mulVal (.fin sign i.natAbs 0) (f32Val rb), f32Val old]
  else sumVals (pairs.map (fun p => mulVal p.1 p.2) ++ [f32Val old])

/-- Is a value a zero? -/
def valZero : FVal → Bool
  | .fin _ m _ => m == 0
  | _ => false
/-- Is a value finite? -/
def valFin : FVal → Bool
  | .fin .. => true
  | _ => false
/-- Is a multiply-accumulate gated? (R169: element values, a NaN scale apart) -/
def gated (p : FVal × FVal) : Bool := (valZero p.1 && valFin p.2) || (valZero p.2 && valFin p.1)

/-- The pairs of element values without scales, for gating. -/
def gatePairs (fmt : Nat) (tr : Bool) (vec : List Nat) (w : WBuf) (o : Nat) : List (FVal × FVal) :=
  let wv (k j : Nat) : FVal :=
    match w.fmt with
    | none => .fin false 0 0
    | some f => arrVal f (mget 0 w.elems (32 * k + j))
  (List.range (vecLen fmt tr)).map (fun k => (arrVal fmt (nth 0 vec k), if tr then wv o k else wv k o))

/-! ## Bodies and checks at issue (R160 to R164, R178) -/

/-- RA of an M-slot body, bits [21:17] (R160). -/
def mRa (b : BitVec 22) : Nat := bits b.toNat 21 17
/-- RB of an M-slot body, bits [16:12] (R160). -/
def mRb (b : BitVec 22) : Nat := bits b.toNat 16 12

/-- M-slot forms: registers named, reserved bits. -/
def mIns (op : Nat) (ok : Bool) (srcs : List Nat) : SlotIns := { slot := .m, op, ok, srcs }

/-- A MATRIX_FAULT of an M-slot opcode (R178). -/
def matrixFault (op code : Nat) : ExecTrap := ⟨2, trapMatrixFault, op * 256 + code, 0, 0, []⟩

/-- The first check that fails, lowest code first (log entry 23). One that fails traps in the issue cycle even while four are queued: it is to
enter no queue (DESIGN CHOICE, log entry 126). -/
def firstFault (op : Nat) (l : List (Nat × Bool)) : Option ExecTrap :=
  (l.find? (fun x => x.2)).map (fun x => matrixFault op x.1)

/-- Does a byte range leave the scratchpad? -/
def outside (a n : Nat) : Bool := n != 0 && decide (0x100000 < a + n)

/-- Put a checked M-slot instruction into the queue: the bundle waits while four are queued, and issues no earlier than the start
of the fourth before it (R170). -/
def enqueue (d : TileData) (op : MOp) (upd : TileData → TileData) : SlotRes :=
  if d.mq.length ≥ 4 then { d, blocked := true }
  else { d := upd d, mop := some op, earliest := nth 0 d.mstarts (3 - d.mq.length) }

/-- MLDW (R159, R160). -/
def execMldw (j : Issue) (b : BitVec 22) (s : State) : Ans :=
  let n := b.toNat
  issueS (mIns 1 (bits n 8 0 == 0) [kS (mRa b), kS (mRb b)]) noOwn (fun e d =>
    let ra := (getS e.base (mRa b)).toNat
    let rb := (getS e.base (mRb b)).toNat
    let fmt := bits ra 31 28
    let img := bits ra 19 0
    match firstFault 1
      [(1, bits ra 27 20 != 0 || fmt > 0xA),
       (4, img % 32 != 0 || outside img (32 * slotSize fmt) || outside rb (imgScales fmt)),
       (5, fmt == 0)] with
    | some x => { d, traps := [x] }
    | none =>
      let slot := 2 * bits n 11 10 + bits n 9 9
      enqueue d (.ldw (bits n 11 10) (bits n 9 9) fmt img rb) (fun d => { d with wIssued := mset 0 d.wIssued slot (fmt + 1) })) j b s

/-- Is a product scale positive, finite and normal? (R158) -/
def goodScale (a : W32) : Bool := decide (0x00800000 ≤ a.toNat) && decide (a.toNat < 0x7F800000)

/-- Does an activation format match every buffer an MRUN names? (R155) -/
def classesMatch (d : TileData) (fmt buf : Nat) : Bool :=
  (List.range 4).all (fun a =>
    let w := mget 0 d.wIssued (2 * a + buf)
    w == 0 || arrClass (w - 1) == arrClass fmt)

/-- MRUN (R153, R160). -/
def execMrun (j : Issue) (b : BitVec 22) (s : State) : Ans :=
  let v := b.toNat
  issueS (mIns 2 (bits v 2 0 == 0) [kS (mRa b), kS (mRb b)]) noOwn (fun e d =>
    let ra := (getS e.base (mRa b)).toNat
    let rb := getS e.base (mRb b)
    let fmt := bits ra 31 28
    let row := bits ra 26 20
    let addr := bits ra 19 0
    let n := bits v 11 5 + 1
    let tr := bit v 4
    let buf := bits v 3 3
    match firstFault 2
      [(1, bit ra 27 || fmt > 0xA),
       (2, fmt != 0 && !classesMatch d fmt buf),
       (3, decide (127 < row + rowsPerVec fmt tr * n - 1)),
       (4, addr % 32 != 0 || outside addr (32 * beatsOf fmt n) || outside rb.toNat (scaleBytes fmt n tr)),
       (5, fmt == 0),
       (7, fmt == 0xA && !goodScale rb)] with
    | some x => { d, traps := [x] }
    | none => enqueue d (.run fmt row addr rb.toNat n tr buf) id) j b s

/-- MZERO (R161). -/
def execMzero (j : Issue) (b : BitVec 22) (s : State) : Ans :=
  let v := b.toNat
  issueS (mIns 3 (bits v 3 0 == 0) []) noOwn (fun _ d =>
    let row := bits v 21 15
    let n := bits v 14 8 + 1
    match firstFault 3 [(3, decide (127 < row + n - 1))] with
    | some x => { d, traps := [x] }
    | none => enqueue d (.zero row n (bits v 7 4)) id) j b s

/-- Bytes of a drained row in the plain layout (R162). -/
def drainWidth (fmt : Nat) : Nat :=
  if fmt = 0 then 128 else if arrClass fmt = some 0 then 64 else if fmt = 7 then 24 else if fmt = 8 then 16 else 32

/-- MDRAIN (R162, R163). -/
def execMdrain (j : Issue) (b : BitVec 22) (s : State) : Ans :=
  let v := b.toNat
  issueS (mIns 4 (bits v 1 0 == 0) [kS (mRa b), kS (mRb b)]) noOwn (fun e d =>
    let ra := (getS e.base (mRa b)).toNat
    let rb := (getS e.base (mRb b)).toNat
    let fmt := bits ra 31 28
    let row := bits ra 26 20
    let dst := bits ra 19 0
    let n := bits v 11 5 + 1
    let stag := bit v 2
    match firstFault 4
      [(1, bit ra 27 || fmt > 0xA),
       (3, decide (127 < row + n - 1)),
       (4, dst % 32 != 0 || outside dst (if stag then 32 * beatsOf fmt n else n * drainWidth fmt) ||
           (isMx fmt && outside rb n)),
       (5, fmt == 0xA || (stag && (fmt == 8 || fmt == 0)))] with
    | some x => { d, traps := [x] }
    | none => enqueue d (.drain (bits v 4 3) row n dst rb fmt stag) id) j b s

/-- MWGB (R164). -/
def execMwgb (j : Issue) (b : BitVec 22) (s : State) : Ans :=
  let v := b.toNat
  issueS (mIns 5 (bits v 9 0 == 0) [kS (bits v 21 17)]) noOwn (fun e d =>
    let ra := (getS e.base (bits v 21 17)).toNat
    let row := bits ra 26 20
    let n := bits v 14 10 + 1
    let blk := bits ra 5 0
    match firstFault 5
      [(1, bits ra 31 27 != 0 || bits ra 19 6 != 0),
       (3, decide (127 < row + n - 1)),
       (6, decide ((if d.wgbExact then 23 else 47) < blk))] with
    | some x => { d, traps := [x] }
    | none => enqueue d (.wgb (bits v 16 15) row n blk) id) j b s

end Sys2Proof.Machine
end

