-- ==== Sys2Proof/Machine/MatrixEvents.lean ====
section
/-! DEFINITION. The M unit at work: starts in issue order, row commits, buffers ready, drains landing (06 R161 to R180). -/

namespace Sys2Proof.Machine

/-- Collector element: array a, row, column (R161). -/
def collGet (d : TileData) (a row j : Nat) : W32 := mget 0 d.coll (4096 * a + 32 * row + j)
/-- Write a collector element. -/
def collPut (a row j : Nat) (v : W32) (d : TileData) : TileData :=
  { d with coll := mset 0 d.coll (4096 * a + 32 * row + j) v }
/-- A row of a collector. -/
def collRow (d : TileData) (a row : Nat) : List W32 := (List.range 32).map (collGet d a row)

/-- The profile a tile keeps to: 1 TP1, 2 TP2 (R3, R6, R410): that of its job, or the native one where its partition holds none. -/
def profileOf (ch : Chip) (m : Mod) (t : Nat) : Nat :=
  match partOfTile m t with
  | some p => if (partOf m p).jstate = .none then nativeProfile ch else (partOf m p).profile
  | none => nativeProfile ch
/-- L_A (R174). -/
def latA (profile : Nat) : Nat := if profile = 2 then 64 else 72
/-- C of an MLDW (R172). -/
def loadCycles (fmt : Nat) : Nat := if arrClass fmt = some 0 then 64 else if fmt = 8 then 34 else if isMx fmt then 33 else 32

/-- Do two ranges overlap? -/
def overlap (a b c d : Nat) : Bool := decide (a ≤ d) && decide (c ≤ b)

/-- The first cycle the past effects of a kind allow (R170). -/
def depCycle (l : List MDep) (k : MDepKind) (arrs lo hi : Nat) : Nat :=
  l.foldl (fun a x => if x.kind = k && (x.arrs &&& arrs) != 0 && overlap x.lo x.hi lo hi then Nat.max a x.cycle else a) 0

/-- Rows that a started MRUN has still to commit. -/
def pendingRows (r : MRunning) (lo hi : Nat) : Bool :=
  let w := rowsPerVec r.fmt r.tr
  decide (r.done < r.n) && overlap (r.base + w * r.done) (r.base + w * r.n - 1) lo hi

/-- Has every started MRUN committed the rows? (R170) -/
def rowsCommitted (d : TileData) (lo hi : Nat) : Bool := d.mruns.all (fun r => !pendingRows r lo hi)

/-- Are writes of a drain to bytes lo to hi still to land? -/
def landingPending (d : TileData) (lo hi : Nat) : Bool :=
  d.drain.any (fun x => overlap (4 * x.word) (4 * x.word + 4 * x.data.length - 1) lo hi)

/-- An entry starts at a cycle: the queue's head leaves it; past effects that can delay nothing any more are forgotten. -/
def started (c : Nat) (d : TileData) : TileData :=
  { d with mq := d.mq.drop 1, mstarts := (c :: d.mstarts).take 4, mdeps := d.mdeps.filter (fun x => decide (c < x.cycle)) }

/-- Earliest cycle of the queue's head: its issue, and the start before it (R170). -/
def headCycle (d : TileData) (e : MEntry) : Nat := Nat.max e.issued (nth 0 d.mstarts 0)

/-- Reads of the M unit (port, byte address, cycle presented) by their cycle; one word read in one access is one read. -/
def readInsert (x : Nat × Nat × Nat) : List (Nat × Nat × Nat) → List (Nat × Nat × Nat)
  | [] => [x]
  | y :: r => if x = y then y :: r else if x.2.2 < y.2.2 then x :: y :: r else y :: readInsert x r

/-- SCRATCH_PARITY of the reads of an M-slot instruction (R179, R190): each word that fails its check is recorded, in the order of the reads,
and traps, at the check stage, three core cycles after its access is presented. -/
def mParity (t pc k : Nat) (reads : List (Nat × Nat × Nat)) (m : Mod) : Mod :=
  let fails := (reads.filter (fun x => (tdOf m t).spBad.contains (x.2.1 / 4))).foldl (fun l x => readInsert (x.1, x.2.1 / 4 * 4, x.2.2) l) []
  interrupt t (nowOf m t) (modTd t (fun d => { d with
    faultsDue := fails.foldl (fun l x =>
      dueInsert ⟨pc, 4, trapScratchParity, x.2.1, x.2.2 + 3 * k, x.1, [x.2.1]⟩ l) d.faultsDue }) m)

/-- The start of an MRUN that continues the stream of the one that holds the path, if it does (R171), all else allowing it from a cycle. -/
def continuedStart (d : TileData) (k : Nat) (e : MEntry) (cls : Nat) (mx6 tr : Bool) (addr c : Nat) : Option Nat :=
  match d.stream with
  | none => none
  | some h =>
    let p := if h.cls = 0 then 2 else 1
    let next := h.start + p * h.n * k
    if h.cls = cls && h.mx6 == mx6 && h.tr == tr && addr == h.addr + 32 * p * h.n && decide (e.issued ≤ next) && decide (c ≤ next)
    then some next else none

/-- The start cycle of an MRUN on the stream path (R171). -/
def streamStart (d : TileData) (k : Nat) (e : MEntry) (cls : Nat) (mx6 tr : Bool) (addr c : Nat) : Nat :=
  match continuedStart d k e cls mx6 tr addr c, d.stream with
  | some next, _ => next
  | none, some h => Nat.max c (h.start + h.beats * k)
  | none, none => c

/-- MRUN_START (R170, R171): its conditions are that every earlier MLDW of the buffer is ready and that no drain has still to
write its stream or scales. The stream, its scales and the weights are taken as they stand (log entry 24). Of a continued stream the beats that
the MRUN before has read are not read again. -/
def execMrunStart (t : TileId) (s : State) : Ans :=
  onChip (fun ch m =>
    let d := tdOf m t.val
    match d.mq with
    | { op := .run fmt base addr rb n tr buf, issued, pc } :: _ =>
      let nb := beatsOf fmt n
      let sb := scaleBytes fmt n tr
      if !clockRuns m t.val || d.mloads.any (fun x => x.slot % 2 == buf) || landingPending d addr (addr + 32 * nb - 1) ||
          (sb != 0 && landingPending d rb (rb + sb - 1)) then m
      else
        let k := coreK m t.val
        let rows := rowsPerVec fmt tr * n
        let c := Nat.max (headCycle d ⟨.run fmt base addr rb n tr buf, issued, pc⟩)
          (Nat.max (depCycle d.mdeps .ready 1 buf buf)
            (Nat.max (depCycle d.mdeps .land 1 addr (addr + 32 * nb - 1))
              (Nat.max (if sb = 0 then 0 else depCycle d.mdeps .land 1 rb (rb + sb - 1))
                (depCycle d.mdeps .release 15 base (base + rows - 1)))))
        let cls := (arrClass fmt).getD 0
        let e : MEntry := ⟨.run fmt base addr rb n tr buf, issued, pc⟩
        let skip := if (continuedStart d k e cls (fmt == 7) tr addr c).isSome then 32 - perVec fmt else 0
        let c := streamStart d k e cls (fmt == 7) tr addr c
        let lat := latA (profileOf ch m t.val) * k
        let run : MRunning :=
          { fmt, base, n, tr, buf, rb, start := c, addr
            vecs := (List.range n).map (streamVec d fmt tr addr)
            scales := (List.range n).map (streamScale d fmt tr rb)
            weights := (List.range 4).map (fun a => mget {} d.wbuf (2 * a + buf))
            done := 0 }
        let deps := (List.range n).map (fun v =>
            ({ kind := .commit, arrs := 15, lo := base + rowsPerVec fmt tr * v, hi := base + rowsPerVec fmt tr * v + rowsPerVec fmt tr - 1
               cycle := c + lat + (perVec fmt * v + 1) * k } : MDep))
          ++ [{ kind := .run, arrs := 15, lo := buf, hi := buf, cycle := c + nb * k }]
        let m := modTd t.val (fun d => { started c d with
          mruns := d.mruns ++ [run]
          mdeps := (started c d).mdeps ++ deps
          stream := some { cls, mx6 := fmt == 7, tr, addr, n, start := c, beats := nb } }) m
        let beatReads := ((List.range (8 * nb)).drop (8 * skip)).map (fun w => (portMS, addr + 4 * w, c + w / 8 * k))
        let scaleReads := (List.range sb).map (fun i => (portMW, rb + i,
          c + (if fmt = 8 && !tr then i / 2 + 16 * (i % 2) else perVec fmt * i) * k))
        mParity t.val pc k (beatReads ++ scaleReads) m
    | _ => m) s

/-- MLDW_START (R170, R172): the weight path is free, and no drain has still to write the image or its scales. It presents 32 bytes of the
image a cycle from its start on, then 32 scale bytes a cycle: R172 gives C and the ready cycle only (DESIGN CHOICE, log entry 124). -/
def execMldwStart (t : TileId) (s : State) : Ans :=
  onMod (fun m =>
    let d := tdOf m t.val
    match d.mq with
    | { op := .ldw arr buf fmt img sc, issued, pc } :: _ =>
      let ib := 32 * slotSize fmt
      let sb := imgScales fmt
      if !clockRuns m t.val || landingPending d img (img + ib - 1) || (sb != 0 && landingPending d sc (sc + sb - 1)) then m
      else
        let k := coreK m t.val
        let c := Nat.max (headCycle d ⟨.ldw arr buf fmt img sc, issued, pc⟩)
          (Nat.max d.wpathFree (Nat.max (depCycle d.mdeps .run 15 buf buf)
            (Nat.max (depCycle d.mdeps .land 1 img (img + ib - 1))
              (if sb = 0 then 0 else depCycle d.mdeps .land 1 sc (sc + sb - 1)))))
        let ready := c + (8 + loadCycles fmt) * k
        let m := modTd t.val (fun d => { started c d with
          wpathFree := c + loadCycles fmt * k
          mloads := d.mloads ++ [{ slot := 2 * arr + buf, content := readImage d fmt img sc, start := c, ready := ready }]
          mdeps := (started c d).mdeps ++ [{ kind := .ready, arrs := 1, lo := buf, hi := buf, cycle := ready }] }) m
        mParity t.val pc k
          ((List.range (ib / 4)).map (fun w => (portMW, img + 4 * w, c + w / 8 * k)) ++
           (List.range sb).map (fun i => (portMW, sc + i, c + (ib / 32 + i / 32) * k))) m
    | _ => m) s

/-- WEIGHT_BUFFER_READY (R172): the oldest load of the buffer is complete. -/
def execWeightBufferReady (t : TileId) (buf : Fin 8) (s : State) : Ans :=
  onMod (fun m =>
    match (tdOf m t.val).mloads.find? (fun x => x.slot == buf.val) with
    | some x =>
      if !clockRuns m t.val then m
      else modTd t.val (fun d => { d with
        wbuf := mset {} d.wbuf buf.val x.content
        mloads := match findIdx? (fun (y : MLoading) => y.slot == buf.val) d.mloads with
          | some k => dropNth d.mloads k
          | none => d.mloads }) m
    | none => m) s

/-- New collector rows of a vector, and its counts: non-finite elements, multiply-accumulates, gated ones (R153, R166 to R169). -/
def commitVector (r : MRunning) (v : Nat) (d : TileData) : TileData :=
  let vec := nth [] r.vecs v
  let sc := nth [] r.scales v
  let rows := rowsPerVec r.fmt r.tr
  let outs := outLen r.fmt r.tr
  (List.range 4).foldl (fun d a =>
    let w := nth {} r.weights a
    (List.range outs).foldl (fun d o =>
      let row := r.base + rows * v + o / 32
      let res := dotRound r.fmt (BitVec.ofNat 32 r.rb) (dotPairs r.fmt r.tr vec sc w o) (collGet d a row (o % 32))
      let g := ((gatePairs r.fmt r.tr vec w o).filter gated).length
      { collPut a row (o % 32) res d with
        maNonfinite := d.maNonfinite + b2n (f32IsNan res || f32IsInf res)
        maCellOps := d.maCellOps + vecLen r.fmt r.tr
        maGatedOps := d.maGatedOps + g }) d) d

/-- ROW_COMMIT (R174): the oldest MRUN with vectors to commit commits its next one, v. -/
def execRowCommit (t : TileId) (v : Nat) (s : State) : Ans :=
  onMod (fun m =>
    match (tdOf m t.val).mruns with
    | r :: _ =>
      if r.done ≠ v || !clockRuns m t.val then m
      else modTd t.val (fun d => { commitVector r v d with
        mruns := if v + 1 < r.n then { r with done := v + 1 } :: d.mruns.drop 1 else d.mruns.drop 1 }) m
    | [] => m) s

/-- MZERO_START (R161, R170): earlier MRUNs have committed the rows. -/
def execMzeroStart (t : TileId) (s : State) : Ans :=
  onMod (fun m =>
    let d := tdOf m t.val
    match d.mq with
    | { op := .zero row n mask, issued, pc } :: _ =>
      if !clockRuns m t.val || !rowsCommitted d row (row + n - 1) then m
      else
        let c := Nat.max (headCycle d ⟨.zero row n mask, issued, pc⟩)
          (Nat.max (depCycle d.mdeps .commit mask row (row + n - 1)) (depCycle d.mdeps .release mask row (row + n - 1)))
        modTd t.val (fun d =>
          (maskBits 4 mask).foldl (fun d a => (List.range n).foldl (fun d r =>
            (List.range 32).foldl (fun d j => collPut a (row + r) j 0 d) d) d) (started c d)) m
    | _ => m) s

/-- Element codes of a drained row, and its scale (R162, R163): FP32 is copied; other formats are those of VCVT. -/
def drainRow (fmt : Nat) (row : List W32) : List Nat × Nat × List Conv :=
  if fmt = 0 then (row.map (·.toNat), 0, [])
  else match arrElem fmt with
    | some (.fp f) =>
      if isMx fmt then let r := mxEncode (.fp f) row; (r.2.map (·.code), r.1, r.2)
      else let l := row.map (narrow f); (l.map (·.code), 0, l)
    | some .int8 => let r := mxEncode .int8 row; (r.2.map (·.code), r.1, r.2)
    | none => (row.map (·.toNat), 0, [])

/-- Number of the destination format of a drain in the table Formats (R124, R144). -/
def drainFormat (fmt : Nat) : Nat :=
  match fmt with
  | 1 => 2 | 2 => 3 | 3 => 4 | 4 => 5 | 5 => 6 | 6 => 6 | 7 => 7 | 8 => 8 | 9 => 9 | _ => 1

/-- Codes packed at a width as 32-bit words. -/
def packCodes (w n : Nat) (codes : List Nat) : List W32 :=
  leWords n ((List.range codes.length).foldl (fun a i => a + (nth 0 codes i <<< (w * i))) 0)

/-- Beat k of the staggered layout of drained rows (R156, R157, R162); positions without an element are zero. -/
def stagBeat (fmt n : Nat) (rows : List (List Nat)) (k : Nat) : List W32 :=
  let p := perVec fmt
  leWords 8 ((List.range 32).foldl (fun a i =>
    if k < i || (k - i) % p != 0 || n ≤ (k - i) / p then a
    else
      let code := nth 0 (nth [] rows ((k - i) / p)) i
      a + (code <<< (if fmt = 7 then 6 * i else if p = 2 then 16 * (i / 2) else 8 * i))) 0)

/-- The scale words of a drain: every word that holds a byte from RB to RB + rows − 1, its other bytes zero (R162). -/
def scaleWords (rb : Nat) (scales : List Nat) : Nat × List W32 :=
  let lo := rb / 4
  let n := (rb + scales.length - 1) / 4 - lo + 1
  (lo, leWords n ((List.range scales.length).foldl (fun a i => a + (nth 0 scales i <<< (8 * (rb % 4 + i)))) 0))

/-- MDRAIN_START (R162, R170, R172): the rows are committed; their conversions are counted; the writes land later. The scale words land with
the last beat or row: R172 gives their cycle nowhere (DESIGN CHOICE, log entry 123). -/
def execMdrainStart (t : TileId) (s : State) : Ans :=
  onMod (fun m =>
    let d := tdOf m t.val
    match d.mq with
    | { op := .drain arr row n dst sc fmt stag, issued, pc } :: _ =>
      if !clockRuns m t.val || !rowsCommitted d row (row + n - 1) then m
      else
        let k := coreK m t.val
        let c := Nat.max (headCycle d ⟨.drain arr row n dst sc fmt stag, issued, pc⟩)
          (Nat.max d.drainFree (depCycle d.mdeps .commit (1 <<< arr) row (row + n - 1)))
        let dur := if stag then perVec fmt * (n - 1) + 32 else n
        let conv := (List.range n).map (fun r => drainRow fmt (collRow d arr (row + r)))
        let codes := conv.map (fun x => x.1)
        let bytes := drainWidth fmt
        let items : List DrainItem :=
          if stag then (List.range (beatsOf fmt n)).map (fun b => ⟨c + (6 + b) * k, dst / 4 + 8 * b, stagBeat fmt n codes b⟩)
          else (List.range n).map (fun r =>
            ⟨c + (6 + r) * k, (dst + r * bytes) / 4, packCodes (8 * bytes / 32) (bytes / 4) (nth [] codes r)⟩)
        let last := c + (5 + items.length) * k
        let sw := scaleWords sc (conv.map (fun x => x.2.1))
        let scItem : List DrainItem := if isMx fmt then [⟨last, sw.1, sw.2⟩] else []
        let total := if stag then 32 * beatsOf fmt n else n * bytes
        let deps : List MDep :=
          [{ kind := .release, arrs := 1 <<< arr, lo := row, hi := row + n - 1, cycle := c + dur * k },
           { kind := .land, arrs := 1, lo := dst, hi := dst + total - 1, cycle := last + k }] ++
          (if isMx fmt then [{ kind := .land, arrs := 1, lo := 4 * sw.1, hi := 4 * (sw.1 + sw.2.length) - 1, cycle := last + k }] else [])
        modTd t.val (fun d =>
          let d := { started c d with drain := d.drain ++ items ++ scItem, drainFree := c + dur * k, mdeps := (started c d).mdeps ++ deps }
          if fmt = 0 then d else countConvs (drainFormat fmt) (conv.flatMap (fun x => x.2.2)) d) m
    | _ => m) s

/-- DRAIN_LAND (R172): the next beat or row of a drain lands in the scratchpad; XO reads due by that cycle come first (R219). -/
def execDrainLand (t : TileId) (s : State) : Ans :=
  onMod (fun m =>
    match (tdOf m t.val).drain with
    | x :: _ =>
      if !clockRuns m t.val then m
      else landWords t.val rankMD x.cycle (4 * x.word) x.data (modTd t.val (fun d => { d with drain := d.drain.drop 1 }) m)
    | [] => m) s

/-- An MWGB that starts at a cycle adds a row of a collector into the block (R164, R172, R308 to R310): row r two core cycles and r more
after the start; each range event is signalled to Gondola then. The reads of exports that are due before that cycle come first (R307); one
of the same cycle comes after the add (DESIGN CHOICE, log entry 141). -/
def mwgbRow (t arr row blk c k : Nat) (m : Mod) (r : Nat) : Mod :=
  let m := readBeatsNow t (c + (2 + r) * k - 1) m
  let d := tdOf m t
  let at_ := c + (2 + r) * k
  let n := (wgbAddRow at_ blk r (collRow d arr (row + r)) d).2
  (List.range n).foldl (fun m _ => signalTile t 0x06 blk (tileTick m t at_) m)
    (modTd t (fun d => (wgbAddRow at_ blk r (collRow d arr (row + r)) d).1) m)

/-- MWGB_START (R164, R172): the rows are added one after the other. -/
def execMwgbStart (t : TileId) (s : State) : Ans :=
  onMod (fun m =>
    let d := tdOf m t.val
    match d.mq with
    | { op := .wgb arr row n blk, issued, pc } :: _ =>
      if !clockRuns m t.val || !rowsCommitted d row (row + n - 1) then m
      else
        let k := coreK m t.val
        let c := Nat.max (headCycle d ⟨.wgb arr row n blk, issued, pc⟩)
          (Nat.max d.drainFree (depCycle d.mdeps .commit (1 <<< arr) row (row + n - 1)))
        let m := modTd t.val (fun d => wgbFill blk { started c d with
          drainFree := c + n * k
          mdeps := (started c d).mdeps ++
            [{ kind := .release, arrs := 1 <<< arr, lo := row, hi := row + n - 1, cycle := c + n * k }] }) m
        (List.range n).foldl (mwgbRow t.val arr row blk c k) m
    | _ => m) s

/-- The stamps of a tile's M unit, of its results and of traps to come, when the clock of its half changes (R175, R464): the figures are tile
cycles, so those still to pass at the switch, from source cycle g, pass after its 64 gated cycles, at k' source cycles each in place of k. -/
def retime (g k k' : Nat) (d : TileData) : TileData :=
  let f (c : Nat) : Nat := if g ≤ c then g + 64 + (c - g) * k' / k else g + 64 - (g - c) * k' / k
  { d with
    ready := d.ready.foldl (fun r x => if g < x.2 then mset 0 r x.1 (f x.2) else r) d.ready
    lands := d.lands.map (fun x => { x with cycle := f x.cycle })
    faultsDue := d.faultsDue.map (fun x => { x with cycle := f x.cycle })
    mq := d.mq.map (fun x => { x with issued := f x.issued })
    mstarts := d.mstarts.map f
    mdeps := d.mdeps.map (fun x => { x with cycle := f x.cycle })
    mruns := d.mruns.map (fun x => { x with start := f x.start })
    mloads := d.mloads.map (fun x => { x with start := f x.start, ready := f x.ready })
    drain := d.drain.map (fun x => { x with cycle := f x.cycle })
    drainFree := f d.drainFree, wpathFree := f d.wpathFree
    stream := d.stream.map (fun h => { h with start := f h.start }) }

/-- MA_STATUS (R180), seen at a local cycle; k source cycles make a tile cycle. -/
def maStatus (now k : Nat) (d : TileData) : W64 :=
  let busy := match d.stream with
    | some h => decide (now < h.start + h.beats * k)
    | none => false
  pack [(16, maskOf (indices 8 (fun b => (mget {} d.wbuf b).fmt != none))), (4, d.mq.length),
        (3, b2n (decide (now < d.drainFree))), (2, b2n (decide (now < d.wpathFree))), (1, b2n (d.mruns != [])), (0, b2n busy)]

end Sys2Proof.Machine
end

