-- ==== Sys2Proof/Machine/Streams.lean ====
section
/-! DEFINITION. Stream queues: descriptors, QISSUE, WAITQ, QPOLL, requests, landings, completion, Reel (03 R68; 10 R279 to R291). -/

namespace Sys2Proof.Machine

/-! ## Fields and checks of a descriptor (R280, R281) -/

/-- Word i of a descriptor. -/
def dw (ws : List W32) (i : Nat) : Nat := (nth 0 ws i).toNat
/-- OP. -/
def dOp (ws : List W32) : Nat := bits (dw ws 0) 31 28
/-- LAYOUT. -/
def dLay (ws : List W32) : Nat := bits (dw ws 0) 27 25
/-- EFMT. -/
def dFmt (ws : List W32) : Nat := bits (dw ws 0) 24 21
/-- REGION. -/
def dReg (ws : List W32) : Bool := bit (dw ws 0) 20
/-- LOCAL. -/
def dLocal (ws : List W32) : Nat := bits (dw ws 0) 19 0
/-- Rows. -/
def dRows (ws : List W32) : Nat := bits (dw ws 1) 31 21 + 1
/-- ROW_BYTES. -/
def dRowBytes (ws : List W32) : Nat := bits (dw ws 1) 20 0
/-- DRAM address. -/
def dDram (ws : List W32) : Nat := dw ws 2 + 2 ^ 32 * bits (dw ws 3) 15 0
/-- STRIDE. -/
def dStride (ws : List W32) : Nat := dw ws 4 + 2 ^ 32 * bits (dw ws 5) 15 0
/-- TAG. -/
def dTag (ws : List W32) : Nat := bits (dw ws 3) 31 16
/-- ATR. -/
def dAtr (ws : List W32) : Bool := bit (dw ws 5) 16
/-- Bytes of a descriptor's data. -/
def dTotal (ws : List W32) : Nat := dRows ws * dRowBytes ws
/-- Bytes of an element of a STAGGER_T format (R281). -/
def transBytes (fmt : Nat) : Nat := if fmt = 1 ∨ fmt = 2 then 2 else if fmt = 3 ∨ fmt = 4 ∨ fmt = 0xA then 1 else 0
/-- Vector size of a STAGGER row (R281). -/
def vecBytes (fmt : Nat) (atr : Bool) : Nat :=
  if arrClass fmt = some 0 then 64 else if fmt = 7 then 24 else if fmt = 8 then (if atr then 16 else 32) else 32
/-- Vectors of an array descriptor (R282). -/
def dVecs (ws : List W32) : Nat := if dLay ws = 2 then dRowBytes ws / transBytes (dFmt ws) else dRows ws

/-- Do the checks of R281 hold for a descriptor issued to a queue? -/
def descOk (q : Nat) (ws : List W32) : Bool :=
  let fmt := dFmt ws
  let rb := dRowBytes ws
  (dOp ws == 1 || dOp ws == 2) && ((dOp ws == 1) == decide (q < 8)) && decide (dLay ws ≤ 2) &&
  bits (dw ws 5) 31 17 == 0 && dw ws 6 == 0 && dw ws 7 == 0 &&
  decide (4 ≤ rb) && decide (rb ≤ 1048576) && rb % 4 == 0 && dDram ws % 4 == 0 && dStride ws % 4 == 0 &&
  decide (dDram ws + (dRows ws - 1) * dStride ws + rb ≤ dramEnd) &&
  (if dLay ws = 0 then
    fmt == 0 && !dAtr ws && decide (dTotal ws ≤ 1048576) &&
      (if dReg ws then decide (dLocal ws ≤ 15) else dLocal ws % 4 == 0 && decide (dLocal ws + dTotal ws ≤ 0x100000))
  else
    dOp ws == 1 && !dReg ws && (arrClass fmt).isSome && (!dAtr ws || (fmt == 8 && dLay ws == 1)) &&
      (if dLay ws = 1 then rb == vecBytes fmt (dAtr ws) else transBytes fmt != 0 && dRows ws == 32) &&
      dLocal ws % 4 == 0 && decide (dLocal ws + 32 * beatsOf fmt (dVecs ws) ≤ 0x100000))

/-- The burst pieces of a descriptor, in row order (R284). -/
def descPieces (ws : List W32) : List Piece :=
  (List.range (dRows ws)).flatMap (fun i =>
    splitPieces (dRowBytes ws / 256 + 2) (dDram ws + i * dStride ws) (dRowBytes ws) (i * dRowBytes ws))

/-- Does a STAGGER descriptor continue the last STAGGER descriptor of its queue that is not retired (R283)? -/
def continues (ds : List Desc) (ws : List W32) : Bool :=
  dLay ws == 1 && (match ds.reverse.find? (fun d => dLay d.words == 1) with
    | none => false
    | some p =>
      let fp := dFmt p.words; let f := dFmt ws
      arrClass fp == arrClass f && (fp == 7) == (f == 7) && dAtr p.words == dAtr ws &&
        dLocal ws == dLocal p.words + 32 * perVec f * dVecs p.words)

/-! ## Queues (R279, R285) -/

/-- A queue of a tile. -/
def queueOf (d : TileData) (q : Nat) : Queue := mget {} d.queues q
/-- Change a queue. -/
def modQueue (q : Nat) (f : Queue → Queue) (d : TileData) : TileData := { d with queues := mmod {} d.queues q f }
/-- Change a descriptor of a queue by its number. -/
def modDesc (q no : Nat) (f : Desc → Desc) (d : TileData) : TileData :=
  modQueue q (fun x => { x with descs := x.descs.map (fun e => if e.no = no then f e else e) }) d
/-- Change a piece of a descriptor. -/
def modPiece (q no k : Nat) (f : Piece → Piece) (d : TileData) : TileData :=
  modDesc q no (fun e => { e with pieces := modNth f e.pieces k }) d
/-- A descriptor takes its place in a queue. -/
def pushDesc (q : Nat) (ws : List W32) (reel : Bool) (d : TileData) : TileData :=
  modQueue q (fun x => { x with
    nextNo := x.nextNo + 1
    descs := x.descs ++ [{ no := x.nextNo, words := ws, pieces := descPieces ws, done := false, faulted := false, reel, base := none,
                           cont := continues x.descs ws }] }) d
/-- Descriptors completed and not retired (R279). -/
def completedOf (x : Queue) : Nat := (x.descs.filter (·.done)).length

/-- A Reel entry's tile and queue (R289). -/
def reelTile (e : ReelEnt) : Nat := bits (dw e.words 8) 12 0
/-- QUEUE of a Reel entry. -/
def reelQueue (e : ReelEnt) : Nat := bits (dw e.words 9) 3 0

/-- Reel entry i of a partition. -/
def reelEnt (x : Part) (i : Nat) : ReelEnt := nth ⟨[], 0⟩ x.reel i

/-- Reel entries that wait for a place in a queue take the places that are free, in list order (R290). -/
def placeReel (p t q : Nat) (m : Mod) : Mod :=
  (partOf m p).reelWait.foldl (fun m i =>
    let e := reelEnt (partOf m p) i
    if reelTile e == t && reelQueue e == q && decide ((queueOf (tdOf m t) q).descs.length < 64) then
      modTd t (pushDesc q (e.words.take 8) true) (modPart p (fun x => { x with reelWait := x.reelWait.erase i }) m)
    else m) m

/-- Retire n completed descriptors of a queue (R68); a place may go to a Reel entry. -/
def retireDescs (t q n : Nat) (m : Mod) : Mod :=
  let m := modTd t (modQueue q (fun x => { x with descs := x.descs.drop n })) m
  match partOfTile m t with
  | some p => placeReel p t q m
  | none => m

/-- A WAITQ of a tile whose count is reached retires its descriptors and ends (R68, R84). -/
def wakeWaitq (t c : Nat) (m : Mod) : Mod :=
  let d := tdOf m t
  match d.st, d.wait.kind with
  | .waiting, .waitq q n => if n ≤ completedOf (queueOf d q) then endWait t c (retireDescs t q n m) else m
  | _, _ => m

/-! ## QISSUE, WAITQ, QPOLL (R68, R279) -/

/-- QISSUE (R279): the status to RD, or a trap. -/
def qissueEff (t : Nat) (b : BitVec 22) (e : SlotEnv) (m : Mod) : Mod :=
  let a := (getS e.base (fRa b)).toNat
  let q := bits b.toNat 11 8
  if a % 32 ≠ 0 then addTrap t ⟨3, trapMisaligned, a, 0, 0, []⟩ m
  else if 0x100000 ≤ a then addTrap t ⟨3, trapScratchRange, a, 0, 0, []⟩ m
  else
    let ws := spWords e.base a 8
    let m := (parityTraps 3 portDR (spFails e.base ((List.range 8).map (fun i => a + 4 * i)))).foldl (fun m x => addTrap t x m) m
    let x := queueOf (tdOf m t) q
    let st := if x.reel then 3 else if !descOk q ws then 2 else if 64 ≤ x.descs.length then 1 else 0
    let m := if st = 0 then modTd t (fun d => modQueue q (fun x => { x with issued := satAdd 32 x.issued 1 }) (pushDesc q ws false d)) m else m
    modTd t (xResult (kS (fRd b)) (BitVec.ofNat 32 st) (coreK m t) e.cycle) m

/-- QISSUE. -/
def execQissue (j : Issue) (b : BitVec 22) (s : State) : Ans :=
  issueX { slot := .x, op := 0x08, ok := bits b.toNat 7 0 == 0 && decide (bits b.toNat 11 8 ≤ 11), srcs := [kS (fRa b)], dests := [kS (fRd b)] }
    (qissueEff j.tile.val b) j b s

/-- WAITQ (R68). -/
def waitqEff (t : Nat) (b : BitVec 22) (_ : SlotEnv) (m : Mod) : Mod :=
  let q := bits b.toNat 21 18
  let n := bits b.toNat 17 12
  if n ≤ completedOf (queueOf (tdOf m t) q) then retireDescs t q n m else setWait t (.waitq q n) m

/-- WAITQ. -/
def execWaitq (j : Issue) (b : BitVec 22) (s : State) : Ans :=
  issueX { slot := .x, op := 0x09, ok := bits b.toNat 11 0 == 0 && decide (bits b.toNat 21 18 ≤ 11) && bits b.toNat 17 12 != 0 }
    (waitqEff j.tile.val b) j b s

/-- QPOLL (R279). -/
def qpollEff (t : Nat) (b : BitVec 22) (e : SlotEnv) (m : Mod) : Mod :=
  modTd t (xResult (kS (fRd b)) (BitVec.ofNat 32 (completedOf (queueOf (tdOf m t) (bits b.toNat 11 8)))) (coreK m t) e.cycle) m

/-- QPOLL. -/
def execQpoll (j : Issue) (b : BitVec 22) (s : State) : Ans :=
  issueX { slot := .x, op := 0x0A, ok := bits b.toNat 16 12 == 0 && bits b.toNat 7 0 == 0 && decide (bits b.toNat 11 8 ≤ 11), dests := [kS (fRd b)] }
    (qpollEff j.tile.val b) j b s

/-! ## Array images (R282, R283) -/

/-- Bits lo to lo + w − 1 of words. -/
def wordBits (ws : List W32) (lo w : Nat) : Nat :=
  let v := (nth 0 ws (lo / 32)).toNat + 2 ^ 32 * (nth 0 ws (lo / 32 + 1)).toNat
  bits v (lo % 32 + w - 1) (lo % 32)

/-- Bits of what an array descriptor carries at one beat position: an element, or an MXFP4 pair as one byte. -/
def elemBits (ws : List W32) : Nat :=
  let fmt := dFmt ws
  if dLay ws = 2 then 8 * transBytes fmt else if arrClass fmt = some 0 then 16 else if fmt = 7 then 6 else if fmt = 8 && dAtr ws then 4 else 8

/-- The vectors of an array descriptor from its data: what each of the 32 beat positions carries, packed as R157 gives. -/
def descVectors (ws : List W32) (data : List W32) : List (List Nat) :=
  let rb := 8 * dRowBytes ws
  let w := elemBits ws
  (List.range (dVecs ws)).map (fun t => (List.range 32).map (fun i =>
    if dLay ws = 2 then wordBits data (i * rb + t * w) w else wordBits data (t * rb + i * w) w))

/-- The data of a descriptor, in row order. -/
def descData (e : Desc) : List W32 := e.pieces.flatMap (·.data)

/-- The words of an array descriptor's beats from LOCAL upward (R282), after the vectors of the descriptor it continues (R283). -/
def imageWords (ws : List W32) (lead : List (List Nat)) (data : List W32) : List W32 :=
  let fmt := dFmt ws
  let vecs := lead ++ descVectors ws data
  (List.range (beatsOf fmt (dVecs ws))).flatMap (fun k => stagBeat fmt vecs.length vecs (perVec fmt * lead.length + k))

/-- The image with ones for the elements of the pieces that satisfy a test: which bits of each word are theirs. -/
def imageMask (e : Desc) (p : Nat → Bool) : List W32 :=
  imageWords e.words [] ((List.range e.pieces.length).flatMap (fun k => match nth? e.pieces k with
    | some x => List.replicate (x.len / 4) (if p k then BitVec.allOnes 32 else 0)
    | none => []))

/-- Does word i of an image wait for the completion of its descriptor: it holds no element of it, or lies in the first 32 − P beats of a
descriptor that continues another, which that one's image covers too (R282, R283; log entry 33)? -/
def wordWaits (e : Desc) (full : List W32) (i : Nat) : Bool :=
  nth 0 full i == 0 || (e.cont && decide (i < 8 * (32 - perVec (dFmt e.words))))

/-- The words of an image that satisfy a test land in a cycle (R184, R282). -/
def landImage (c : Nat) (e : Desc) (lead : List (List Nat)) (p : Nat → Bool) (d : TileData) : TileData :=
  let img := imageWords e.words lead (descData e)
  (List.range img.length).foldl (fun d i => if p i then spLand rankDW c (dLocal e.words + 4 * i) (nth 0 img i) d else d) d

/-- Piece k of an array descriptor comes back (R284): each word lands whose last element it brings. -/
def landStagger (c k : Nat) (e : Desc) (d : TileData) : TileData :=
  let here (i : Nat) : Bool := match nth? e.pieces i with
    | some x => x.st == .landed && x.err == 0
    | none => false
  let full := imageMask e (fun _ => true)
  let before := imageMask e (fun i => here i && i != k)
  let after := imageMask e (fun i => here i || i == k)
  landImage c { e with pieces := e.pieces.map (fun x => if x.data.isEmpty then { x with data := List.replicate (x.len / 4) 0 } else x) } []
    (fun i => !wordWaits e full i && nth 0 after i == nth 0 full i && nth 0 before i != nth 0 full i) d

/-- A completed array descriptor's last words land: those with no element of it, and the overlap with the elements of the descriptor it
continues too (R282, R283; log entry 33). -/
def writeImage (q c : Nat) (e : Desc) (d : TileData) : TileData :=
  let lead := if e.cont then (queueOf d q).lead else []
  let full := imageMask e (fun _ => true)
  let d := landImage c e lead (wordWaits e full) d
  if dLay e.words = 1 then
    modQueue q (fun x => { x with lead := let v := lead ++ descVectors e.words (descData e); v.drop (v.length - 33) }) d
  else d

/-! ## Completion (R285, R287) -/

/-- Has a descriptor's every piece been answered and landed? -/
def descReady (e : Desc) : Bool := e.pieces.all (fun x => x.st == .landed)

/-- STREAM_FAULT (R287, R302): the descriptor does not complete. -/
def streamFault (t q : Nat) (e : Desc) (x : Piece) (c : Nat) (m : Mod) : Mod :=
  let page := x.addr / 0x200000
  let code := b2n x.banked * 2 ^ 29 + page * 256 + x.err
  let m := modTd t (fun d => modDesc q e.no (fun e => { e with faulted := true })
    { d with streamFault := noteFirst c [q, x.err, page, b2n x.banked, dTag e.words] d.streamFault }) m
  let m := match partOfTile m t with
    | some p => if x.banked then setRestore p (burstStack (pageBurst m page (x.addr % 0x200000 / 256))) m else m
    | none => m
  trapTile t (tdOf m t).pc 8 trapStreamFault (q * 2 ^ 32 + code) c x.banked false m

/-- Complete the next descriptor of a queue if it can (R285): a region's TAIL is written, an array image lands, Reel counts it. Where several
of its requests have failed, the first of them in row order is reported: R287 does not say which (DESIGN CHOICE, log entry 142). -/
def completeNext (t q c : Nat) (m : Mod) : Mod :=
  match (queueOf (tdOf m t) q).descs.find? (fun e => !e.done) with
  | none => m
  | some e =>
    if e.faulted || !descReady e then m
    else match e.pieces.find? (fun x => x.err != 0) with
      | some x => streamFault t q e x c m
      | none =>
        let m := modTd t (fun d => if dLay e.words = 0 then d else writeImage q (c - 1) e d) (readBeatsNow t (c - 1) m)
        let m := modTd t (fun d =>
          let d := if dOp e.words = 1 && dReg e.words then advanceTail (dLocal e.words) c (dTotal e.words) d else d
          modDesc q e.no (fun e => { e with done := true, pieces := e.pieces.map (fun x => { x with data := [] }) }) d) m
        if e.reel then
          match partOfTile m t with
          | some p =>
            modPart p (fun x => { x with
              reelDelivered := satAdd 32 x.reelDelivered 1
              reel := match findIdx? (fun (r : ReelEnt) => decide (0 < r.active) && r.words.take 8 == e.words && reelTile r == t && reelQueue r == q)
                  x.reel with
                | some i => modNth (fun r => { r with active := r.active - 1 }) x.reel i
                | none => x.reel }) m
          | none => m
        else m

/-- Complete the descriptors of a queue in issue order, and wake a WAITQ (R285). -/
def advanceQueue (t q c : Nat) (m : Mod) : Mod :=
  wakeWaitq t c ((queueOf (tdOf m t) q).descs.foldl (fun m _ => completeNext t q c m) m)

/-! ## Requests and landings (R284, R286, R287) -/

/-- A piece of a tile's engine: queue, descriptor, piece index. -/
structure PieceAt where
  q : Nat
  e : Desc
  k : Nat
  x : Piece

/-- The pieces of a tile's engine that satisfy a test, by queue, in issue and row order. -/
def piecesWhere (d : TileData) (p : Desc → Piece → Bool) : List PieceAt :=
  d.queues.flatMap (fun x => x.2.descs.flatMap (fun e =>
    (indices e.pieces.length (fun k => match nth? e.pieces k with
      | some y => p e y
      | none => false)).filterMap (fun k => (nth? e.pieces k).map (fun y => ⟨x.1, e, k, y⟩))))

/-- Requests in flight of a tile's stream engine (R284): those whose data or acknowledgement has not reached the tile. Reel's are not its
own (R290). -/
def inFlight (d : TileData) : Nat := (piecesWhere d (fun e x => !e.reel && (x.st == .sent || x.st == .answered))).length
/-- Is a piece the first of its descriptor still to be sent (R284: one request per piece, in row order)? -/
def firstUnsent (e : Desc) (k : Nat) : Bool := findIdx? (fun (x : Piece) => x.st == .unsent) e.pieces == some k

/-- Is a stream engine idle (R288): nothing is asked of a stack, and nothing that has come back can still land? -/
def streamIdle (d : TileData) : Bool := (piecesWhere d (fun e x => x.st == .sent || (x.st == .answered && !dReg e.words))).isEmpty

/-- Is a region fit for a descriptor (R284, R287)? -/
def regionFits (r : Region) (ws : List W32) : Bool :=
  if dOp ws = 1 then r.attach == 1 && decide (dTotal ws ≤ r.size) else r.attach == 3

/-- A piece is answered with an error without being sent: it counts as landed. -/
def failPiece (t c : Nat) (y : PieceAt) (err : Nat) (m : Mod) : Mod :=
  advanceQueue t y.q c (modTd t (modPiece y.q y.e.no y.k (fun x => { x with st := .landed, err := err })) m)

/-- The byte addresses of the words of a WRITE piece: a region is consumed at HEAD (R194, R284). -/
def pieceSource (d : TileData) (y : PieceAt) : List Nat :=
  let g := dLocal y.e.words
  if dReg y.e.words then ringAddrs (regionOf d g) (regionOf d g).head (y.x.len / 4)
  else (List.range (y.x.len / 4)).map (fun i => g + y.x.off + 4 * i)

/-- Is a piece of a region WRITE the first of its region still to be sent? -/
def firstOfRegion (d : TileData) (y : PieceAt) : Bool :=
  match piecesWhere d (fun e x => x.st == .unsent && dOp e.words == 2 && dReg e.words && dLocal e.words == dLocal y.e.words) with
  | z :: _ => z.q == y.q && z.e.no == y.e.no && z.k == y.k
  | [] => false

/-- A stream or Reel request of a piece leaves for its stack (R284, R287, R290, R292). -/
def sendPiece (t rank index : Nat) (y : PieceAt) (m : Mod) : Mod :=
  let c := nowOf m t
  let ws := y.e.words
  let page := y.x.addr / 0x200000
  let x := pageOf m page
  let g := dLocal ws
  if !isMapped x then failPiece t c y 1 m
  else if partOfTile m t ≠ some x.part then failPiece t c y 2 m
  else if dReg ws && !regionFits (regionOf (tdOf m t) g) ws then failPiece t c y 4 m
  else
    let b := pageBurst m page (y.x.addr % 0x200000 / 256)
    let go (m : Mod) : Mod := sendReq rank index (.stream t y.q y.e.no y.k) b false (stackNow m) m
    if dOp ws = 1 then go (modTd t (modPiece y.q y.e.no y.k (fun x => { x with st := .sent })) m)
    else
      let m := if dReg ws then seekRoom t g c y.x.len m else m
      let d := tdOf m t
      if dReg ws && (!firstOfRegion d y || decide ((regionOf d g).used < y.x.len)) then m
      else
        let src := pieceSource d y
        let data := src.map (spWord d)
        let m := drParity t src (readBeatsNow t c m)
        go (modTd t (fun d => modPiece y.q y.e.no y.k (fun x => { x with st := .sent, data := data })
          (if dReg ws then advanceHead g c y.x.len d else d)) m)

/-- Does a partition's job end, or has it ended with its contents in place or on their way out: its engines ask for nothing more (R413,
R416)? -/
def engineEnds (x : Part) : Bool := x.ending.isSome || x.jstate == .killedRetained || x.jstate == .scrubbing

/-- A stream request of a tile (R284): at most 128 are in flight. -/
def requestStream (t k : Nat) (m : Mod) : Mod :=
  let d := tdOf m t
  if !clockRuns m t || 128 ≤ inFlight d || ((partOfTile m t).map (partOf m)).any engineEnds then m
  else match nth? (piecesWhere d (fun e x => x.st == .unsent && !e.reel)) k with
    | some y => if firstUnsent y.e y.k then sendPiece t 3 (t * 16 + y.q) y m else m
    | none => m

/-- A Reel request of a partition (R290): the k-th unsent burst of its active entries, by tile. -/
def requestReel (p k : Nat) (m : Mod) : Mod :=
  let l := (tilesOfPart m p).flatMap (fun t => (piecesWhere (tdOf m t) (fun e x => x.st == .unsent && e.reel)).map (fun y => (t, y)))
  if engineEnds (partOf m p) then m
  else match nth? l k with
    | some (t, y) => sendPiece t 4 0 y m
    | none => m

/-- Is a region READ piece's descriptor the first of its region that has not completed? -/
def regionTurn (d : TileData) (y : PieceAt) : Bool :=
  match piecesWhere d (fun e _ => !e.done && dOp e.words == 1 && dReg e.words && dLocal e.words == dLocal y.e.words) with
  | z :: _ => z.q == y.q && z.e.no == y.e.no
  | [] => false

/-- STREAM_READ_DATA (R184, R193 to R195, R284, R285, R287): the data of an answered piece lands; a region landing waits for its turn
and for free space. -/
def execStreamReadData (t : TileId) (k : Nat) (s : State) : Ans :=
  onMod (fun m =>
    let t := t.val
    if !clockRuns m t || retained m t then m
    else match nth? (piecesWhere (tdOf m t) (fun e x => x.st == .answered && dOp e.words == 1)) k with
      | none => m
      | some y =>
        let c := nowOf m t
        let g := dLocal y.e.words
        let land (m : Mod) : Mod := advanceQueue t y.q (c + 1)
          (modTd t (fun d => { modPiece y.q y.e.no y.k (fun x => { x with st := .landed }) d with
            bytesIn := satAdd 64 d.bytesIn y.x.len }) m)
        if y.x.err ≠ 0 then failPiece t c y y.x.err m
        else if dReg y.e.words then
          let m := if y.e.base.isNone then seekRoom t g c (dTotal y.e.words) m else m
          let d := tdOf m t
          let r := regionOf d g
          if !regionFits r y.e.words then failPiece t c y 4 m
          else if !regionTurn d y || (y.e.base.isNone && decide (r.room < dTotal y.e.words)) then m
          else
            let base := y.e.base.getD r.tail
            land (modTd t (fun d => ringPuts r c (base + y.x.off) y.x.data (modDesc y.q y.e.no (fun e => { e with base := some base }) d))
              (readBeatsNow t c m))
        else if dLay y.e.words = 0 then land (landWords t rankDW c (g + y.x.off) y.x.data m)
        else land (modTd t (landStagger c y.k y.e) (readBeatsNow t c m))) s

/-- STREAM_WRITE_ACK (R285, R287): the acknowledgement of a WRITE burst reaches the tile. -/
def execStreamWriteAck (t : TileId) (k : Nat) (s : State) : Ans :=
  onMod (fun m =>
    let t := t.val
    if !clockRuns m t || retained m t then m
    else match nth? (piecesWhere (tdOf m t) (fun e x => x.st == .answered && dOp e.words == 2)) k with
      | none => m
      | some y =>
        advanceQueue t y.q (nowOf m t)
          (modTd t (fun d => { modPiece y.q y.e.no y.k (fun x => { x with st := .landed }) d with
            bytesOut := satAdd 64 d.bytesOut y.x.len }) m)) s

/-- A channel serves the burst of a stream request (R284, R286, R296, R297). A write that is forwarded is acknowledged after the second
write (R278). -/
def serveStream (t q no k b : Nat) (second : Bool) (m : Mod) : Mod :=
  match (queueOf (tdOf m t) q).descs.find? (fun e => e.no == no) with
  | none => m
  | some e =>
    match nth? e.pieces k with
    | none => m
    | some x =>
      let page := x.addr / 0x200000
      let kb := x.addr % 0x200000 / 256
      let set (f : Piece → Piece) (m : Mod) : Mod := modTd t (modPiece q no k f) m
      let base := x.addr / 256 * 256
      if dOp e.words = 1 then
        let r := eccRead b m
        match r.1 with
        | j :: _ => set (fun x => { x with st := .answered, err := 3, banked := isBanked m (base + 8 * j) }) r.2
        | [] =>
          let ws := serveWords m page kb (burstWords m b)
          set (fun y => { y with st := .answered, data := (ws.drop (x.addr % 256 / 4)).take (x.len / 4) }) r.2
      else if second then set (fun x => { x with st := .answered }) m
      else
        let r := serveWrite page kb b (x.addr % 256) (wordsBytes x.data) m
        let m := match r.1 with
          | j :: _ => set (fun x => { x with err := 3, banked := isBanked m (base + 8 * j) }) r.2
          | [] => r.2
        match forwardTo m b with
        | some d => sendReq 3 (t * 16 + q) (.stream t q no k) d true (stackNow m) m
        | none => set (fun x => { x with st := .answered }) m

/-! ## Reel (R290) -/

/-- REEL_ACTIVATE (R290): the entries of this superstep become active, once in an attempt. -/
def execReelActivate (p : PartId) (s : State) : Ans :=
  onMod (fun m =>
    let x := partOf m p.val
    if x.jstate ≠ .running || x.xphase ≠ .compute || x.stepFailed || m.power.active then m
    else
      let due := indices x.reel.length (fun i =>
        bits (dw (reelEnt x i).words 8) 31 16 == stepIndex x && !x.reelDone.contains i)
      let m := modPart p.val (fun x => { x with
        reelDone := x.reelDone ++ due
        reelWait := x.reelWait ++ due
        reel := due.foldl (fun l i => modNth (fun e => { e with active := e.active + 1 }) l i) x.reel }) m
      due.foldl (fun m i =>
        let e := reelEnt (partOf m p.val) i
        placeReel p.val (reelTile e) (reelQueue e) m) m) s

end Sys2Proof.Machine
end

