-- ==== Sys2Proof/Machine/Nmu.lean ====
section
/-! DEFINITION. The near-memory update engines: the update of an element, units of work, start, completion, the bank flip
(R318 to R331). -/

namespace Sys2Proof.Machine

/-! ## Arithmetic (R323, R324) -/

/-- fdiv (R323): binary32 division rounded once. -/
def fDiv (a b : W32) : W32 :=
  match f32Val a, f32Val b with
  | .nan, _ => f32Nan
  | _, .nan => f32Nan
  | .inf _, .inf _ => f32Nan
  | .inf s, .fin t _ _ => f32Inf (s != t)
  | .fin s _ _, .inf t => f32Zero (s != t)
  | .fin s m e, .fin t n f =>
    if n = 0 then (if m = 0 then f32Nan else f32Inf (s != t))
    else if m = 0 then f32Zero (s != t)
    else f32Sticky (s != t) (m * 2 ^ 60 / n) (m * 2 ^ 60 % n != 0) (e - f - 60)

/-- fsqrt (R323): binary32 square root rounded once. -/
def fSqrt (a : W32) : W32 :=
  match f32Val a with
  | .nan => f32Nan
  | .inf s => if s then f32Nan else f32Inf false
  | .fin s m e =>
    if m = 0 then f32Zero s
    else if s then f32Nan
    else
      let odd := e % 2 != 0
      let m' := (if odd then 2 * m else m) * 2 ^ 80
      let h := if odd then (e - 1) / 2 else e / 2
      let r := isqrt m'
      f32Sticky false r (r * r != m') (h - 40)

/-- sign (R323). -/
def fSign (a : W32) : W32 := if f32IsNan a then f32Nan else if f32IsZero a then 0 else if f32Neg a then 0xBF800000 else 0x3F800000

/-- The update of one element (R324): parameter and moments. -/
def nmuUpdate (s : Shard) (p m v gr : W32) : W32 × W32 × W32 :=
  let g := fMul gr s.recScale
  if s.algo = 1 then
    let g := fFma s.decay p g
    let m1 := fFma s.beta1 m (fMul s.c1 g)
    (fSub p (fMul s.recLr m1), m1, 0)
  else if s.algo = 2 then
    let m1 := fFma s.beta1 m (fMul s.c1 g)
    let v1 := fFma s.beta2 v (fMul s.c2 (fMul g g))
    let mh := fMul m1 s.recBc1
    let vh := fMul v1 s.recBc2
    let u := fDiv mh (fAdd (fSqrt vh) s.eps)
    (fSub p (fMul s.recLr (fFma s.decay p u)), m1, v1)
  else
    let u := fFma s.beta1 m (fMul s.c1 g)
    (fSub p (fMul s.recLr (fFma s.decay p (fSign u))), fFma s.beta2 m (fMul s.c2 g), 0)

/-- Format of a working copy (R315). -/
def wcFmtOf (s : Shard) : ElemFmt := if s.wcFmt = 1 then fmtBF16 else if s.wcFmt = 2 then fmtE4M3 else fmtE5M2
/-- Bytes of a working-copy element. -/
def wcBytes (s : Shard) : Nat := if s.wcFmt = 1 then 2 else 1

/-! ## Units of work (R317, R321) -/

/-- Units of 64 elements of a shard: unit u holds elements 64u to 64u + 63. -/
def shardUnits (s : Shard) : Nat := (s.elements + 63) / 64
/-- Elements of a unit. -/
def unitCount (s : Shard) (u : Nat) : Nat := Nat.min 64 (s.elements - 64 * u)
/-- Page of a unit. -/
def unitPage (s : Shard) (u : Nat) : Nat := s.firstPage + u / (24 * shardSets s)
/-- Burst in its page of a unit in line idx of its set. -/
def unitBurst (s : Shard) (u idx : Nat) : Nat := (1 + u / 24 % shardSets s * shardK s + idx) * 24 + u % 24
/-- Lines an NMU reads: the live P, M1, M2, and G (R322). -/
def readLines (s : Shard) : List Nat :=
  let b := liveBank s
  [b] ++ (if s.algo = 0 then [] else [2 + b]) ++ (if s.algo = 2 then [4 + b] else []) ++ [2 * shardQ s]
/-- Lines an NMU writes: the shadow P, M1, M2 and WC (R324, R325). -/
def writeLines (s : Shard) : List Nat :=
  let b := 1 - liveBank s
  [b] ++ (if s.algo = 0 then [] else [2 + b]) ++ (if s.algo = 2 then [4 + b] else []) ++
    (if s.wcFmt = 0 then [] else [2 * (shardQ s - 1) + b])
/-- Physical burst of a unit in a line now. -/
def unitHome (m : Mod) (s : Shard) (u idx : Nat) : Nat := pageBurst m (unitPage s u) (unitBurst s u idx)
/-- Does an NMU work on a shard now? -/
def shardActive (s : Shard) : Bool := s.began && !s.stopped && !s.staged
/-- Units of a shard still to update whose bursts a stack homes (R321). -/
def unitsHere (m : Mod) (n : Nat) (s : Shard) : List Nat :=
  indices (shardUnits s) (fun u => !s.unitsDone.contains u && burstStack (unitHome m s u 0) == n)
/-- Has a shard units of a stack left to update, now? -/
def hasWork (m : Mod) (n : Nat) (s : Shard) : Bool := shardActive s && !(unitsHere m n s).isEmpty
/-- The shard an NMU works on (R321): the one it has in hand while that has units of this stack to do, else the lowest-numbered that has. -/
def nmuShardOf (m : Mod) (n : Nat) : Option (Nat × Shard) :=
  match m.shards.find? (fun e => (stackOf m n).nmuShard == some e.1 && hasWork m n e.2) with
  | some e => some e
  | none => m.shards.find? (fun e => hasWork m n e.2)
/-- Does any stack have a unit in progress? -/
def unitBusy (m : Mod) (i u : Nat) : Bool := m.stk.any (fun s => s.2.nmuUnits.any (fun x => x.shard == i && x.unit == u))
/-- Change a unit in progress at a stack. -/
def modUnit (n i u : Nat) (f : NmuUnit → NmuUnit) (m : Mod) : Mod :=
  modStack n (fun s => { s with nmuUnits := s.nmuUnits.map (fun x => if x.shard = i && x.unit == u then f x else x) }) m

/-- The NMU begins the next unit of its shard, if one is left (R321). -/
def beginUnit (n : Nat) (m : Mod) : Mod :=
  match nmuShardOf m n with
  | none => m
  | some (i, s) =>
    match (unitsHere m n s).find? (fun u => !unitBusy m i u) with
    | none => m
    | some u => modStack n (fun x => { x with
        nmuShard := some i
        nmuUnits := x.nmuUnits ++ [{ shard := i, unit := u, toRead := readLines s, got := [], toWrite := [], writing := [], asked := 0 }] }) m

/-- The next burst request of an NMU (R292, R321). -/
def requestNmu (n : Nat) (m : Mod) : Mod :=
  let ready (m : Mod) : Option NmuUnit := (stackOf m n).nmuUnits.find? (fun x => !x.toRead.isEmpty || !x.toWrite.isEmpty)
  let m := if (ready m).isSome then m else beginUnit n m
  match ready m with
  | none => m
  | some x =>
    let s := shardOf m x.shard
    match x.toRead, x.toWrite with
    | l :: r, _ =>
      sendReq 2 0 (.nmuRead x.shard x.unit l) (unitHome m s x.unit l) false (stackNow m)
        (modUnit n x.shard x.unit (fun x => { x with toRead := r, asked := x.asked + 1 }) m)
    | [], (l, bs) :: r =>
      sendReq 2 0 (.nmuWrite x.shard x.unit l) (unitHome m s x.unit l) false (stackNow m)
        (modUnit n x.shard x.unit (fun x => { x with toWrite := r, writing := mset [] x.writing l bs }) m)
    | [], [] => m

/-- Forget the units of some shards; an NMU has none of them in hand any more. -/
def dropUnits (p : Nat → Bool) (m : Mod) : Mod :=
  { m with stk := mmapVals {} (fun _ (s : Stack) =>
      { s with nmuUnits := s.nmuUnits.filter (fun x => !p x.shard), nmuShard := s.nmuShard.filter (fun i => !p i) }) m.stk }

/-- The NMU of a stack stops a shard at an uncorrectable word (R328, R395, R409). -/
def nmuStop (n i addr : Nat) (m : Mod) : Mod :=
  let s := shardOf m i
  let banked := isBanked m addr
  let m := dropUnits (· == i) (modShard i (fun s => { s with stopped := true }) m)
  let at_ := srcNow m
  let m := modStack n (fun x =>
    let r := noteFirst at_ [i, addr / 0x200000] x.nmuError
    { x with nmuError := { r with count := satAdd 8 r.count 1 } }) m
  let m := if banked then setRestore s.part n m else m
  signalModule s.part 0x02 (0x80 * b2n banked + 2) m

/-- The bytes of the shadow lines of a unit, its working-copy conversions, and how many of its elements are counted under R326. -/
def unitResults (s : Shard) (x : NmuUnit) : List (Nat × List Byte) × List Conv × Nat :=
  let line (k : Nat) : List W32 := mget [] x.got (nth 0 (readLines s) k)
  let gl := mget [] x.got (2 * shardQ s)
  let els := (List.range (unitCount s x.unit)).map (fun i =>
    nmuUpdate s (nth 0 (line 0) i) (nth 0 (line 1) i) (if s.algo = 2 then nth 0 (line 2) i else 0) (nth 0 gl i))
  let wcs := if s.wcFmt = 0 then [] else els.map (fun e => narrow (wcFmtOf s) (fMul e.1 s.wcScale))
  let bad (w : W32) : Bool := f32IsNan w || f32IsInf w
  let nf := (List.range els.length).filter (fun i =>
    let e := nth (0, 0, 0) els i
    bad e.1 || bad e.2.1 || (s.algo == 2 && bad e.2.2) ||
      (s.wcFmt != 0 && (nth ⟨0, false, false, .finite⟩ wcs i).kind != .finite))
  let wl := writeLines s
  let data (k : Nat) : List Byte :=
    if s.wcFmt ≠ 0 && k + 1 == wl.length then wcs.flatMap (fun c => leBytes (wcBytes s) c.code)
    else wordsBytes (els.map (fun e => if k = 0 then e.1 else if k = 1 then e.2.1 else e.2.2))
  ((List.range wl.length).map (fun k => (nth 0 wl k, data k)), wcs, nf.length)

/-- A unit has all its lines: its elements are computed (R324 to R326). -/
def computeUnit (n i u : Nat) (m : Mod) : Mod :=
  let s := shardOf m i
  match (stackOf m n).nmuUnits.find? (fun x => x.shard == i && x.unit == u) with
  | none => m
  | some x =>
    let r := unitResults s x
    let m := modStack n (fun z => { z with
      nmuNonfinite := satAdd 64 z.nmuNonfinite r.2.2
      wcConv := satAdd 64 z.wcConv r.2.1.length
      wcOvf := satAdd 64 z.wcOvf (r.2.1.filter (·.ovf)).length
      wcVan := satAdd 64 z.wcVan (r.2.1.filter (·.van)).length }) m
    modUnit n i u (fun x => { x with toWrite := r.1.foldl (fun w e => mset [] w e.1 e.2) [] }) m

/-- A channel serves a read of an NMU (R297, R324, R328). -/
def serveNmuRead (i u line b : Nat) (m : Mod) : Mod :=
  let n := burstStack b
  let s := shardOf m i
  match (m.stk.find? (fun z => z.2.nmuUnits.any (fun x => x.shard == i && x.unit == u))).map (·.1) with
  | none => m
  | some h =>
    let r := eccRead b m
    match r.1 with
    | j :: _ => nmuStop n i (unitPage s u * 0x200000 + 256 * unitBurst s u line + 8 * j) r.2
    | [] =>
      let m := modUnit h i u (fun x => { x with asked := x.asked - 1, got := mset [] x.got line (burstWords m b) }) r.2
      if (stackOf m h).nmuUnits.any (fun x => x.shard == i && x.unit == u && x.toRead.isEmpty && x.asked == 0) then computeUnit h i u m
      else m

/-- A unit whose every burst is written is done (R321, R327). -/
def finishUnit (h i u : Nat) (m : Mod) : Mod :=
  if (stackOf m h).nmuUnits.any (fun x => x.shard == i && x.unit == u && x.toWrite.isEmpty && x.writing.isEmpty) then
    let s := shardOf m i
    modShard i (fun s => { s with unitsDone := s.unitsDone ++ [u] })
      (modStack h (fun z => { z with
        nmuUnits := z.nmuUnits.filter (fun x => !(x.shard == i && x.unit == u))
        nmuElements := satAdd 64 z.nmuElements (unitCount s u) }) m)
  else m

/-- A channel serves a write of an NMU (R278, R296, R328). -/
def serveNmuWrite (i u line b : Nat) (second : Bool) (m : Mod) : Mod :=
  let n := burstStack b
  let s := shardOf m i
  match m.stk.find? (fun z => z.2.nmuUnits.any (fun x => x.shard == i && x.unit == u)) with
  | none => m
  | some (h, z) =>
    let landed (m : Mod) : Mod := finishUnit h i u (modUnit h i u (fun x => { x with writing := mset [] x.writing line [] }) m)
    if second then landed m
    else
      let bs := ((z.nmuUnits.find? (fun x => x.shard == i && x.unit == u)).map (fun x => mget [] x.writing line)).getD []
      let r := writeBoth b 0 bs m
      match r.1 with
      | j :: _ => nmuStop n i (unitPage s u * 0x200000 + 256 * unitBurst s u line + 8 * j) r.2
      | [] =>
        match forwardTo r.2 b with
        | some d => sendReq 2 0 (.nmuWrite i u line) d true (stackNow r.2) r.2
        | none => landed r.2

/-! ## The step record and completion (R318, R321, R327) -/

/-- A channel serves the read of a shard's step record (R318). -/
def serveRecord (i b : Nat) (m : Mod) : Mod :=
  let s := shardOf m i
  let r := eccRead b m
  match r.1 with
  | j :: _ => nmuStop (burstStack b) i (s.firstPage * 0x200000 + 8 * j) r.2
  | [] =>
    let ws := burstWords m b
    modShard i (fun s => { s with recScale := nth 0 ws 0, recLr := nth 0 ws 1, recBc1 := nth 0 ws 2, recBc2 := nth 0 ws 3 }) r.2

/-- Take the requests of a unit off their channels. -/
def dropUnitReqs (i u : Nat) (m : Mod) : Mod :=
  let mine (r : Req) : Bool := match r.what with
    | .nmuRead j v _ => i == j && u == v
    | .nmuWrite j v _ => i == j && u == v
    | _ => false
  { m with stk := mmapVals {} (fun _ (s : Stack) =>
      { s with chans := mmapVals {} (fun _ (c : Chan) => { c with reqs := c.reqs.filter (fun r => !mine r) }) s.chans }) m.stk }

/-- What is left of a unit is done: its lines are read, its elements updated, its lines written (R321, R324). -/
def rushUnit (i : Nat) (m : Mod) (u : Nat) : Mod :=
  let s := shardOf m i
  if !shardActive s || s.unitsDone.contains u then m
  else
    let m := dropUnitReqs i u m
    let m := if unitBusy m i u then m
      else modStack (burstStack (unitHome m s u 0)) (fun x => { x with
        nmuUnits := x.nmuUnits ++ [{ shard := i, unit := u, toRead := readLines s, got := [], toWrite := [], writing := [], asked := 0 }] }) m
    let find (m : Mod) : Option (Nat × NmuUnit) := m.stk.findSome? (fun z =>
      (z.2.nmuUnits.find? (fun x => x.shard == i && x.unit == u)).map (fun x => (z.1, x)))
    match find m with
    | none => m
    | some (h, x) =>
      let left := if x.toWrite.isEmpty && x.writing.isEmpty then (readLines s).filter (fun l => mget [] x.got l == []) else []
      let m := modUnit h i u (fun x => { x with toRead := [], asked := left.length }) m
      let m := left.foldl (fun m l => serveNmuRead i u l (unitHome m s u l) m) m
      match find m with
      | none => m
      | some (h, x) =>
        let ws := x.writing ++ x.toWrite
        let m := modUnit h i u (fun x => { x with writing := ws.foldl (fun w e => mset [] w e.1 e.2) [], toWrite := [] }) m
        ws.foldl (fun m e =>
          let b := unitHome m s u e.1
          let twice := (forwardTo m b).isSome
          let m := serveNmuWrite i u e.1 b false m
          if twice then serveNmuWrite i u e.1 b true (dropUnitReqs i u m) else m) m

/-- What a stack has left of a shard is done. -/
def rushHere (n : Nat) (m : Mod) (i : Nat) : Mod := (unitsHere m n (shardOf m i)).foldl (rushUnit i) m

/-- The work that NMUs do before a shard is done: on each stack where it has units left, first what is left of the shard in hand, then the
shards of lower number, one at a time (R321). -/
def rushBefore (i : Nat) (m : Mod) : Mod :=
  (List.range 32).foldl (fun m n =>
    let cur := ((stackOf m n).nmuShard.filter (fun j => hasWork m n (shardOf m j))).toList
    if !hasWork m n (shardOf m i) || cur == [i] then m
    else (cur ++ (m.shards.filter (fun e => hasWork m n e.2 && decide (e.1 < i) && !cur.contains e.1)).map (·.1)).foldl (rushHere n) m) m

/-- SHARD_COMPLETE (R265, R327): every element is written on every stack: the shard is STAGED and its signal increments. The updates
that no granted request has shown yet have happened by then (log entry 40). -/
def execShardComplete (i : Fin 16384) (s : State) : Ans :=
  onMod (fun m =>
    if !shardActive (shardOf m i.val) || m.power.active then m
    else
      let m := rushBefore i.val m
      let m := (List.range (shardUnits (shardOf m i.val))).foldl (rushUnit i.val) m
      let x := shardOf m i.val
      if !shardActive x || x.unitsDone.length < shardUnits x then m
      else addSignal x.tile x.signal (nowOf m x.tile) (modShard i.val (fun x => { x with staged := true }) m)) s

/-! ## Commit and abandonment (R329 to R331) -/

/-- Change every valid shard of a partition. -/
def mapShards (p : Nat) (f : Shard → Shard) (m : Mod) : Mod :=
  { m with shards := mmapVals {} (fun _ (s : Shard) => if s.valid && s.part == p then f s else s) m.shards }

/-- Has a shard that began in this step not completed (R331)? -/
def commitIncomplete (m : Mod) (p : Nat) : Bool := m.shards.any (fun e => e.2.valid && e.2.part == p && e.2.began && !e.2.staged)

/-- Take every request of an NMU for shards of a partition off its channel. -/
def dropNmuReqs (p : Nat) (m : Mod) : Mod :=
  let mine (r : Req) : Bool := match r.what with
    | .nmuRecord i => (shardOf m i).part == p
    | .nmuRead i _ _ => (shardOf m i).part == p
    | .nmuWrite i _ _ => (shardOf m i).part == p
    | _ => false
  { m with stk := mmapVals {} (fun _ (s : Stack) =>
      { s with chans := mmapVals {} (fun _ (c : Chan) => { c with reqs := c.reqs.filter (fun r => !mine r) }) s.chans }) m.stk }

/-- The NMUs of a partition stop, between bursts (R330, R413). -/
def stopNmus (p : Nat) (m : Mod) : Mod :=
  dropUnits (fun i => (shardOf m i).part == p) (dropNmuReqs p m)

/-- The bank flip (R329): every STAGED shard becomes live; the next step begins with none. -/
def flipBanks (p : Nat) (m : Mod) : Mod :=
  mapShards p (fun s => { s with gen := if s.staged then s.gen + 1 else s.gen, staged := false, began := false, stopped := false, unitsDone := [] })
    (stopNmus p m)

/-- The physical words of the shadow banks of a shard. -/
def shadowWords (m : Mod) (s : Shard) : List Nat :=
  (List.range (shardUnits s)).flatMap (fun u => (writeLines s).flatMap (fun l =>
    let n := if s.wcFmt ≠ 0 && l / 2 + 1 == shardQ s then (unitCount s u * wcBytes s + 3) / 4 else unitCount s u
    (List.range n).map (fun w => 64 * unitHome m s u l + w)))

/-- A word of a burst, and of its copy in the destination frame of a move (R278), takes a value. -/
def setBoth (m : Mod) (w : Nat) (v : W32) (d : SMap W32) : SMap W32 :=
  let d := mset 0 d w v
  match forwardTo m (w / 64) with
  | some b => mset 0 d (64 * b + w % 64) v
  | none => d

/-- The shadow banks of a partition after an abandonment hold undefined values: free ones (R330; log entry 12). -/
def blurShadows (p : Nat) (m : Mod) : Mod :=
  let ws := (m.shards.filter (fun e => e.2.valid && e.2.part == p && e.2.algo != 0)).flatMap (fun e => shadowWords m e.2)
  { m with
    dram := (List.range ws.length).foldl (fun d k => setBoth m (nth 0 ws k) (Config.shadowWord (m.free + k)) d) m.dram
    free := m.free + ws.length }

/-- Abandonment stops the NMUs and clears STAGED (R330). -/
def abandonShards (p : Nat) (m : Mod) : Mod :=
  mapShards p (fun s => { s with staged := false, began := false, stopped := false, unitsDone := [] }) (stopNmus p (blurShadows p m))

/-- NMU_STATUS (R333): the shard in progress, idle, running or paused, the bursts left here. -/
def nmuStatus (m : Mod) (n : Nat) : W64 :=
  match nmuShardOf m n with
  | none => 0
  | some (i, s) =>
    let per := (readLines s).length + (writeLines s).length
    let mine := (stackOf m n).nmuUnits.filter (fun x => x.shard == i)
    let left := ((unitsHere m n s).length - mine.length) * per +
      (mine.map (fun x => if x.toWrite.isEmpty && x.writing.isEmpty then x.toRead.length + x.asked + (writeLines s).length
        else x.toWrite.length + x.writing.length)).foldl (· + ·) 0
    pack [(34, i), (32, if m.power.active then 2 else 1), (0, left % 2 ^ 32)]

end Sys2Proof.Machine
end

