-- ==== Sys2Proof/Machine/Dma.lean ====
section
/-! DEFINITION. DMA: the instruction, its packets, windows for remote modules, forwarding, completion (07 R201 to R206; 09 R265,
R266; 10 R300; 13 R377, R381, R382). -/

namespace Sys2Proof.Machine

/-- OP of a DMA packet (R381). -/
abbrev opPut : Nat := 1
abbrev opGet : Nat := 2
abbrev opGetData : Nat := 3
abbrev opAck : Nat := 4
abbrev opDeny : Nat := 5

/-! ## The instruction (R205, R206, R381) -/

/-- Do the fields of a DMA descriptor hold (table DMA descriptor)? -/
def dmaDescOk (ws : List W32) : Bool :=
  let op := bits (dw ws 0) 31 28
  let loc := bits (dw ws 0) 19 0
  let len := dw ws 1
  (op == 1 || op == 2) && decide (bits (dw ws 0) 27 26 ≤ 1) && loc % 4 == 0 && len % 4 == 0 && decide (4 ≤ len) &&
    decide (len ≤ 1048576) && decide (loc + len ≤ 0x100000) && dw ws 2 % 4 == 0 && decide (bits (dw ws 3) 31 16 ≤ 9999) &&
    bits (dw ws 4) 31 6 == 0 && decide (bits (dw ws 4) 5 0 ≤ 50) && dw ws 5 == 0 && dw ws 6 == 0 && dw ws 7 == 0

/-- A DMA descriptor as the engine holds it. -/
def dmaDescOf (ws : List W32) : DmaDesc :=
  { put := bits (dw ws 0) 31 28 == 1, trailing := bits (dw ws 0) 27 26 == 1, signal := bits (dw ws 0) 25 20, loc := bits (dw ws 0) 19 0
    length := dw ws 1, remote := dw ws 2 + 2 ^ 32 * bits (dw ws 3) 15 0, dest := bits (dw ws 3) 31 16, port := bits (dw ws 4) 5 0
    sent := 0, answered := 0, denied := false }

/-- A packet of a tile through a port of its partition; a port that does not carry its job drops it (R382, R386). -/
def sendFrom (part : Option Nat) (q op : Nat) (k : DmaPkt) (m : Mod) : Mod :=
  if (portOf m q).assigned && part == some (portOf m q).part then sendDma q op k m
  else dropOutgoing part q m

/-- One packet of a descriptor, from an offset: at most 4,096 bytes (R381). PUT data is read through DR (R190, R206). That of a tile of no
partition carries no job's tag, and no port carries it. -/
def dmaPacket (t : Nat) (part : Option Nat) (x : DmaDesc) (off : Nat) (m : Mod) : Mod :=
  let n := Nat.min 4096 (x.length - off)
  let addrs := if x.put then (List.range (n / 4)).map (fun i => x.loc + off + 4 * i) else []
  let k : DmaPkt :=
    { destModule := BitVec.ofNat 16 x.dest, srcModule := BitVec.ofNat 16 m.moduleNum, srcTile := BitVec.ofNat 16 t
      jobTag := ((part.map (partOf m)).map (·.tag)).getD 0, addr := BitVec.ofNat 48 (x.remote + off), length := BitVec.ofNat 32 n
      signal := BitVec.ofNat 8 x.signal, mode := BitVec.ofNat 8 (b2n x.trailing), hops := 0
      payload := addrs.map (spWord (tdOf m t)), crcOk := true, last := decide (x.length ≤ off + n) }
  sendFrom part x.port (if x.put then opPut else opGet) k (drParity t addrs m)

/-- The packets of a descriptor in order (R266, R381). -/
def dmaPackets (t : Nat) (part : Option Nat) (x : DmaDesc) (m : Mod) : Mod :=
  (List.range ((x.length + 4095) / 4096)).foldl (fun m i => dmaPacket t part x (4096 * i) m) m

/-- The effect of DMA in its slot (R205): a trap, or a status to RD and the descriptor to the engine. An address that is no multiple of 32
and lies at or above 0x10_0000 raises MISALIGNED: R205 names both traps and no order (DESIGN CHOICE, log entry 148). A bad descriptor is
answered as such even when eight are queued: R205 gives no order (DESIGN CHOICE, log entry 127). -/
def dmaEff (t : Nat) (b : BitVec 22) (e : SlotEnv) (m : Mod) : Mod :=
  let a := (getS e.base (bits b.toNat 21 17)).toNat
  let rd := bits b.toNat 16 12
  if a % 32 ≠ 0 then addTrap t ⟨3, trapMisaligned, a, 0, 0, []⟩ m
  else if 0x100000 ≤ a then addTrap t ⟨3, trapScratchRange, a, 0, 0, []⟩ m
  else
    let ws := spWords e.base a 8
    let m := (parityTraps 3 portDR (spFails e.base ((List.range 8).map (fun i => a + 4 * i)))).foldl (fun m x => addTrap t x m) m
    let st := if !dmaDescOk ws then 2 else if 8 ≤ (tdOf m t).dmaq.length then 1 else 0
    let m := if st = 0 then
        let x := dmaDescOf ws
        modTd t (fun d => { d with dmaq := d.dmaq ++ [{ x with sent := x.length }] }) (dmaPackets t (partOfTile m t) x m)
      else m
    modTd t (xResult (kS rd) (BitVec.ofNat 32 st) (coreK m t) e.cycle) m

/-- DMA (R205). -/
def execDma (j : Issue) (b : BitVec 22) (s : State) : Ans :=
  issueX { slot := .x, op := 0x20, ok := bits b.toNat 11 0 == 0, srcs := [kS (bits b.toNat 21 17)], dests := [kS (bits b.toNat 16 12)] }
    (dmaEff j.tile.val b) j b s

/-- Has a descriptor all its acknowledgements or data, or, for a TRAILING PUT, sent its last word (R265)? -/
def dmaDone (x : DmaDesc) : Bool :=
  !x.denied && (if x.put && x.trailing then decide (x.length ≤ x.sent) else decide (x.length ≤ x.answered))

/-- Is a DMA engine idle: nothing it has sent is still unanswered (R267)? A link that is not UP answers nothing more. -/
def dmaIdle (m : Mod) (d : TileData) : Bool :=
  d.dmaq.all (fun x => (x.put && x.trailing) || decide (x.length ≤ x.answered) || (portOf m x.port).state != .up)

/-- DMA_COMPLETION (R206, R265): the oldest descriptor completes and its signal increments. -/
def execDmaCompletion (t : TileId) (s : State) : Ans :=
  onMod (fun m =>
    let t := t.val
    match (tdOf m t).dmaq with
    | [] => m
    | x :: r => if !dmaDone x || !clockRuns m t then m else addSignal t x.signal (nowOf m t) (modTd t (fun d => { d with dmaq := r }) m)) s

/-! ## Packets at a port (R377, R381, R382, R386) -/

/-- PACKET_FORWARD (R382). -/
def forwardDma (q op : Nat) (k : DmaPkt) (m : Mod) : Mod :=
  match forwardPort m k.destModule.toNat with
  | some o =>
    if (portOf m o).assigned && (portOf m o).part == (portOf m q).part && decide (k.hops.toNat + 1 ≤ 8) then
      sendDma o op { k with hops := k.hops + 1 } { m with forwarded := satAdd 32 m.forwarded 1 }
    else routeDrop q m
  | none => routeDrop q m

/-- Do the fields of a header hold values that the table DMA packet header lists (R381), or name Gondola as the sender (log entry 67)? A
packet whose header does not is rejected whole where it is served (R13): the chapter gives it no status and no count (log entry 129). -/
def dmaHeaderOk (k : DmaPkt) : Bool :=
  (decide (k.srcTile.toNat < 5120) || k.srcTile == 0x1FFF) && k.addr.toNat % 4 == 0 && k.length.toNat % 4 == 0 && decide (4 ≤ k.length.toNat) &&
    decide (k.length.toNat ≤ 4096) && decide (k.signal.toNat < 64) && decide (k.mode.toNat ≤ 1) && decide (k.destModule.toNat ≤ 9999) &&
    decide (k.srcModule.toNat ≤ 9999)

/-- A DMA packet reaches a port: it is held while the fabric stands still, replayed if its CRC fails, dropped at a port that does not
carry its job, forwarded to another module, or served here. -/
def arriveDma (i : Instr) (q op : Nat) (k : DmaPkt) (serve : Mod → Mod) (m : Mod) : Mod :=
  if !k.crcOk then crcFail q (portOf m q).recvSeq m
  else whenMoving q i (fun m =>
    if !portTakes m q k.jobTag then routeDrop q m
    else if isHere m k.destModule.toNat then (if dmaHeaderOk k then serve m else m)
    else forwardDma q op k m) m

/-- A packet back to SRC_MODULE (R382): it takes the port that the forwarding entry names. -/
def replyDma (q op : Nat) (k : DmaPkt) (payload : List W32) (m : Mod) : Mod :=
  let r : DmaPkt := { k with destModule := k.srcModule, srcModule := BitVec.ofNat 16 m.moduleNum, hops := 0, payload, crcOk := true }
  match forwardPort m k.srcModule.toNat with
  | some o => if (portOf m o).assigned && (portOf m o).part == (portOf m q).part then sendDma o op r m else routeDrop q m
  | none => routeDrop q m

/-! ## Windows (R201, R202, R416, R526) -/

/-- The tile of a device address, if the address lies in its scratchpad with the bytes that follow (R19, R199). -/
def scratchTile (a len : Nat) : Option (Nat × Nat) :=
  if a < 0x800000000000 then none
  else
    let t := (a - 0x800000000000) / 0x200000
    let o := (a - 0x800000000000) % 0x200000
    if t < 5120 && decide (o + len ≤ 0x100000) then some (t, o) else none

/-- Does an open window of a tile allow an access (R201)? A partition that is KILLED_RETAINED refuses it (R416). -/
def winAllows (m : Mod) (t tag o len : Nat) (write : Bool) : Bool :=
  !retained m t && (tdOf m t).wins.any (fun e =>
    let w := e.2
    w.opened && w.tag == tag && decide (w.base ≤ o) && decide (o + len ≤ w.base + w.length) && (if write then w.write else w.read))

/-- A refused access (R202): it counts in the tile whose window of the tile space it names, if it names one. -/
def denyAt (q : Nat) (k : DmaPkt) (m : Mod) : Mod :=
  let a := k.addr.toNat
  replyDma q opDeny k [] (if 0x800000000000 ≤ a && (a - 0x800000000000) / 0x200000 < 5120 then
    modTd ((a - 0x800000000000) / 0x200000) (fun d => { d with denied := satAdd 8 d.denied 1 }) m else m)

/-- A remote access to the DRAM range is split at bursts, each to be checked at its stack (R300). -/
def remoteDram (q : Nat) (get : Bool) (k : DmaPkt) (m : Mod) : Mod :=
  modPort q (fun x => { x with
    remote := x.remote ++ [{ no := x.remoteNo, pkt := k, get, pieces := splitPieces 18 k.addr.toNat k.length.toNat 0 }]
    remoteNo := x.remoteNo + 1 }) m

/-- PUT data at its destination (R201 to R204, R265, R300). After the last packet of a TRAILING descriptor the destination's signal
increments; the header does not say which packet that is, the row's operand does (log entry 130). -/
def servePut (q : Nat) (k : DmaPkt) (m : Mod) : Mod :=
  let a := k.addr.toNat
  let len := k.length.toNat
  match scratchTile a len with
  | some (t, o) =>
    if !winAllows m t k.jobTag.toNat o len true then denyAt q k m
    else
      let c := nowOf m t
      let m := landWords t rankDW c o k.payload m
      if k.mode = 0 then replyDma q opAck k [] m else if k.last then addSignal t k.signal.toNat c m else m
  | none => if a + len ≤ dramEnd then remoteDram q false k m else denyAt q k m

/-- PUT_DATA. -/
def putData (q : PortId) (k : DmaPkt) : Mod → Mod := arriveDma (.putData q k) q.val opPut k (servePut q.val k)
/-- PUT_DATA (R201). -/
def execPutData (q : PortId) (pkt : DmaPkt) (s : State) : Ans := onModIf (dmaPktOk true pkt) (putData q pkt) s

/-- A GET request at its destination (R201 to R204, R300). -/
def serveGet (q : Nat) (k : DmaPkt) (m : Mod) : Mod :=
  let a := k.addr.toNat
  let len := k.length.toNat
  match scratchTile a len with
  | some (t, o) =>
    if !winAllows m t k.jobTag.toNat o len false then denyAt q k m
    else
      let addrs := (List.range (len / 4)).map (fun i => o + 4 * i)
      replyDma q opGetData k (addrs.map (spWord (tdOf m t))) (drParity t addrs m)
  | none => if a + len ≤ dramEnd then remoteDram q true k m else denyAt q k m

/-- GET_REQUEST. -/
def getRequest (q : PortId) (k : DmaPkt) : Mod → Mod := arriveDma (.getRequest q k) q.val opGet k (serveGet q.val k)
/-- GET_REQUEST (R201). -/
def execGetRequest (q : PortId) (pkt : DmaPkt) (s : State) : Ans := onModIf (dmaPktOk false pkt) (getRequest q pkt) s

/-! ## Answers at the issuing module (R202, R265, R381) -/

/-- Change the oldest descriptor of a tile that an answer from a module can belong to. -/
def modAnswered (t : Nat) (p : DmaDesc → Bool) (f : DmaDesc → DmaDesc) (m : Mod) : Mod :=
  modTd t (fun d => match findIdx? (fun x => p x && decide (x.answered < x.length)) d.dmaq with
    | some i => { d with dmaq := modNth f d.dmaq i }
    | none => d) m

/-- Returned GET data lands in the issuing tile, in the order of the packets (R266). -/
def serveGetData (k : DmaPkt) (m : Mod) : Mod :=
  let t := k.srcTile.toNat
  let mine (x : DmaDesc) : Bool := !x.put && x.dest == k.srcModule.toNat
  match (tdOf m t).dmaq.find? (fun x => mine x && decide (x.answered < x.length)) with
  | none => m
  | some x =>
    modAnswered t mine (fun x => { x with answered := x.answered + k.length.toNat })
      (landWords t rankDW (nowOf m t) (x.loc + x.answered) (k.payload.take ((x.length - x.answered) / 4)) m)

/-- GET_DATA. -/
def getData (q : PortId) (k : DmaPkt) : Mod → Mod := arriveDma (.getData q k) q.val opGetData k (serveGetData k)
/-- GET_DATA (R381). -/
def execGetData (q : PortId) (pkt : DmaPkt) (s : State) : Ans := onModIf (dmaPktOk true pkt) (getData q pkt) s

/-- An acknowledgement of a PUT packet. -/
def serveAck (k : DmaPkt) (m : Mod) : Mod :=
  modAnswered k.srcTile.toNat (fun x => x.put && !x.trailing && x.dest == k.srcModule.toNat)
    (fun x => { x with answered := x.answered + k.length.toNat }) m

/-- DMA_ACK. -/
def dmaAck (q : PortId) (k : DmaPkt) : Mod → Mod := arriveDma (.dmaAck q k) q.val opAck k (serveAck k)
/-- DMA_ACK (R381). -/
def execDmaAck (q : PortId) (pkt : DmaPkt) (s : State) : Ans := onModIf (dmaPktOk false pkt) (dmaAck q pkt) s

/-- A refusal reaches the sending engine (R202): its descriptor does not complete, and the step faults. -/
def serveDeny (q : Nat) (k : DmaPkt) (m : Mod) : Mod :=
  let t := k.srcTile.toNat
  let m := modAnswered t (fun x => x.dest == k.srcModule.toNat && x.signal == k.signal.toNat)
    (fun x => { x with answered := x.answered + k.length.toNat, denied := true }) m
  match partOfTile m t with
  | some p => signalModule p 0x09 q m
  | none => m

/-- DENY. -/
def denied (q : PortId) (k : DmaPkt) : Mod → Mod := arriveDma (.deny q k) q.val opDeny k (serveDeny q.val k)
/-- DENY (R202). -/
def execDeny (q : PortId) (pkt : DmaPkt) (s : State) : Ans := onModIf (dmaPktOk false pkt) (denied q pkt) s

end Sys2Proof.Machine
end

