-- ==== Sys2Proof/Machine/Stacks.lean ====
section
/-! DEFINITION. The stacks: requests, arbitration and service of bursts, maintenance windows and scrub, zero fill, the copy and flip of
a move (R275, R276, R278, R292 to R298, R300, R301, R303, R538). -/

namespace Sys2Proof.Machine

/-! ## Requests (R278, R292, R300) -/

/-- The next burst of the pages of a MAP being zero-filled is to be written (R276, R292). -/
def requestZero (page : Nat) (m : Mod) : Mod :=
  match m.fills.find? (fun f => f.pages.any (fun x => x.1 == page)) with
  | none => m
  | some f =>
    match nth? f.pages (f.asked / 8192) with
    | none => m
    | some x =>
      let b := burstNo f.tierC x.2 (f.asked % 8192)
      sendReq 5 (burstStack b) (.winchZero x.1) b false (stackNow m)
        { m with fills := m.fills.map (fun g => if g = f then { g with asked := g.asked + 1 } else g) }

/-- The next burst of a moving page is asked of its source stack (R278), or the next of a page being zero-filled (R276). -/
def requestWinch (page : Nat) (m : Mod) : Mod :=
  match m.moves.find? (fun v => v.page == page) with
  | none => requestZero page m
  | some v =>
    if 8192 ≤ v.asked then m
    else
      let b := pageBurst m page v.asked
      sendReq 5 (burstStack b) (.winchRead page v.asked) b false (stackNow m)
        { m with moves := m.moves.map (fun w => if w.page = page then { w with asked := w.asked + 1, unread := w.unread ++ [w.asked] } else w) }

/-- Change a piece of a remote access of a port. -/
def modRemote (q no k : Nat) (f : Piece → Piece) (m : Mod) : Mod :=
  modPort q (fun x => { x with remote := x.remote.map (fun r => if r.no = no then { r with pieces := modNth f r.pieces k } else r) }) m

/-- Has the oldest remote access of a port an answer to send: all its bursts have been served? -/
def remoteReady (x : Port) : Bool :=
  match x.remote with
  | [] => false
  | r :: _ => r.pieces.all (fun y => y.st == .landed)

/-- Answer the oldest remote access of a port once all its bursts have been served (R300): a refused or uncorrectable one with DENY. The
answer waits while the routers of the port's partition hold (R232). -/
def answerRemote (q : Nat) (m : Mod) : Mod :=
  match (portOf m q).remote with
  | [] => m
  | r :: rest =>
    if !remoteReady (portOf m q) || portHeld m q then m
    else
      let m := modPort q (fun x => { x with remote := rest }) m
      if r.pieces.any (fun x => x.err != 0) then replyDma q opDeny r.pkt [] m
      else if r.get then replyDma q opGetData r.pkt (r.pieces.flatMap (·.data)) m
      else if r.pkt.mode = 0 then replyDma q opAck r.pkt [] m
      else m

/-- Answer every remote access of a port that can be, in order. -/
def answerRemotes (q : Nat) (m : Mod) : Mod := (portOf m q).remote.foldl (fun m _ => answerRemote q m) m

/-- The unsent bursts of a port's remote accesses. -/
def remoteUnsent (x : Port) : List (RemoteAcc × Nat × Piece) :=
  x.remote.flatMap (fun r => (indices r.pieces.length (fun k => match nth? r.pieces k with
    | some y => y.st == .unsent
    | none => false)).filterMap (fun k => (nth? r.pieces k).map (fun y => (r, k, y))))

/-- A burst of a remote access reaches its stack, which checks the windows (R300). -/
def requestRemote (q k : Nat) (m : Mod) : Mod :=
  match nth? (remoteUnsent (portOf m q)) k with
  | none => m
  | some (r, i, y) =>
    if !dwinAllows m r.pkt.jobTag.toNat (!r.get) y.addr y.len then
      answerRemotes q (modRemote q r.no i (fun x => { x with st := .landed, err := 1 }) { m with winDenied := satAdd 32 m.winDenied 1 })
    else
      sendReq 3 (81920 + q) (.remote q r.no i) (pageBurst m (y.addr / 0x200000) (y.addr % 0x200000 / 256)) false (stackNow m)
        (modRemote q r.no i (fun x => { x with st := .sent }) m)

/-- Gondola asks for the burst of an address of a mapped page: at most one request of it is at a channel (R292). -/
def requestGondola (a : Nat) (m : Mod) : Mod :=
  let b := pageBurst m (a / 0x200000) (a % 0x200000 / 256)
  if isMapped (pageOf m (a / 0x200000)) && decide (a < dramEnd) &&
      !(chanOf m (burstStack b) (burstChan b)).reqs.any (fun r => r.rank == 1) then
    sendReq 1 0 .gondola b false (Nat.max (stackNow m) (chanOf m (burstStack b) (burstChan b)).gonUntil) m
  else m

/-- STACK_REQUEST (R292): a burst request reaches its channel. In an emergency stop only Gondola asks (R301); what a port has received
waits in a stall of its partition (R232). -/
def execStackRequest (src : ReqSource) (s : State) : Ans :=
  onMod (fun m =>
    match src with
    | .gondola a => requestGondola a.toNat m
    | .stream t k => requestStream t.val k m
    | .reel p k => if m.power.active then m else requestReel p.val k m
    | .nmu n => if m.power.active then m else requestNmu n.val m
    | .winch page => if m.power.active then m else requestWinch page m
    | .remote q k => if portHeld m q.val then m else requestRemote q.val k m) s

/-! ## Service (R286, R296, R297, R538) -/

/-- The Winch read of a burst of a moving page: its words, corrected, go to the destination frame; an uncorrectable word is carried as
one (R538). -/
def serveWinchRead (page k b : Nat) (m : Mod) : Mod :=
  let d := destBurst m page k
  let n := burstStack b
  let bad := eccMarks m b 2
  let m := countFix b (eccMarks m b 1).length m
  let m := { m with
    dram := msets 0 m.dram (64 * d) (burstWords m b)
    ecc := (List.range 32).foldl (fun e j => mset 0 e (32 * d + j) (if bad.contains j then 2 else 0)) m.ecc }
  let m := bad.foldl (fun m j =>
    let m := noteUE d page m j
    if isBanked m (page * 0x200000 + 256 * k + 8 * j) then setRestore (pageOf m page).part (burstStack d) m else m) m
  sendReq 5 n (.winchWrite page) d false (stackNow m)
    { m with moves := m.moves.map (fun w => if w.page = page then { w with unread := w.unread.filter (· ≠ k) } else w) }

/-- A channel serves a burst of a remote access (R286, R296, R297, R300). -/
def serveRemote (q no k b : Nat) (second : Bool) (m : Mod) : Mod :=
  match (portOf m q).remote.find? (fun r => r.no == no) with
  | none => m
  | some r =>
    match nth? r.pieces k with
    | none => m
    | some x =>
      let page := x.addr / 0x200000
      let kb := x.addr % 0x200000 / 256
      let set (f : Piece → Piece) (m : Mod) : Mod := modRemote q no k f m
      if r.get then
        let e := eccRead b m
        match e.1 with
        | _ :: _ => answerRemotes q (set (fun x => { x with st := .landed, err := 3 }) e.2)
        | [] =>
          let ws := serveWords m page kb (burstWords m b)
          answerRemotes q (set (fun y => { y with st := .landed, data := (ws.drop (x.addr % 256 / 4)).take (x.len / 4) }) e.2)
      else if second then answerRemotes q (set (fun x => { x with st := .landed }) m)
      else
        let w := serveWrite page kb b (x.addr % 256) (wordsBytes ((r.pkt.payload.drop (x.off / 4)).take (x.len / 4))) m
        let m := if w.1.isEmpty then w.2 else set (fun x => { x with err := 3 }) w.2
        match forwardTo m b with
        | some d => sendReq 3 (81920 + q) (.remote q no k) d true (stackNow m) m
        | none => answerRemotes q (set (fun x => { x with st := .landed }) m)

/-- A channel serves the request it has granted. -/
def serveReq (r : Req) (m : Mod) : Mod :=
  match r.what with
  | .stream t q no k => serveStream t q no k r.burst r.second m
  | .nmuRecord i => serveRecord i r.burst m
  | .nmuRead i u l => serveNmuRead i u l r.burst m
  | .nmuWrite i u l => serveNmuWrite i u l r.burst r.second m
  | .winchRead page k => serveWinchRead page k r.burst m
  | .winchWrite page =>
    { m with moves := m.moves.map (fun w => if w.page = page then { w with written := w.written + 1 } else w) }
  | .winchZero _ => { m with dram := mfilter (fun w _ => w / 64 != r.burst) m.dram, ecc := mfilter (fun w _ => w / 32 != r.burst) m.ecc }
  | .remote q no k => serveRemote q no k r.burst r.second m
  | .gondola => (eccRead r.burst m).2
  | .gondolaData => m

/-! ## Arbitration (R293, R294) -/

/-- A channel grants the burst of a turn and serves it. -/
def giveTurn (n ch : Nat) (t : Turn) (m : Mod) : Mod :=
  serveReq t.req (grantBurst n ch t.at_ t.due t.req.rank t.req.index t.req.arrived t.locked (dropNth (chanOf m n ch).reqs t.k) m)

/-- A channel gives its turns until none of its requests is one of those asked about: those that go first are granted and served first
(R293, R294). -/
def giveTurns (n ch : Nat) (p : Req → Bool) : Nat → Mod → Mod
  | 0, m => m
  | f + 1, m =>
    let c := chanOf m n ch
    if !c.reqs.any p then m
    else match nextTurn m c with
      | none => m
      | some t => giveTurns n ch p f (giveTurn n ch t m)

/-- As many turns as can go before a request at a channel that stands there now: every other one, and a write that it forwards or begins. -/
def turnsLeft (n ch : Nat) (m : Mod) : Nat := 64 * (chanOf m n ch).reqs.length + 64

/-- A burst of a command of Gondola takes its turn at its channel within the command: it presents when Gondola's previous burst there is
through, and what goes before it is served before it (R292 to R294; log entry 39). The command then does its own read or write. -/
def gondolaTurn (b : Nat) (m : Mod) : Mod :=
  let n := burstStack b
  let ch := burstChan b
  let mine (r : Req) : Bool := r.rank == 1
  let m := giveTurns n ch mine (turnsLeft n ch m) m
  let m := sendReq 1 0 .gondolaData b false (Nat.max (stackNow m) (chanOf m n ch).gonUntil) m
  giveTurns n ch mine (turnsLeft n ch m) m

/-- A shard begins: its step record is read, by a request of its NMU that takes its turn at its channel (R292, R318; log entry 39). -/
def beginShard (i : Nat) (m : Mod) : Mod :=
  let b := pageBurst m (shardOf m i).firstPage 0
  let m := sendReq 2 0 (.nmuRecord i) b false (stackNow m) (modShard i (fun s => { s with began := true, unitsDone := [], stopped := false }) m)
  giveTurns (burstStack b) (burstChan b) (fun r => r.what == .nmuRecord i) (turnsLeft (burstStack b) (burstChan b) m) m

/-- NMU_START (R318, R321): at the first cycle of superstep START each valid shard of the partition that has an algorithm begins. -/
def execNmuStart (p : PartId) (s : State) : Ans :=
  onMod (fun m =>
    let x := partOf m p.val
    if x.jstate ≠ .running || x.xphase ≠ .compute || x.stepFailed || m.power.active then m
    else (m.shards.filter (fun e => e.2.valid && e.2.part == p.val && e.2.algo != 0 && e.2.start == stepIndex x && !e.2.began)).foldl
      (fun m e => beginShard e.1 m) m) s

/-- CHANNEL_GRANT (R293 to R297): once its next burst boundary with a request has come, the channel grants one and serves its burst. -/
def execChannelGrant (n : StackId) (ch : Fin 16) (s : State) : Ans :=
  onMod (fun m =>
    let c := chanOf m n.val ch.val
    match nextTurn m c with
    | none => m
    | some t =>
      if stackNow m < t.at_ then m
      else giveTurn n.val ch.val t m) s

/-- BACKOFF_EXPIRY (R294): the k-th request of a channel presents again, in its cycle. -/
def execBackoffExpiry (n : StackId) (ch : Fin 16) (k : Nat) (s : State) : Ans :=
  onMod (fun m =>
    match nth? (chanOf m n.val ch.val).reqs k with
    | none => m
    | some r =>
      if !r.waiting || decide (stackNow m < r.presentAt) then m
      else modChan n.val ch.val (fun c => { c with reqs := modNth (fun r => { r with waiting := false }) c.reqs k }) m) s

/-! ## Maintenance and scrub (R275, R298, R409) -/

/-- The scrub meets an ECC mark: a correctable word is written back and counted, an uncorrectable one recorded (R298, R409). -/
def scrubMark (m : Mod) (e : Nat × Nat) : Mod :=
  let b := e.1 / 32
  let page := burstPage m b
  if e.2 = 1 then countFix b 1 { m with ecc := mset 0 m.ecc e.1 0 }
  else
    let m := noteUE b page m (e.1 % 32)
    if page ≠ 0x1FFFFF && isBanked m (page * 0x200000 + b % 8192 * 256 + e.1 % 32 * 8) then
      setRestore (pageOf m page).part (burstStack b) m
    else m

/-- SCRUB_WRITEBACK (R298): a pass over the bursts of a channel ends. -/
def scrubPass (n ch : Nat) (m : Mod) : Mod :=
  (m.ecc.filter (fun e => burstStack (e.1 / 32) == n && burstChan (e.1 / 32) == ch)).foldl scrubMark
    (modChan n ch (fun c => { c with passes := c.passes + 1 }) m)

/-- Does an open locked sequence of a channel go on at its boundary (R275, R294)? -/
def lockHolds (c : Chan) : Bool := c.reqs.any (fun r => lockedBy c r.rank r.index && decide (r.presentAt ≤ c.boundary))

/-- MAINTENANCE_WINDOW (R275, R298): at the first burst boundary after it falls due, outside a locked sequence, the channel gives its 48
cycles; `passDone` says that its scrub has read the last burst. -/
def execMaintenanceWindow (n : StackId) (ch : Fin 16) (passDone : Bool) (s : State) : Ans :=
  onMod (fun m =>
    let c := chanOf m n.val ch.val
    if stackNow m < Nat.max c.boundary c.maintDue || lockHolds c then m
    else
      let m := modChan n.val ch.val (fun c => { c with
        boundary := Nat.max c.boundary c.maintDue + 48, maintDue := c.maintDue + 2048, lockLeft := 0 }) m
      if passDone then scrubPass n.val ch.val m else m) s

/-- SCRUB_PASSES of a stack: passes that every channel has completed. -/
def scrubPasses (s : Stack) : Nat :=
  Nat.min ((List.range 16).foldl (fun a ch => Nat.min a (mget ({} : Chan) s.chans ch).passes) 0xFFFF) 0xFFFF

/-! ## Zero fill and moves (R276, R278, R425) -/

/-- Zero every byte of a frame, with fresh check bits. -/
def zeroFrame (tierC : Bool) (frame : Nat) (m : Mod) : Mod :=
  let g := burstNo tierC frame 0 / 8192
  { m with dram := mfilter (fun w _ => w / 64 / 8192 != g) m.dram, ecc := mfilter (fun w _ => w / 32 / 8192 != g) m.ecc }

/-- The pages of a fill enter their state (R276). -/
def fillDone (f : Fill) (m : Mod) : Mod :=
  let m := f.pages.foldl (fun m x =>
    modPage x.1 (fun _ => { state := if f.tierC then .c else .b, part := f.part, frame := x.2 }) (zeroFrame f.tierC x.2 m)) m
  let m := { m with pagesDone := satAdd 32 m.pagesDone f.pages.length }
  if f.report then hostEvent 0x03 f.part 0x0104 f.seq.toNat 0 m else m

/-- Take the zero-fill requests of pages off their channels. -/
def dropZeroReqs (pages : List Nat) (m : Mod) : Mod :=
  let mine (r : Req) : Bool := match r.what with
    | .winchZero p => pages.contains p
    | _ => false
  { m with stk := mmapVals {} (fun _ (s : Stack) =>
      { s with chans := mmapVals {} (fun _ (c : Chan) => { c with reqs := c.reqs.filter (fun r => !mine r) }) s.chans }) m.stk }

/-- ZERO_FILL_COMPLETE (R276): the k-th MAP being zero-filled completes: the bursts that no granted request has shown as zeroed have been
zeroed by then (log entry 40). The Winch agents pause in an emergency stop (R301). -/
def execZeroFillComplete (k : Nat) (s : State) : Ans :=
  onMod (fun m =>
    match nth? m.fills k with
    | none => m
    | some f => if m.power.active then m else fillDone f (dropZeroReqs (f.pages.map (·.1)) { m with fills := dropNth m.fills k })) s

/-- A MOVE command whose last page has moved reports COMMAND_DONE (R425). -/
def moveGroupDone (g : Nat) (m : Mod) : Mod :=
  if m.moves.any (fun v => v.group == g) then m
  else match m.mvGroups.find? (fun x => x.group == g) with
    | none => m
    | some x => hostEvent 0x03 x.part 0x0105 x.seq.toNat 0 { m with mvGroups := m.mvGroups.filter (fun x => x.group != g) }

/-- The bursts of a moving page that no granted request has copied yet are copied, as the Winch read of each would (R278, R538). -/
def copyRest (v : Mv) (m : Mod) : Mod :=
  let page := v.page
  let src := pageBurst m page 0
  let dst := destBurst m page 0
  let inFrame (g b : Nat) : Bool := b / 8192 == g / 8192 && !isCopied v (b % 8192)
  let marks := m.ecc.filter (fun e => inFrame src (e.1 / 32))
  let m := { m with
    dram := (m.dram.filter (fun e => inFrame src (e.1 / 64))).foldl (fun d e => mset 0 d (e.1 + 64 * dst - 64 * src) e.2)
      (mfilter (fun w _ => !inFrame dst (w / 64)) m.dram)
    ecc := (marks.filter (fun e => e.2 == 2)).foldl (fun d e => mset 0 d (e.1 + 32 * dst - 32 * src) 2)
      (mfilter (fun w _ => !inFrame dst (w / 32)) m.ecc) }
  marks.foldl (fun m e =>
    let k := e.1 / 32 % 8192
    if e.2 = 1 then countFix (e.1 / 32) 1 m
    else
      let m := noteUE (dst + k) page m (e.1 % 32)
      if isBanked m (page * 0x200000 + 256 * k + 8 * (e.1 % 32)) then setRestore (pageOf m page).part (burstStack (dst + k)) m else m) m

/-- Take the Winch requests of a page off their channels. -/
def dropWinchReqs (page : Nat) (m : Mod) : Mod :=
  let mine (r : Req) : Bool := match r.what with
    | .winchRead p _ => p == page
    | .winchWrite p => p == page
    | _ => false
  { m with stk := mmapVals {} (fun _ (s : Stack) =>
      { s with chans := mmapVals {} (fun _ (c : Chan) => { c with reqs := c.reqs.filter (fun r => !mine r) }) s.chans }) m.stk }

/-- MOVE_FLIP (R278): every burst is copied: the page enters the destination tier, its source frame waits for older requests.
Bursts that no granted request has shown as copied have been copied by then (log entry 40). -/
def execMoveFlip (page : Nat) (s : State) : Ans :=
  onMod (fun m =>
    match m.moves.find? (fun v => v.page == page) with
    | none => m
    | some v =>
      if m.power.active then m
      else
        let m := dropWinchReqs page (copyRest v m)
        let x := pageOf m page
        let m := modPage page (fun x => { x with state := if x.toC then .c else .b, toC := false, frame := x.dest, dest := 0 }) m
        moveGroupDone v.group { m with
          moves := m.moves.filter (fun w => w.page != page)
          relFrames := m.relFrames ++ [{ tierC := !x.toC, frame := x.frame, dest := x.dest }]
          pagesDone := satAdd 32 m.pagesDone 1 }) s

/-- FRAME_RELEASE (R278): no request split before the flip is left, in the source frame or as a write forwarded to the destination: the
k-th source frame that waits is free. -/
def execFrameRelease (k : Nat) (s : State) : Ans :=
  onMod (fun m =>
    match nth? m.relFrames k with
    | none => m
    | some r =>
      if anyReq m (fun q => (burstTierC q.burst == r.tierC && burstFrame q.burst == r.frame) ||
          (q.second && burstTierC q.burst != r.tierC && burstFrame q.burst == r.dest)) then m
      else { m with relFrames := dropNth m.relFrames k }) s

end Sys2Proof.Machine
end

