-- ==== Sys2Proof/Machine/TileEvents.lean ====
section
/-! DEFINITION. What happens to a tile besides its instructions: the M unit and the stream engine run to their end, EXIT, waits, GO and
STOP, clears, regions, tile reset (R82 to R96, R122, R192 to R198, R484, R537). -/

namespace Sys2Proof.Machine

/-! ## Decoupled units run on (R85, R90, log entry 40) -/

/-- The change of the module that a command makes. -/
def viaExec (ch : Chip) (f : State → Ans) (m : Mod) : Mod :=
  match f { chip := ch, m, pending := [] } with
  | .next s => s.m
  | _ => m

/-- Nothing is left in the M unit of a tile. -/
def mIdle (d : TileData) : Bool := d.mq.isEmpty && d.mruns.isEmpty && d.mloads.isEmpty && d.drain.isEmpty

/-- What the M unit has left, to see whether it moves. -/
def mLeft (d : TileData) : Nat × Nat × Nat × Nat :=
  (d.mq.length, (d.mruns.map (fun r => r.n - r.done)).foldl (· + ·) 0, d.mloads.length, d.drain.length)

/-- One round of the M unit's events (R170 to R174). -/
def mRound (ch : Chip) (t : TileId) (m : Mod) : Mod :=
  let go (f : State → Ans) (m : Mod) : Mod := viaExec ch f m
  let m := (tdOf m t.val).mloads.foldl (fun m x => go (execWeightBufferReady t ⟨x.slot % 8, Nat.mod_lt _ (by decide)⟩) m) m
  let m := match (tdOf m t.val).mruns with
    | r :: _ => go (execRowCommit t r.done) m
    | [] => m
  let m := go (execDrainLand t) m
  match (tdOf m t.val).mq with
  | [] => m
  | e :: _ => match e.op with
    | .ldw .. => go (execMldwStart t) m
    | .run .. => go (execMrunStart t) m
    | .zero .. => go (execMzeroStart t) m
    | .drain .. => go (execMdrainStart t) m
    | .wgb .. => go (execMwgbStart t) m

/-- The M-slot instructions that a tile has issued complete (R90, R537). -/
def finishM (ch : Chip) (t : TileId) : Nat → Mod → Mod
  | 0, m => m
  | f + 1, m =>
    if mIdle (tdOf m t.val) || !clockRuns m t.val then m
    else
      let m' := mRound ch t m
      if mLeft (tdOf m' t.val) = mLeft (tdOf m t.val) then m' else finishM ch t f m'

/-- More rounds than any M queue needs: four started or queued instructions of at most 4,096 vectors or beats each. -/
abbrev mFuel : Nat := 65536

/-- The request of a tile's engine that stands first at some channel: stack, channel, place. -/
def streamReq (m : Mod) (t : Nat) : Option (Nat × Nat × Nat × Req) :=
  m.stk.findSome? (fun s => s.2.chans.findSome? (fun c =>
    (findIdx? (fun (r : Req) => match r.what with
      | .stream u _ _ _ => u == t
      | _ => false) c.2.reqs).bind (fun k => (nth? c.2.reqs k).map (fun r => (s.1, c.1, k, r)))))

/-- The bursts that a tile's engine has in flight are served and land (R284, R285, R288). -/
def finishStreams (ch : Chip) (t : TileId) : Nat → Mod → Mod
  | 0, m => m
  | f + 1, m =>
    match streamReq m t.val with
    | some (n, c, k, r) => finishStreams ch t f (serveReq r (modChan n c (fun x => { x with reqs := dropNth x.reqs k }) m))
    | none =>
      let ready (op : Nat) : List PieceAt :=
        piecesWhere (tdOf m t.val) (fun e x => x.st == .answered && dOp e.words == op && (op == 2 || !dReg e.words))
      let all := piecesWhere (tdOf m t.val) (fun e x => x.st == .answered && dOp e.words == 1)
      if !clockRuns m t.val then m
      else if !(ready 2).isEmpty then finishStreams ch t f (viaExec ch (execStreamWriteAck t 0) m)
      else match findIdx? (fun (y : PieceAt) => !dReg y.e.words) all with
        | some k => finishStreams ch t f (viaExec ch (execStreamReadData t k) m)
        | none => m

/-- More rounds than 128 requests in flight need, with their forwards and landings. -/
abbrev streamFuel : Nat := 1024

/-! ## EXIT (R82, R83) -/

/-- JOB_END (R83): every tile of the job is ENDED. -/
def jobEnd (p : Nat) (m : Mod) : Mod :=
  let x := partOf m p
  if x.jstate = .running && (tilesOfPart m p).all (fun t => (tdOf m t).st == .ended) then
    hostEvent 0x02 p 0xFFFF 1 0 (modPart p (fun x => { x with jstate := .ended, rstate := .ended, endCause := 1 }) m)
  else m

/-- The last cycle in which something that a tile has issued completes. -/
def lastCycle (d : TileData) : Nat :=
  d.mdeps.foldl (fun a x => Nat.max a x.cycle)
    (d.ready.foldl (fun a x => Nat.max a x.2) (Nat.max d.nextIssue (Nat.max d.drainFree (Nat.max d.xoFree d.recvDone))))

/-- TILE_ENDED (R82, R83, R86): what the tile has issued has completed; it leaves the sync, its endpoints close, its barriers break or
retire. A COPEN or BARRIVE still without its result and an armed receive (R220) hold it (log entry 29). -/
def execTileEnded (t : TileId) (s : State) : Ans :=
  onChip (fun ch m =>
    let d := tdOf m t.val
    if !d.exiting || d.st ≠ .running || !clockRuns m t.val || !d.xpend.isEmpty || !d.copens.isEmpty || !d.armed.isEmpty then m
    else
      let m := finishM ch t mFuel m
      if (tdOf m t.val).st ≠ .running then m
      else
        let t := t.val
        let c := lastCycle (tdOf m t)
        let m := dueTraps t c (readBeatsNow t c m)
        if (tdOf m t).st ≠ .running then m
        else
        let m := modTd t (fun d => { addCtr 0 (c - d.nextIssue) d with st := .ended, exiting := false, wait := {} }) m
        let m := memberGone t 2 c true (closeTile t c m)
        match partOfTile m t with
        | some p =>
          jobEnd p (trySync p (modPart p (fun x => { x with
            arrived := x.arrived.filter (· ≠ t), lastArrive := Nat.max x.lastArrive c }) m))
        | none => m) s

/-! ## Waits (R84, R87) -/

/-- WAIT_RELEASE (R84, R85): the wait of a tile ends if its condition is met now. A sync or tick wait ends with the event it waits for. -/
def execWaitRelease (t : TileId) (s : State) : Ans :=
  onMod (fun m =>
    let t := t.val
    let d := tdOf m t
    let c := nowOf m t
    if d.st ≠ .waiting || !clockRuns m t then m
    else match d.wait.kind with
      | .waitq .. => wakeWaitq t c m
      | .swait g k => if k ≤ mget 0 d.sigs g then endWait t c (modTd t (fun d => { d with sigs := mmod 0 d.sigs g (· - k) }) m) else m
      | .csend .. => retrySend t c m
      | .crecv h rd pd word pop =>
        (match handleEp m t h with
          | some k =>
            if (epOf m k).opq.isEmpty then m else endWait t c (takeMessage t k rd pd word pop c (leaveWait t c m))
          | none => m)
      | .bwait b g rd =>
        if genAfter (barOf m b).gen g then endWait t c (putStatus t rd chOk 0 c (leaveWait t c m)) else m
      | .sync => (match partOfTile m t with
          | some p => trySync p m
          | none => m)
      | .tick => m
      | .none => m) s

/-- WAIT_TIMEOUT (R87): a WAITQ or SWAIT has lasted more than WAIT_LIMIT × 1,024 cycles. -/
def execWaitTimeout (t : TileId) (s : State) : Ans :=
  onMod (fun m =>
    let t := t.val
    let d := tdOf m t
    let due := d.wait.since + d.waitLimit * 1024
    let info := match d.wait.kind with
      | .waitq q _ => some q
      | .swait g _ => some g
      | _ => none
    match info with
    | none => m
    | some n =>
      if d.st ≠ .waiting || d.waitLimit = 0 || !clockRuns m t || decide (nowOf m t < due) then m
      else trapTile t d.wait.pc 8 trapWaitTimeout n due false false m) s

/-! ## GO and STOP (R93, R96) -/

/-- GO (R96): from IDLE the tile starts at START_PC, from DEBUG_STOP it resumes at PC. A STOP written before the start stops it before its first
bundle (log entry 45). -/
def goTile (t : Nat) (m : Mod) : Mod :=
  let d := tdOf m t
  let c := Nat.max d.nextIssue (nowOf m t)
  match d.st with
  | .idle =>
    let m := modTd t (fun d => { d with st := .running, pc := d.startPc, nextIssue := c, stopDue := false }) m
    if d.stopDue then trapTile t d.startPc 0 trapStopped 0 c false false m else m
  | .debugStop => modTd t (fun d => { d with st := .running, skipBreak := true, oneBundle := d.singleStep, nextIssue := c }) m
  | _ => m

/-- TILE_GO. A tile of a KILLED_RETAINED partition takes none: its contents stay (R416). -/
def execTileGo (t : TileId) (s : State) : Ans := onMod (fun m => if retained m t.val then m else goTile t.val m) s

/-- STOP (R93, R96): a running or waiting tile stops before its next bundle; STOP ends a wait. A bundle in progress has not issued. A STOP
that Gondola writes itself is quiet. One that the host writes on an IDLE tile stops it before its first bundle; in the other states no
bundle is to issue (log entry 45). -/
def stopTile (t : Nat) (quiet : Bool) (m : Mod) : Mod :=
  let d := tdOf m t
  if d.st = .running || d.st = .waiting then
    let m := dropBundle t m
    let c := Nat.max (tdOf m t).nextIssue (nowOf m t)
    trapTile t (tdOf m t).pc 0 trapStopped 0 c false quiet (dueTraps t c m)
  else if d.st = .idle && !quiet then modTd t (fun d => { d with stopDue := true }) m
  else m

/-- TILE_STOP. -/
def execTileStop (t : TileId) (byGondola : Bool) (s : State) : Ans := onMod (stopTile t.val byGondola) s

/-! ## Clears (R97, R122, R146) -/

/-- An increment of a counter in this cycle: of the bundle in progress. CLEAR leaves it (R122). -/
def clearTo (new old : Nat) : Nat := new - old

/-- COUNTER_CLEAR (R97). -/
def execCounterClear (t : TileId) (s : State) : Ans := onMod (fun m => modTd t.val (fun d => { countWait (nowOf m t.val) d with ctr := [] }) m) s
/-- CLEAR of NF_CONTROL (R122): the four counters keep what the bundle in progress has added, none otherwise; NF_FIRST stays. -/
def clearNf (base d : TileData) : TileData :=
  { d with
    nfResults := clearTo d.nfResults base.nfResults, nfInvalid := clearTo d.nfInvalid base.nfInvalid
    nfOverflow := clearTo d.nfOverflow base.nfOverflow, nfDivzero := clearTo d.nfDivzero base.nfDivzero }
/-- CLEAR of CV_CONTROL (R146), in the same way. -/
def clearCv (base d : TileData) : TileData :=
  { d with cv := d.cv.foldl (fun c x => mset 0 c x.1 (clearTo x.2 (mget 0 base.cv x.1))) [] }
/-- A change of a tile against what it held before the bundle in progress, if one is; a bundle given up leaves the change. -/
def againstBase (f : TileData → TileData → TileData) (t : Nat) (m : Mod) : Mod :=
  modTile t (fun x => match x.bundle with
    | some b => { d := f b.base x.d, bundle := some { b with base := f b.base b.base } }
    | none => { x with d := f x.d x.d }) m
/-- NF_CLEAR (R122). -/
def execNfClear (t : TileId) (s : State) : Ans := onMod (fun m => if retained m t.val then m else againstBase clearNf t.val m) s
/-- CV_CLEAR (R146). -/
def execCvClear (t : TileId) (s : State) : Ans := onMod (fun m => if retained m t.val then m else againstBase clearCv t.val m) s

/-! ## Regions (R192, R195, R198) -/

/-- Is a tile stopped: IDLE, ENDED, TRAPPED or DEBUG_STOP? -/
def tileStopped (d : TileData) : Bool := d.st != .running && d.st != .waiting

/-- Does a mirror block lie outside the ring of a region? -/
def mirrorClear (mirror : Nat) (r : Region) : Bool := decide (mirror + 8 ≤ r.base) || decide (r.base + r.size ≤ mirror)

/-- The constraints of R192 for region g of a tile. -/
def regionOk (d : TileData) (g : Nat) (r : Region) : Bool :=
  decide (r.sizeLog2 ≤ 12) && decide (r.attach ≤ 3) && r.base % 128 == 0 && decide (r.base + r.size ≤ 0x100000) && r.mirror % 8 == 0 &&
    mirrorClear r.mirror r &&
    d.regions.all (fun e => e.1 == g || e.2.attach == 0 || (mirrorClear r.mirror e.2 && mirrorClear e.2.mirror r))

/-- A write of REGION_CONFIG (R192, R198). -/
def writeRegion (g v : Nat) (d : TileData) : TileData :=
  if !tileStopped d then d
  else
    let new (r : Region) : Region :=
      { r with mirror := bits v 63 44, sizeLog2 := bits v 43 40, attach := bits v 39 36, base := bits v 19 0 }
    let r := new (regionOf d g)
    if r.attach = 0 then modRegion g new d
    else if !regionOk d g r then modRegion g (fun r => { new r with attach := 0 }) d
    else spPuts r.mirror [0, 0] (modRegion g (fun r => { new r with head := 0, tail := 0, badSeen := false, waitFrom := none }) d)

/-- A write of REGION_CONFIG to a tile; a KILLED_RETAINED partition refuses it (R416). The reads of XO that are due see the mirror words before it (R185). -/
def configRegion (t g v : Nat) (m : Mod) : Mod :=
  if tileStopped (tdOf m t) && !retained m t then modTd t (writeRegion g v) (readBeatsNow t (nowOf m t) m) else m

/-- REGION_CONFIG_WRITE (R198). -/
def execRegionConfigWrite (t : TileId) (g : Fin 16) (v : W64) (s : State) : Ans := onMod (configRegion t.val g.val v.toNat) s

/-- MIRROR_REREAD (R195, R196): the hardware side, which waits and has waited 16 more tile cycles, reads the program's pointer again; its wait
is over where that gives it what it needs. -/
def execMirrorReread (t : TileId) (g : Fin 16) (s : State) : Ans :=
  onMod (fun m =>
    let t := t.val
    match (regionOf (tdOf m t) g.val).waitFrom with
    | none => m
    | some c =>
      let due := c + 16 * coreK m t
      if !clockRuns m t || retained m t || decide (nowOf m t < due) then m
      else
        let m := rereadMirror t g.val due (modTd t (modRegion g.val (fun r => { r with
          fullWait := satAdd 42 r.fullWait (16 * coreK m t), waitFrom := some due })) m)
        if (regionOf (tdOf m t) g.val).lacks (regionOf (tdOf m t) g.val).waitNeed then m
        else modTd t (modRegion g.val (fun r => { r with waitFrom := none })) m) s

/-! ## Tile reset (R482, R484, R485, R492, R537) -/

/-- What a tile reset leaves (R492, last column): registers, loop stack, trap record and wait state zero, PC at START_PC, nothing armed. A
COPEN that waits for its replies goes on, its result lost with the registers (DESIGN CHOICE, log entry 143). -/
def resetTileData (d : TileData) : TileData :=
  { d with
    sreg := [], vreg := [], preg := [], loops := [], pc := d.startPc, st := .idle, wait := {}, exiting := false, trap := {}
    latch := 0, skipBreak := false, oneBundle := false, stopDue := false, faultsDue := [], xpend := []
    copens := d.copens.map (fun x => { x with rd := 0 }), armed := [], disarming := [], lands := [], ready := [] }

/-- The tile core of a tile is reset. -/
def resetCore (t : Nat) (m : Mod) : Mod := modTile t (fun x => { d := resetTileData x.d, bundle := none }) m

/-- Has a tile nothing outstanding in its M unit and its stream engine? -/
def unitsIdle (m : Mod) (t : Nat) : Bool := mIdle (tdOf m t) && (tdOf m t).queues.all (fun q => q.2.descs.isEmpty)

/-- TILE_RESET ordered in RESET_CONTROL (R484, R537): refused, with no effect, while the tile runs, or in a KILLED_RETAINED partition
(R416). It waits for what its units have
outstanding while their clock stands still. -/
def resetTileNow (ch : Chip) (t : TileId) (m : Mod) : Mod :=
  if !tileStopped (tdOf m t.val) || retained m t.val then m
  else if !clockRuns m t.val && !unitsIdle m t.val then
    { m with power := { m.power with heldResets := m.power.heldResets.filter (· ≠ t) ++ [t] } }
  else
    let m := finishStreams ch t streamFuel (finishM ch t mFuel m)
    let c := nowOf m t.val
    let m := memberGone t.val 1 c true (closeReceives t.val c m)
    let m := modTd t.val (fun d => { d with
      queues := mmapVals {} (fun _ (q : Queue) => { q with descs := [], lead := [] }) d.queues }) m
    resetCore t.val { m with tileResets := satAdd 32 m.tileResets 1 }

/-- The tile resets that waited take effect where the clock runs again (R537). -/
def dueResets (ch : Chip) (m : Mod) : Mod :=
  match m.power.heldResets with
  | [] => m
  | l => l.foldl (fun m t => resetTileNow ch t m) { m with power := { m.power with heldResets := [] } }

/-- The switch of a half that is in progress is complete (R464). What its tiles have in hand keeps its figures in tile cycles (R175). -/
def endSwitch (h : Nat) (m : Mod) : Mod :=
  let y := halfSt m h
  let rest (clk : Clk) (k k' : Nat) : Mod :=
    (tilesOfHalf h).foldl (fun m t => modTd t (retime (y.switchFrom - lagOf m t) k k') m) (modHalf h (fun y => { y with clk }) m)
  match y.clk with
  | .toHalf => rest .half 1 2
  | .toFull => rest .full 2 1
  | _ => m

/-- A half that runs at 400 MHz begins its return to 800 MHz in a source cycle (R464). -/
def returnHalf (h c : Nat) (m : Mod) : Mod :=
  modHalf h (fun y => if y.clk = .half then { y with clk := .toFull, switchFrom := c } else y) m

/-- The halves of a partition begin their return, where its step is abandoned or its job ends. R464 names no such switch, and R468 has a
superstep without a clock event run at 800 MHz (DESIGN CHOICE, log entry 154). -/
def returnHalves (p : Nat) (m : Mod) : Mod := (maskBits 8 (partOf m p).halves).foldl (fun m h => returnHalf h m.now m) m

/-- Does every half of a partition run at 800 MHz? -/
def halvesFull (m : Mod) (p : Nat) : Bool := (maskBits 8 (partOf m p).halves).all (fun h => (halfSt m h).clk == .full)

/-- TILE_RESET. -/
def execTileReset (t : TileId) (s : State) : Ans := onChip (fun ch => resetTileNow ch t) s

end Sys2Proof.Machine
end

