-- ==== Sys2Proof/Machine/Reduction.lean ====
section
/-! DEFINITION. The reduction engines: EW16 blocks, the three inputs, matching, the exact sum, widening, outputs, faults, epochs
(12 R334 to R364). -/

namespace Sys2Proof.Machine

/-! ## Blocks (R337, R338, R339) -/

/-- Element i of a block of n limbs, from its words after the header (R148, R337). -/
def blockElem (n : Nat) (ws : List W32) (i : Nat) : Int :=
  signed (16 * n) ((List.range n).foldl (fun a k => a + (bits (nth 0 ws (8 * k + i / 2)).toNat (16 * (i % 2) + 15) (16 * (i % 2))) * 2 ^ (16 * k)) 0)

/-- The 16 elements of a block. -/
def blockElems (n : Nat) (ws : List W32) : List Int := (List.range 16).map (blockElem n ws)

/-- Limb plane k of 16 elements, two limbs a word. -/
def limbPlane (vals : List Int) (k : Nat) : List W32 :=
  (List.range 8).map (fun i =>
    let limb (j : Nat) : Nat := lowBits (16 * (k + 1)) (nth 0 vals j) / 2 ^ (16 * k)
    BitVec.ofNat 32 (limb (2 * i) + 2 ^ 16 * limb (2 * i + 1)))

/-- Smallest limb count in which every element fits, 7 where six do not do (R338). -/
def limbsOf (vals : List Int) : Nat := (([1, 2, 3, 4, 5, 6] : List Nat).find? (fun n => vals.all (fitsLimbs n))).getD 7

/-- Header of a block (R337, R338). -/
def blockHeader (job n w num : Nat) : W32 := BitVec.ofNat 32 (packN [(28, job), (27, b2n (decide (w < n))), (24, n), (0, num % 2 ^ 24)])

/-- Words of a block. -/
def blockWords (job n w num : Nat) (vals : List Int) : List W32 :=
  blockHeader job n w num :: (List.range n).flatMap (limbPlane vals)

/-- Beats that a block of n limbs takes of a buffer. -/
def blockBeats (n : Nat) : Nat := (4 + 32 * n + 63) / 64

/-! ## Contexts and faults (R335, R363) -/

/-- Reduction fault codes (R363). -/
abbrev rfBadHeader : Nat := 1
abbrev rfTag : Nat := 2
abbrev rfNoRoute : Nat := 3
abbrev rfOrder : Nat := 4
abbrev rfMissing : Nat := 5
abbrev rfSumRange : Nat := 6
abbrev rfOverflow : Nat := 7
abbrev rfShift : Nat := 8

/-- Inputs of an engine (RE_FAULT INPUT). -/
abbrev inLink : Nat := 0
abbrev inLocal : Nat := 1
abbrev inChain : Nat := 2

/-- A context of an engine. -/
def ctxOf (m : Mod) (e j : Nat) : RCtx := mget {} (engineOf m e).ctx j
/-- Change a context. -/
def modCtx (e j : Nat) (f : RCtx → RCtx) (m : Mod) : Mod := modEngine e (fun x => { x with ctx := mmod {} x.ctx j f }) m
/-- The partition an engine's fault counts for: that of the context, else that of the port. -/
def enginePart (m : Mod) (e j : Nat) : Nat := if (ctxOf m e j).valid then (ctxOf m e j).part else (portOf m e).part

/-- Discard what an engine holds of a job, blocks that wait for their delivery too (R363). -/
def discardJob (j : Nat) (x : Engine) : Engine :=
  let keep (l : List Blk) : List Blk := l.filter (fun b => b.job != j)
  { x with
    link := keep x.link, locl := keep x.locl, chain := keep x.chain, deliver := x.deliver.filter (fun d => d.1 != j)
    half := x.half.filter (fun h => (mget ({} : Contrib) x.contribs h.1).job != j) }

/-- A reduction fault (R363): the first is recorded, each counted; the job's blocks go, and it is served no more until the abandonment. -/
def engineFault (e j input block code : Nat) (m : Mod) : Mod :=
  let at_ := srcNow m
  let m := modEngine e (fun x =>
    let f := noteFirst at_ [j, input, block % 2 ^ 24, code] x.fault
    { discardJob j x with fault := { f with count := satAdd 16 f.count 1 } }) m
  signalModule (enginePart m e j) 0x04 code (modCtx e j (fun c => { c with stopped := true }) m)

/-! ## Inputs (R346, R347, R351) -/

/-- The last block number of a job on an input, plus 1. -/
def lastBlock (x : Engine) (input j : Nat) : Nat :=
  if input = inLink then mget 0 x.linkLast j else if input = inLocal then mget 0 x.localLast j else mget 0 x.chainLast j

/-- A block takes its place on an input; one of a job that a fault has stopped is discarded (R363). -/
def pushBlk (input : Nat) (b : Blk) (x : Engine) : Engine :=
  let new : List Blk := if (mget ({} : RCtx) x.ctx b.job).stopped then [] else [b]
  if input = inLink then { x with link := x.link ++ new, linkLast := mset 0 x.linkLast b.job (b.num + 1) }
  else if input = inLocal then { x with locl := x.locl ++ new, localLast := mset 0 x.localLast b.job (b.num + 1) }
  else { x with chain := x.chain ++ new, chainLast := mset 0 x.chainLast b.job (b.num + 1) }

/-- A checked block reaches an input: it must follow the last of its job there (R346). -/
def takeBlk (e input : Nat) (b : Blk) (m : Mod) : Mod :=
  if b.num < lastBlock (engineOf m e) input b.job then engineFault e b.job input b.num rfOrder m else modEngine e (pushBlk input b) m

/-- Checks of a block of a packet on LINK or CHAIN (R347), given its header and the words after it. -/
def takePacketBlk (e input tag epoch : Nat) (hdr : W32) (ws : List W32) (m : Mod) : Mod :=
  let h := hdr.toNat
  let j := bits h 31 28
  let n := bits h 26 24
  let c := ctxOf m e j
  if epoch ≠ c.epoch then modCtx e j (fun c => { c with stale := satAdd 16 c.stale 1 }) m
  else if tag ≠ c.tag then engineFault e j input (bits h 23 0) rfTag m
  else if n = 0 || n = 7 || !c.valid || ws.length < 8 * n then engineFault e j input (bits h 23 0) rfBadHeader m
  else takeBlk e input { job := j, num := bits h 23 0, limbs := n, beats := blockBeats n, vals := blockElems n ws } m

/-- Cut words into blocks: header and the words after it. Zero words at the end are padding (R339); a reserved limb count ends it. -/
def cutBlocks : Nat → List W32 → List (W32 × List W32)
  | 0, _ => []
  | _, [] => []
  | f + 1, h :: r =>
    let n := bits h.toNat 26 24
    if (h :: r).all (· == 0) then []
    else if n = 0 || n = 7 then [(h, r)]
    else (h, r.take (8 * n)) :: cutBlocks f (r.drop (8 * n))

/-- REDUCTION_PACKET (R339, R347, R386). -/
def reductionPacket (q : PortId) (tag : BitVec 16) (epoch : BitVec 8) (payload : List W32) : Mod → Mod :=
  whenClocked (.reductionPacket q tag epoch payload) (fun m =>
    if !portTakes m q.val tag then routeDrop q.val m
    else (cutBlocks payload.length payload).foldl (fun m b => takePacketBlk q.val inLink tag.toNat epoch.toNat b.1 b.2 m) m)

/-- REDUCTION_PACKET. -/
def execReductionPacket (q : PortId) (jobTag : BitVec 16) (epoch : BitVec 8) (payload : List W32) (s : State) : Ans :=
  onMod (reductionPacket q jobTag epoch payload) s

/-- CHAIN_BLOCK (R346, R347, R352): the k-th block in flight to an engine of this module arrives on CHAIN. -/
def execChainBlock (e : PortId) (k : Nat) (s : State) : Ans :=
  onMod (fun m =>
    let mine := indices m.chainBlks.length (fun i => match nth? m.chainBlks i with
      | some b => b.engine == e.val
      | none => false)
    match nth? mine k with
    | none => m
    | some i =>
      match nth? m.chainBlks i with
      | none => m
      | some b =>
        if fabricHeld m (portOf m e.val).part then m
        else takePacketBlk e.val inChain b.tag b.epoch b.hdr b.words { m with chainBlks := dropNth m.chainBlks i }) s

/-- Blocks of a compiled transfer that are whole, and the words left (R346). -/
def wholeBlocks : Nat → List W32 → List (W32 × List W32) × List W32
  | 0, ws => ([], ws)
  | _, [] => ([], [])
  | f + 1, h :: r =>
    let n := bits h.toNat 26 24
    if n = 0 || n = 7 || r.length < 8 * n then ([], h :: r)
    else let x := wholeBlocks f (r.drop (8 * n)); ((h, r.take (8 * n)) :: x.1, x.2)

/-- The job of the block that words begin. -/
def wordsJob (l : List W32) : Nat := bits (nth 0 l 0).toNat 31 28

/-- Beats that the LINK buffer of an engine holds: those of a job that a fault has stopped are not held (R363). -/
def linkFill (x : Engine) : Nat :=
  (x.link.map (·.beats)).foldl (· + ·) 0 +
    (x.linkWords.map (fun w => if (mget ({} : RCtx) x.ctx (wordsJob w.2)).stopped then 0 else (w.2.length + 15) / 16)).foldl (· + ·) 0

/-- A block that compiled beats carry: checked for BAD_HEADER, its context of the port's partition (R346). -/
def takeCompiledBlk (e : Nat) (b : W32 × List W32) (m : Mod) : Mod :=
  let h := b.1.toNat
  let j := bits h 31 28
  let n := bits h 26 24
  let c := ctxOf m e j
  if !c.valid || c.part ≠ (portOf m e).part then engineFault e j inLink (bits h 23 0) rfBadHeader m
  else takeBlk e inLink { job := j, num := bits h 23 0, limbs := n, beats := blockBeats n, vals := blockElems n b.2 } m

/-- A compiled beat forwarded to the engine of its port (R346, R351): the first beat of a transfer starts a block, and the last ends
one. -/
def linkForward (e transfer : Nat) (first last : Bool) (ws : List W32) (m : Mod) : Mod :=
  let old := if first then [] else mget [] (engineOf m e).linkWords transfer
  if 256 ≤ linkFill (engineOf m e) then engineFault e (wordsJob (old ++ ws)) inLink (bits (nth 0 (old ++ ws) 0).toNat 23 0) rfOverflow m
  else
    let x := wholeBlocks 16 (old ++ ws)
    let m := x.1.foldl (fun m b => takeCompiledBlk e b m) (modEngine e (fun y => { y with linkWords := mset [] y.linkWords transfer [] }) m)
    if x.2.all (· == 0) && (last || bits (nth 0 x.2 0).toNat 26 24 == 0) then m
    else
      let h := (nth 0 x.2 0).toNat
      let n := bits h 26 24
      if last || n = 0 || n = 7 then engineFault e (wordsJob x.2) inLink (bits h 23 0) rfBadHeader m
      else modEngine e (fun y => { y with linkWords := mset [] y.linkWords transfer x.2 }) m

/-- Beats that the LOCAL buffer of an engine holds. -/
def localFill (x : Engine) : Nat := (x.locl.map (·.beats)).foldl (· + ·) 0 + x.half.length

/-- A contribution beat enters LOCAL (R342, R343, R345, R351). -/
def takeContrib (b : ContribBeat) (m : Mod) : Mod :=
  let e := b.engine
  let c := mget ({} : Contrib) (engineOf m e).contribs b.entry
  let num := (c.first + (if b.exact then b.beat / 2 else b.beat)) % 2 ^ 24
  if 256 ≤ localFill (engineOf m e) then engineFault e b.job inLocal num rfOverflow m
  else if !c.valid || c.job ≠ b.job then engineFault e b.job inLocal num rfNoRoute m
  else if !b.exact then takeBlk e inLocal { job := b.job, num, limbs := 0, beats := 1, vals := b.vals } m
  else if b.shift ≠ c.shift then engineFault e b.job inLocal num rfShift m
  else
    let vals := b.vals.map (fun (v : Int) => v * ((2 ^ c.shift : Nat) : Int))
    let key := 2 * num + b.beat % 2
    let other := 2 * num + (1 - b.beat % 2)
    match (engineOf m e).half.find? (fun h => h.1 == b.entry && h.2.1 == other) with
    | none => if (ctxOf m e b.job).stopped then m else modEngine e (fun x => { x with half := x.half ++ [(b.entry, key, vals)] }) m
    | some h =>
      let all := if b.beat % 2 = 1 then h.2.2 ++ vals else vals ++ h.2.2
      takeBlk e inLocal { job := b.job, num, limbs := 0, beats := 2, vals := all }
        (modEngine e (fun x => { x with half := x.half.filter (fun y => !(y.1 == b.entry && y.2.1 == other)) }) m)

/-- Read the beats on their way to an engine that their tiles have still to read. -/
def readToEngine (e : Nat) (m : Mod) : Mod :=
  (List.range 8).foldl (fun m p =>
    (partOf m p).beats.foldl (fun m b =>
      match b.dst, b.src with
      | .engine f _, .scratch t _ => if f = e then readBeatsNow t b.readAt m else m
      | .engine f _, .wgb t _ _ => if f = e then readBeatsNow t b.readAt m else m
      | _, _ => m) m) m

/-- CONTRIBUTION_BEAT (R342 to R346, R351): the k-th contribution beat on its way to an engine arrives. -/
def execContributionBeat (e : PortId) (k : Nat) (s : State) : Ans :=
  onMod (fun m =>
    if fabricHeld m (portOf m e.val).part then m
    else
      let m := readToEngine e.val m
      let mine := indices m.contribs.length (fun i => match nth? m.contribs i with
        | some b => b.engine == e.val
        | none => false)
      match nth? mine k with
      | none => m
      | some i =>
        match nth? m.contribs i with
        | none => m
        | some b => takeContrib b { m with contribs := dropNth m.contribs i }) s

/-! ## Matching (R348) -/

/-- The first block of a job on an input. -/
def headBlk (l : List Blk) (j : Nat) : Option Blk := l.find? (fun b => b.job == j)
/-- The heads of the three inputs of a job: LINK, LOCAL, CHAIN. -/
def heads (x : Engine) (j : Nat) : List (Nat × Option Blk) :=
  [(inLink, headBlk x.link j), (inLocal, headBlk x.locl j), (inChain, headBlk x.chain j)]

/-- What the engine does next for a job (table Block matching). -/
inductive Match where
  | idle
  | fault (code input block : Nat)
  | waits
  | ready (num : Nat) (route : Route) (first : Nat)

/-- Block matching (R348). -/
def matchJob (x : Engine) (j : Nat) : Match :=
  let hs := (heads x j).filterMap (fun h => h.2.map (fun b => (h.1, b.num)))
  match hs with
  | [] => .idle
  | h :: rest =>
    let low := rest.foldl (fun a y => if y.2 < a.2 then y else a) h
    let b := low.2
    match x.routes.find? (fun r => r.2.valid && r.2.job == j && decide (r.2.first ≤ b) && decide (b ≤ r.2.last)) with
    | none => .fault rfNoRoute low.1 b
    | some (_, r) =>
      match hs.find? (fun y => y.2 == b && !bit r.inputs y.1) with
      | some y => .fault rfNoRoute y.1 b
      | none =>
        match hs.find? (fun y => decide (b < y.2) && bit r.inputs y.1) with
        | some y => .fault rfMissing y.1 b
        | none =>
          if (List.range 3).any (fun i => bit r.inputs i && !hs.any (fun y => y.1 == i)) then .waits
          else .ready b r r.first

/-- Superstep index of an inbound transfer entry (R229): SUPERSTEP_LO of word 1, SUPERSTEP_HI of word 2. -/
def inboundIndex (e : W64 × W64) : Nat := bits e.1.toNat 63 52 + 4096 * bits e.2.toNat 31 28

/-- The two words of an inbound transfer entry (R229). -/
def inboundEntry (m : Mod) (q n : Nat) : W64 × W64 :=
  let v := (mget 0 (portOf m q).inbound n).toNat
  (BitVec.ofNat 64 v, BitVec.ofNat 64 (v / 2 ^ 64))

/-- W_START of an entry (R229). -/
def inStart (e : W64 × W64) : Nat := bits e.1.toNat 51 32

/-- Beats of reduction packets' payloads of the present epoch that a port has still to have acknowledged: the credit of the LINK buffer
behind its peer that they hold (R351, R364; log entry 132). -/
def linkDebt (x : Port) : Nat := payloadBeats x - x.oldDebt
/-- Beats of blocks that hold credit of the CHAIN buffer of an engine (R351): those held there and those on their way. -/
def chainDebt (m : Mod) (f : Nat) : Nat :=
  ((engineOf m f).chain.map (·.beats)).foldl (· + ·) 0 +
    ((m.chainBlks.filter (fun b => b.engine == f)).map (fun b => blockBeats (b.words.length / 8))).foldl (· + ·) 0
/-- Beats that an engine has still to put into the fabric: deliveries, and blocks to other ports and engines (R353). -/
def fabricLoad (m : Mod) (e : Nat) : Nat := (engineOf m e).deliver.length + ((engineOf m e).deliverFrom - m.now)
/-- Beats that a block of n limbs puts into the fabric (R353). -/
def fabricBeats (e : Nat) (r : Route) (n : Nat) : Nat :=
  (if r.outPort ≤ 50 ∧ r.outPort ≠ e then blockBeats n else 0) + (if r.outEngine ≤ 50 then blockBeats n else 0) + b2n r.deliver

/-- Can the outputs of a route accept a block of n limbs (R350)? There is credit for it (R351), the fabric takes one beat a cycle, at most
four waiting (R353; log entry 132), and a delivery waits for W_START in the exchange phase of its transfer (R354). -/
def outputsOpen (m : Mod) (e : Nat) (r : Route) (n : Nat) : Bool :=
  (decide (50 < r.outPort) || decide (linkDebt (portOf m r.outPort) + blockBeats n ≤ 256)) &&
    (decide (50 < r.outEngine) || decide (chainDebt m r.outEngine + blockBeats n ≤ 128)) &&
    (fabricBeats e r n == 0 || fabricLoad m e == 0 || decide (fabricLoad m e + fabricBeats e r n ≤ 4)) &&
    (!r.deliver ||
      (let p := (portOf m e).part
       let x := partOf m p
       let en := inboundEntry m e r.transfer
       x.xphase != .compute && stepIndex x == inboundIndex en && decide (x.e0 + inStart en ≤ partNow m p)))

/-! ## The exact sum (R349, R350, R352, R357) -/

/-- Remove a block number of a job from an input. -/
def dropBlk (l : List Blk) (j num : Nat) : List Blk := l.filter (fun b => !(b.job == j && b.num == num))

/-- The blocks summed: those of the listed inputs. -/
def listedBlks (x : Engine) (j num : Nat) (r : Route) : List Blk :=
  (heads x j).filterMap (fun h => if bit r.inputs h.1 then h.2.filter (fun b => b.num == num) else none)

/-- The exact sums of a ready block (R349). -/
def blockSums (x : Engine) (j num : Nat) (r : Route) : List Int :=
  (List.range 16).map (fun i => ((listedBlks x j num r).map (fun b => nth 0 b.vals i)).foldl (· + ·) 0)

/-- Limbs of the block that a ready block is emitted as (R338). -/
def sumLimbs (m : Mod) (e j num : Nat) (r : Route) : Nat := Nat.max (ctxOf m e j).window (limbsOf (blockSums (engineOf m e) j num r))

/-- The fabric of an engine takes the beats of a block for another port or engine, one a cycle (R353). -/
def useFabric (e n : Nat) (m : Mod) : Mod := modEngine e (fun x => { x with deliverFrom := Nat.max m.now x.deliverFrom + n }) m

/-- Send an EW16 block of n limbs from a port (R352): straight to the link of the engine's own port, else across the fabric. An engine sends
each block as a packet, and in the module as a padded run, of its own: R339 does not say how many it puts together (DESIGN CHOICE, log
entry 152). -/
def outBlock (e q n tag epoch job : Nat) (ws : List W32) (m : Mod) : Mod :=
  sendReduction q tag epoch job ws (if q = e then m else useFabric e (blockBeats n) m)

/-- Sum a ready block of a job and send it on (R338, R349, R352, R357). -/
def sumBlock (e j num : Nat) (r : Route) (m : Mod) : Mod :=
  let x := engineOf m e
  let c := ctxOf m e j
  let bs := listedBlks x j num r
  let vals := blockSums x j num r
  let k := limbsOf vals
  if 6 < k then let f := takeFree m; engineFault e j (Config.unstated f.1 % 3) num rfSumRange f.2
  else
    let n := Nat.max c.window k
    let widened := decide (c.window < n) && bs.all (fun b => decide (b.limbs < n))
    let m := modEngine e (fun x => { x with link := dropBlk x.link j num, locl := dropBlk x.locl j num, chain := dropBlk x.chain j num }) m
    let m := modCtx e j (fun c => { c with
      blocks := satAdd 32 c.blocks 1, widen := if widened then satAdd 16 c.widen 1 else c.widen }) m
    let ws := blockWords j n c.window (num + r.delta) vals
    let m := if r.outPort ≤ 50 then outBlock e r.outPort n c.tag c.epoch j ws m else m
    let m := if r.outEngine ≤ 50 then
        let m := useFabric e (blockBeats n) m
        { m with chainBlks := m.chainBlks ++ [{ engine := r.outEngine, tag := c.tag, epoch := c.epoch, hdr := nth 0 ws 0, words := ws.drop 1 }] }
      else m
    if r.deliver then modEngine e (fun x => { x with deliver := x.deliver ++ [(j, r.transfer, r.tag, vals)] }) m else m

/-- The jobs of an engine in turn, after the one it served last (R350). -/
def turnOrder (x : Engine) : List Nat := (List.range 16).map (fun i => (x.served + 1 + i) % 16)

/-- Is a job's next block ready, with its outputs open? -/
def jobReady (m : Mod) (e j : Nat) : Bool :=
  !(ctxOf m e j).stopped && (match matchJob (engineOf m e) j with
    | .ready b r _ => outputsOpen m e r (sumLimbs m e j b r)
    | _ => false)

/-- Raise the faults that matching finds in any job (R348, R363). -/
def matchFaults (e : Nat) (m : Mod) : Mod :=
  (List.range 16).foldl (fun m j =>
    if (ctxOf m e j).stopped then m
    else match matchJob (engineOf m e) j with
      | .fault code input b => engineFault e j input b code m
      | _ => m) m

/-- Sum at most n ready blocks of a job (R350). -/
def sumReady (e j : Nat) : Nat → Mod → Mod
  | 0, m => m
  | n + 1, m =>
    if (ctxOf m e j).stopped then m
    else match matchJob (engineOf m e) j with
      | .ready b r _ => if outputsOpen m e r (sumLimbs m e j b r) then sumReady e j n (sumBlock e j b r m) else m
      | _ => m

/-- BLOCK_SUM (R348 to R350): the adder serves the next job that has a ready block. -/
def execBlockSum (e : PortId) (s : State) : Ans :=
  onMod (fun m =>
    if m.power.active then m
    else
      let e := e.val
      let m := matchFaults e m
      match (turnOrder (engineOf m e)).find? (jobReady m e) with
      | none => m
      | some j => matchFaults e (sumReady e j 4 (modEngine e (fun x => { x with served := j }) m))) s

/-! ## Epochs (R364) and registers (R367) -/

/-- Is a job of an engine one of a partition's: its context is the partition's, or it has no context and the engine's port is? -/
def jobOfPart (p : Nat) (port : Bool) (x : Engine) (j : Nat) : Bool :=
  let c := mget ({} : RCtx) x.ctx j
  if c.valid then c.part == p else port

/-- The ports assigned to a partition. -/
def portsOf (m : Mod) (p : Nat) : List Nat := indices 51 (fun q => (portOf m q).assigned && (portOf m q).part == p)

/-- The engines of a partition at a commit or an abandonment (R364): EPOCH advances, inputs and held blocks go, credits return, stopped jobs
revive. Blocks still on the fabric arrive later and are discarded there (R347). -/
def advanceEpochs (p : Nat) (m : Mod) : Mod :=
  let port (e : Nat) : Bool := (portOf m e).assigned && (portOf m e).part == p
  let mine (e : Nat) (x : Engine) (j : Nat) : Bool := jobOfPart p (port e) x j
  let old (e : Nat) (x : Engine) (l : SMap Nat) : SMap Nat := l.filter (fun y => !mine e x y.1)
  let keep (e : Nat) (x : Engine) (l : List Blk) : List Blk := l.filter (fun b => !mine e x b.job)
  { m with
    engines := mmapVals {} (fun e (x : Engine) =>
      { x with
        ctx := mmapVals {} (fun j (c : RCtx) =>
          let c := if mine e x j then { c with stopped := false } else c
          if c.valid && c.part == p then { c with epoch := (c.epoch + 1) % 256 } else c) x.ctx
        link := keep e x x.link, locl := keep e x x.locl, chain := keep e x x.chain
        linkLast := old e x x.linkLast, localLast := old e x x.localLast, chainLast := old e x x.chainLast
        half := x.half.filter (fun h => !mine e x (mget ({} : Contrib) x.contribs h.1).job)
        linkWords := if port e then [] else x.linkWords
        deliver := x.deliver.filter (fun d => !mine e x d.1) }) m.engines
    ports := (portsOf m p).foldl (fun a q => mmod {} a q (fun (x : Port) => { x with oldDebt := payloadBeats x })) m.ports
    contribs := m.contribs.filter (fun b => b.part != p) }

/-- RE_STATUS (R367). -/
def reStatus (m : Mod) (e : Nat) : W64 :=
  let x := engineOf m e
  let jobs (p : Nat → Bool) : Nat := maskOf (indices 16 p)
  pack [(40, Nat.min (localFill x) 256), (32, Nat.min ((x.chain.map (·.beats)).foldl (· + ·) 0) 128),
    (16, jobs (fun j => !(ctxOf m e j).stopped && (match matchJob x j with
      | .ready .. => true
      | _ => false))),
    (0, jobs (fun j => !(ctxOf m e j).stopped && (match matchJob x j with
      | .waits => true
      | _ => false)))]

end Sys2Proof.Machine
end

