-- ==== Sys2Proof/Machine/ExchangeIn.lean ====
section
/-! DEFINITION. What enters the exchange of a partition: landings, inbound transfers of the ports, deliveries, stalls, the superstep
boundary (08 R214, R220, R221, R226 to R235; 12 R354; 02 R39, R50, R51). -/

namespace Sys2Proof.Machine

/-! ## Inbound transfer entries (R229) -/

/-- DKIND of an entry. -/
def inKind (e : W64 × W64) : Nat := bits e.1.toNat 31 30
/-- DEST of an entry. -/
def inDest (e : W64 × W64) : Nat := bits e.1.toNat 12 0
/-- F of an entry. -/
def inF (e : W64 × W64) : Nat := bits e.2.toNat 19 0
/-- NBEATS of an entry. -/
def inBeats (e : W64 × W64) : Nat := bits e.2.toNat 59 48 + 1
/-- VALID of an entry. -/
def inValid (e : W64 × W64) : Bool := e.2.getLsbD 32

/-- The exchange cycle that a stall holds: F + 1 of the transfer that stalled first (R232). -/
def stallCycle (x : Part) : Nat := x.stallFrom - x.lag - x.e0

/-- The inbound entries of the current phase of a partition that are not wholly forwarded, with their port. -/
def openEntries (m : Mod) (p : Nat) : List (Nat × Nat × (W64 × W64)) :=
  (portsOf m p).flatMap (fun q => (portOf m q).inbound.filterMap (fun y =>
    let e := inboundEntry m q y.1
    if inValid e && inboundIndex e == stepIndex (partOf m p) && decide (mget 0 (portOf m q).forwarded y.1 < inBeats e)
    then some (q, y.1, e) else none))

/-! ## Forwarding (R231 to R233, R354) -/

/-- End the stall of a partition at a source cycle (R232): the tiles count it as CYC_WAIT_SYNC, and their local time goes on. -/
def endStall (p at_ : Nat) (m : Mod) : Mod :=
  let x := partOf m p
  let dur := at_ - x.stallFrom
  let m := modPart p (fun x => { x with
    xphase := .exchange, lag := x.lag + dur, stallHit := false, stallCount := satAdd 20 x.stallCount 1
    stallTotal := satAdd 32 x.stallTotal dur, stallLongest := Nat.max x.stallLongest (Nat.min dur 0xFFF) }) m
  (tilesOfPart m p).foldl (fun m t =>
    modTd t (fun d => if d.st = .running || d.st = .waiting then addCtr 0 dur (addCtr 5 dur d) else d) m) m

/-- A stall ends in the cycle after the last beat of the transfers whose deadline has passed lands, once all are forwarded (R232). -/
def tryEndStall (p : Nat) (m : Mod) : Mod :=
  let x := partOf m p
  if x.xphase ≠ .stall || m.now + 1 < x.stallEnd || (openEntries m p).any (fun y => decide (inF y.2.2 < stallCycle x)) || x.beats.any (·.late) then m
  else endStall p x.stallEnd m

/-- A transfer not wholly forwarded by the end of exchange cycle F stalls the partition at F + 1 (R232). Beats of such a transfer that are
in flight go on moving; `readAt` is then the source cycle in which they arrive. A stall that is over ends. -/
def checkStall (p : Nat) (m : Mod) : Mod :=
  let m := tryEndStall p m
  let x := partOf m p
  if m.power.active || x.xphase ≠ .exchange || x.jstate ≠ .running || x.stepFailed then m
  else
    let missed := (openEntries m p).filter (fun y => decide (x.e0 + inF y.2.2 < partNow m p))
    match missed with
    | [] => m
    | y :: r =>
      let f := r.foldl (fun a z => Nat.min a (inF z.2.2)) (inF y.2.2)
      let at_ := x.e0 + f + 1 + x.lag
      let first := missed.filter (fun z => inF z.2.2 == f)
      let moves (b : Beat) : Bool := first.any (fun z => z.1 == b.port && z.2.1 == b.transfer)
      modPart p (fun x => { x with
        xphase := .stall, stallFrom := at_, stallHit := false
        stallEnd := (x.beats.filter moves).foldl (fun a b => Nat.max a (b.arrive + x.lag + 1)) at_
        beats := x.beats.map (fun b => if moves b then { b with late := true, readAt := b.arrive + x.lag, arrive := Nat.min b.arrive (x.e0 + f + 1) } else b)
        paths := x.paths.map (fun w => if x.beats.any (fun b => moves b && b.id == w.beat) then { w with late := true, enter := w.enter + x.lag } else w)
        lateTransfers := satAdd 32 x.lateTransfers first.length }) m

/-- Forward a beat of transfer n from port q, or from its engine, at a local cycle (R229, R231, R233). -/
def forwardBeat (kind q n tag c : Nat) (ws : List W32) (m : Mod) : Mod :=
  let p := (portOf m q).part
  let x := partOf m p
  let e := inboundEntry m q n
  let k := mget 0 (portOf m q).forwarded n
  let late := x.xphase == .stall
  let m := modPort q (fun y => { y with
    forwarded := mset 0 y.forwarded n (k + 1), late := if late then satAdd 16 y.late 1 else y.late }) m
  let endAfter (c : Nat) (m : Mod) : Mod := if late then modPart p (fun x => { x with stallEnd := Nat.max x.stallEnd (c + 1) }) m else m
  let m := endAfter m.now m
  let go (l : List BeatDst) : Mod :=
    let m := l.foldl (fun m d => endAfter (m.now + travel x.profile kind q (dstUnit d).1 (dstUnit d).2) m) m
    launchBeat p kind q l tag .read c 0 (if late then m.now else c) ws late q n m
  match inKind e with
  | 0 => if 5119 < inDest e then moduleXch p xBadRoute q m else go [.tile (inDest e)]
  | 1 =>
    let g := mget 0 x.groups (inDest e)
    if 1023 < inDest e || !g.getLsbD 31 then moduleXch p xBadRoute q m else go ((groupTiles g).map .tile)
  | 2 => go [.link q n (k == 0) (k + 1 == inBeats e)]
  | _ =>
    let r := inDest e
    if 50 < r || !(portOf m r).assigned || (portOf m r).part ≠ p then moduleXch p xBadRoute q m else go [.port r n]

/-- May a beat of an entry be forwarded now (R231, R232)? -/
def mayForward (m : Mod) (p : Nat) (e : W64 × W64) : Bool :=
  let x := partOf m p
  inboundIndex e == stepIndex x && (match x.xphase with
    | .compute => false
    | .exchange => true
    | .stall => decide (inF e < stallCycle x))

/-- Is a partition in the exchange phase of an entry, at or after its W_START (R231)? -/
def inWindow (m : Mod) (p : Nat) (e : W64 × W64) : Bool :=
  let x := partOf m p
  inboundIndex e == stepIndex x && x.xphase != .compute && decide (x.e0 + inStart e ≤ partNow m p)

/-- A compiled beat enters a port (R226, R229, R231), which forwards one a cycle (R227). Beats of a step that is being abandoned are discarded
(R401 step 2). -/
def inboundBeat (q : PortId) (transfer : BitVec 16) (tag : BitVec 4) (data : List W32) : Mod → Mod :=
  whenClocked (.inboundBeat q transfer tag data) (fun m =>
    let m := checkStall (portOf m q.val).part m
    let y := portOf m q.val
    let p := y.part
    let x := partOf m p
    let e := inboundEntry m q.val transfer.toNat
    let open_ := mayForward m p e && decide (x.e0 + inStart e ≤ partNow m p)
    if !y.assigned then routeDrop q.val m
    else if x.jstate ≠ .running || x.stepFailed then m
    else if !inValid e || decide (inboundIndex e < stepIndex x) then moduleXch p xBadRoute q.val m
    else if open_ && decide (y.forwardFrom ≤ m.now) then
      tryEndStall p (forwardBeat 1 q.val transfer.toNat tag.toNat (partNow m p) data
        (modPort q.val (fun y => { y with forwardFrom := m.now + 1 }) m))
    else if 256 ≤ y.held.length then moduleXch p xEarlyOverflow q.val m
    else modPort q.val (fun y => { y with
      held := y.held ++ [(transfer.toNat, tag.toNat, data)]
      bufPeak := Nat.max y.bufPeak (y.held.length + 1)
      earlyHeld := if inWindow m p e then y.earlyHeld else satAdd 16 y.earlyHeld 1 }) m)

/-- INBOUND_BEAT. -/
def execInboundBeat (q : PortId) (transfer : BitVec 16) (tag : BitVec 4) (data : List W32) (s : State) : Ans :=
  onModIf (beatOk data) (inboundBeat q transfer tag data) s

/-- HELD_BEAT_FORWARD (R231): the held beat that came first of those that may go is forwarded, from W_START on, in a cycle in which the
port forwards no other. -/
def execHeldBeatForward (q : PortId) (s : State) : Ans :=
  onMod (fun m =>
    let m := checkStall (portOf m q.val).part m
    let y := portOf m q.val
    let x := partOf m y.part
    let due (h : Nat × Nat × List W32) : Bool :=
      let e := inboundEntry m q.val h.1
      mayForward m y.part e && decide (x.e0 + inStart e ≤ partNow m y.part)
    if m.power.active || x.jstate ≠ .running || x.stepFailed || m.now < y.forwardFrom then m
    else match findIdx? due y.held with
      | none => m
      | some i =>
        match nth? y.held i with
        | none => m
        | some h =>
          tryEndStall y.part (forwardBeat 1 q.val h.1 h.2.1 (partNow m y.part) h.2.2
            (modPort q.val (fun y => { y with held := dropNth y.held i, forwardFrom := m.now + 1 }) m))) s

/-- DELIVERY (R151, R353 to R355): the first summed block of an engine that may go does, as an FP32 beat, from W_START on, one beat a cycle into
the fabric. -/
def execDelivery (e : PortId) (s : State) : Ans :=
  onMod (fun m =>
    let p := (portOf m e.val).part
    let m := checkStall p m
    let x := partOf m p
    let y := engineOf m e.val
    let due (d : Nat × Nat × Nat × List Int) : Bool :=
      let en := inboundEntry m e.val d.2.1
      mayForward m p en && decide (x.e0 + inStart en ≤ partNow m p)
    if m.power.active || x.jstate ≠ .running || x.stepFailed || m.now < y.deliverFrom then m
    else match findIdx? due y.deliver with
      | none => m
      | some i =>
        match nth? y.deliver i with
        | none => m
        | some (j, n, tag, vals) =>
          let ws := vals.map (fun v => ew16ToF32 v (ctxOf m e.val j).lsb)
          let inf := (ws.filter (fun w => f32Val w == .inf false || f32Val w == .inf true)).length
          let m := modEngine e.val (fun y => { y with
            deliver := dropNth y.deliver i, deliverFrom := m.now + 1, delivered := satAdd 32 y.delivered 1
            outNonfinite := satAdd 32 y.outNonfinite inf }) m
          tryEndStall p (forwardBeat 2 e.val n tag (partNow m p) ws m)) s

/-! ## Landings (R220, R221) -/

/-- A beat lands in the armed receive of its tag, or raises UNARMED (R220, R221); after cycle E − 1 of its own exchange phase it raises
OUT_OF_PHASE, also in the cycles of a later phase (R214, R235). -/
def landBeat (t : Nat) (b : Beat) (m : Mod) : Mod :=
  let c := b.arrive
  if b.till ≤ c then tileXch t c b.tag 5 xOutOfPhase m
  else match (tdOf m t).armed.find? (fun r => r.tag == b.tag && decide (r.since ≤ c)) with
    | none => tileXch t c b.tag 5 xUnarmed m
    | some r =>
      let m := readBeatsNow t c m
      modTd t (fun d => spLands rankXI b.arrive (r.addr + 64 * r.landed) b.data { d with
        beatsIn := (d.beatsIn + 1) % 2 ^ 64
        disarming := d.disarming.filter (fun y => decide (c ≤ y.2)) ++ (if r.landed + 1 = r.beats then [(b.tag, c)] else [])
        recvDone := if r.landed + 1 = r.beats then Nat.max d.recvDone (c + 1) else d.recvDone
        armed := if r.landed + 1 = r.beats then d.armed.filter (fun y => y.tag != b.tag)
          else d.armed.map (fun y => if y.tag = b.tag then { y with landed := y.landed + 1 } else y) }) m

/-- Take a beat that has been read and land it. -/
def landAt (p t id : Nat) (m : Mod) : Mod :=
  let here (y : Beat) : Bool := y.id == id && y.dst == .tile t && y.src == .read
  match (partOf m p).beats.find? here with
  | none => m
  | some b => landBeat t b (modPart p (fun x => { x with beats := x.beats.filter (fun y => !here y) }) m)

/-- BEAT_LANDING (R220, R221, R225, R232): the k-th compiled beat of a partition enters its tile. -/
def execBeatLanding (p : PartId) (k : Nat) (s : State) : Ans :=
  onMod (fun m =>
    match nth? (partOf m p.val).beats k with
    | none => m
    | some b =>
      if m.power.active || (if b.late then decide (m.now < b.readAt) else (partOf m p.val).xphase == .stall) then m
      else
        let m := ensureRead b m
        match b.dst with
        | .tile t => tryEndStall p.val (landAt p.val t b.id m)
        | _ => m) s

/-! ## Beats that come to a port of the module, or to the LINK input of its engine (R226, R231 to R233) -/

/-- Does a beat go to a port or to the LINK input of an engine? -/
def toPort (b : Beat) : Bool :=
  match b.dst with
  | .port _ _ => true
  | .link _ _ _ _ => true
  | _ => false

/-- Is a beat on its way there by now? In a stall only the beats that move are. -/
def atPort (m : Mod) (p : Nat) (b : Beat) : Bool :=
  toPort b && (if b.late then decide (b.readAt ≤ m.now) else (partOf m p).xphase != .stall && decide (b.arrive ≤ partNow m p))

/-- The first beat that is at its port leaves on the link, and one at an engine enters its LINK buffer. -/
def portBeat (p : Nat) (m : Mod) : Mod :=
  match (partOf m p).beats.find? (atPort m p) with
  | none => m
  | some b =>
    let m' := modPart p (fun x => { x with beats := x.beats.filter (fun y => !(y.id == b.id && y.dst == b.dst)) }) m
    match b.dst, b.src with
    | .port q n, .read => sendCompiled q b.tag n b.data m'
    | .link q n first last, .read => linkForward q n first last b.data m'
    | _, _ => ensureRead b m

/-- Every beat that is at its port or engine goes on: those still to be read are read first. -/
def portBeats (p : Nat) (m : Mod) : Mod :=
  (partOf m p).beats.foldl (fun m _ => portBeat p m) ((partOf m p).beats.foldl (fun m _ => portBeat p m) m)

/-! ## Stalls (R232, R50) -/

/-- EXCHANGE_STALL (R232). A beat that comes late finds the stall begun whether or not this row has said so (log entry 40). -/
def execExchangeStall (p : PartId) (s : State) : Ans := onMod (checkStall p.val) s

/-- STALL_LIMIT (R232, R50): a stall of 4 ticks raises the module fault, once. -/
def execStallLimit (p : PartId) (s : State) : Ans :=
  onMod (fun m =>
    let x := partOf m p.val
    if x.xphase ≠ .stall || x.stallHit || m.power.active || m.now - x.stallFrom < 2560 then m
    else moduleXch p.val xStallLimit 0x3F (modPart p.val (fun x => { x with stallHit := true }) m)) s

/-! ## The superstep boundary (R39, R51, R214, R215) -/

/-- Land the beats of a partition that are due by a local cycle, in order of arrival (log entry 40). -/
def landDue (p upto : Nat) : Nat → Mod → Mod
  | 0, m => m
  | f + 1, m =>
    let due := (partOf m p).beats.filterMap (fun b => match b.dst, b.src with
      | .tile t, .read => if b.arrive < upto then some (b.arrive, t, b.id) else none
      | _, _ => none)
    match due with
    | [] => m
    | d :: r => let y := r.foldl (fun a z => if z.1 < a.1 then z else a) d; landDue p upto f (landAt p y.2.1 y.2.2 m)

/-- The exchange phase of the current superstep begins at e0, with the beats of the last one that are still in flight on their routes. With
HALF_RETURN every half has begun its return at z + 1 and is back at 800 MHz, whether or not the rows that show it have come (R212, R464;
log entry 40). -/
def beginPhase (p e0 : Nat) (m : Mod) : Mod :=
  let x := partOf m p
  let m := if !recHalfReturn (curRecord x) then m
    else (maskBits 8 x.halves).foldl (fun m h => endSwitch h (returnHalf h (x.closedAt.getD 0 + x.lag + 1) (endSwitch h m))) m
  let m := modPart p (fun x => { x with
    xphase := .exchange, e0 := e0, xlen := recLen (curRecord x), closedAt := none, stallEnd := 0
    paths := x.paths.filter (fun w => x.beats.any (fun b => b.id == w.beat)) }) m
  let m := (List.range 51).foldl (fun m q =>
    if (portOf m q).assigned && (portOf m q).part = p then modPort q (fun x => { x with forwarded := [] }) m else m) m
  (tilesOfPart m p).foldl (fun m t => releaseAt e0 t m) m

/-- Cycle 2 of a tick in a partition's local time, not before the clocks last restarted (R212, R234). -/
def tickStart (m : Mod) (x : Part) (t : BitVec 48) : Nat := Nat.max (cycleOfTick m t + 2) m.power.restartNow - x.lag

/-- First cycle of a phase whose record is ON_CHIP (R212), not before the commit of its superstep has taken effect (R51). -/
def onChipStart (m : Mod) (x : Part) (z : Nat) : Nat :=
  let e0 := z + (if recHalfReturn (curRecord x) then 90 else 26)
  if x.committed then Nat.max e0 (tickStart m x x.commitTick) else e0

/-- EXCHANGE_PHASE_START (R38, R40, R47, R212): a TICKED phase begins at its own event's tick, in a commit superstep too. -/
def execExchangePhaseStart (p : PartId) (s : State) : Ans :=
  onChip (fun ch m =>
    let x := partOf m p.val
    if m.power.active || x.jstate ≠ .running || x.stepFailed then m
    else if eventLate m p.val then decisionLate p.val m
    else match x.closedAt with
      | none => m
      | some z =>
        if !(curRecord x).getLsbD 32 then m
        else match (nextEvent x).filter (fun e => e.superstep == stepIndex x) with
          | some e =>
            if e.kind = .exchange && tickReached m e.tick then
              dueResets ch (beginPhase p.val (tickStart m x e.tick)
                (eventBegun p.val (modPart p.val (fun x => { x with sched := markDone .exchange e.superstep x.sched }) m)))
            else m
          | none => if recTicked (curRecord x) then m else dueResets ch (beginPhase p.val (onChipStart m x z) m)) s

/-- SUPERSTEP_BOUNDARY (R39, R51, R214, R215): after exchange cycle E − 1, with every watched transfer forwarded, the next superstep begins.
After the boundary of a commit superstep the next step begins, with record 0. -/
def execSuperstepBoundary (p : PartId) (s : State) : Ans :=
  onMod (fun m =>
    let p := p.val
    let x := partOf m p
    if m.power.active || x.xphase ≠ .exchange || x.jstate ≠ .running || x.stepFailed || !(openEntries m p).isEmpty then m
    else
      let at_ := x.e0 + x.xlen
      let m := (tilesOfPart m p).foldl (fun m t => readBeatsNow t at_ m) m
      let m := landDue p at_ ((partOf m p).beats.length) m
      let m := modPart p (fun x =>
        let next := x.superstep + 1
        let x := { x with superstep := next, xphase := .compute, boundary := at_ }
        if x.committed then armStep (nextBase x) { x with stepFirst := next, committed := false, reelDone := [] } else x) m
      let m := if x.committed then holdForCkpt p at_ m else m
      trySync p (holdForClock p at_ m)) s

end Sys2Proof.Machine
end

