-- ==== Sys2Proof/Machine/Recovery.lean ====
section
/-! DEFINITION. Step faults, abandonment, restart, the end of a job, the scrub and the partition reset (14 R395 to R416; 18 R492;
09 R267; 02 R52). -/

namespace Sys2Proof.Machine

/-! ## Fault words (R395) -/

/-- Fault word of a cause found here (table Fault word). -/
def faultWordOf (c : Cause) : W32 := BitVec.ofNat 32 (packN [(16, c.tile % 0x2000), (8, c.detail % 256), (0, c.cause % 256)])
/-- The same with REMOTE set. -/
def remoteWord (w : W32) : W32 := w ||| 0x80000000
/-- A fault word with bit 31 zero, as it travels in FAIL and ABANDON. -/
def wireWord (w : W32) : W32 := w &&& 0x7FFFFFFF
/-- LATE of a fault word. -/
def isLate (w : W32) : Bool := w.getLsbD 30
/-- The fault word of a FAULT decision: SLIP_LIMIT, a module fault (R397). -/
def slipLimitWord : W32 := 0x1FFF000D

/-- Offset of RECOVERY_STATUS of a partition (R418). -/
def recStatus (p : Nat) : Nat := 0x7018 + 0x40 * p

/-- A further cause follows the recorded fault of a partition (R396). -/
def noteMulti (c : Bool) (p : Nat) (m : Mod) : Mod :=
  if c then noteSet (recStatus p) 49 [] (modPart p (fun x => { x with multi := true }) m) else m

/-- Record the first fault of a step (R396). -/
def recordFault (w : W32) (tick : BitVec 48) (phase : Nat) (x : Part) : Part :=
  { x with faultStep := x.stepNum, faultWord := w, faultTick := tick, faultPhase := phase, faultValid := true }

/-! ## FAIL at the system master (R388, R397, R398) -/

/-- A FAIL of a step of a job reaches the system master: the first of a step orders ABANDON at cycle 0 of the next tick; one for a step
whose commit GO has been sent goes to the following step. -/
def masterFail (p : Nat) (seq word : W32) (m : Mod) : Mod :=
  let x := partOf m p
  if x.goSentCommit = some seq then
    modPart p (fun x => { x with lateDue := some (x.lateDue.getD ((word ||| 0x40000000).toNat, m.tick + 1)) }) m
  else if x.failSeen = some seq || x.abandonDue ≠ none then m
  else modPart p (fun x => { x with
    failSeen := some seq, failCause := word.toNat % 256, abandonDue := some (seq, word.toNat, m.tick + 1) }) m

/-- FAIL leaves the module: upstream, or to itself on the system master (R388). -/
def sendFail (p : Nat) (word : W32) (m : Mod) : Mod :=
  let x := partOf m p
  if m.role = roleMaster then masterFail p x.stepNum word m else sendUp symFail x.tag x.stepNum (wireWord word) m

/-- Gondola stops every tile of a partition (R93: no cause). -/
def stopTiles (p : Nat) (m : Mod) : Mod := (tilesOfPart m p).foldl (fun m t => stopTile t true m) m

/-- STEP_FAULT (R396): Gondola takes the oldest cause signalled. The first of a step is recorded, the tiles stop, FAIL leaves; a later one
sets MULTI. A cause with no running step leaves no trace. -/
def execStepFault (p : PartId) (s : State) : Ans :=
  onMod (fun m =>
    let p := p.val
    match (partOf m p).causes with
    | [] => m
    | c :: rest =>
      let x := partOf m p
      let m := modPart p (fun x => { x with causes := rest }) m
      if x.jstate ≠ .running then m
      else if x.rstate ≠ .running then noteMulti true p m
      else
        let w := faultWordOf c
        let m := modPart p (fun x => { recordFault w c.tick c.phase x with rstate := .abandoning, failSentAt := some m.tick }) m
        sendFail p w (stopTiles p (noteSet (recStatus p) 48 [] m))) s

/-! ## Abandonment (R401) -/

/-- The exchange sequencer of a partition stops (R401 step 2): beats in flight and held are discarded, a stall ends, record 0. -/
def stopSequencer (p : Nat) (m : Mod) : Mod :=
  let x := partOf m p
  let m := if x.xphase = .stall then endStall p (Nat.max m.now x.stallFrom) m else m
  let m := modPart p (fun x => { x with
    xphase := .compute, record := 0, beats := [], paths := [], closedAt := none, arrived := [], readySent := false, readyFrom := []
    goFor := none, goNext := none }) m
  (portsOf m p).foldl (fun m q => modPort q (fun y => { y with held := [], forwarded := [] }) m) m

/-- The module drives the Bridle line low, where that is due (R370). -/
def lineNow (m : Mod) : Mod := if m.lineLow then emit (.barrier false) { m with lineLow := false, released := false, lineOn := true } else m

/-- The module drives the Bridle line low again for a repeat, at the next cycle 0 or 480 (R370). -/
def dropLine (m : Mod) : Mod := { m with lineLow := m.released, releasedAt := none, bridleDone := false, releaseDue := false }

/-- A job of the Bridle partition starts: the line is driven low, and no completion of an earlier job counts (R370). -/
def startLine (p : Nat) (m : Mod) : Mod :=
  if !m.bridleEnable || m.bridlePart ≠ p then m
  else
    let m := { m with lineLow := true, releasedAt := none, bridleDone := false, releaseDue := false }
    if m.phase = 0 || m.phase = 480 then lineNow m else m

/-- Steps 1 to 3 of R401, on ABANDON or FAULT for the running step of a partition's job. A fault not raised here is recorded as it
came. After a commit the abandoned step is the following one, which begins at the next superstep. -/
def abandonStep (p : Nat) (seq word : W32) (remote : Bool) (ta : BitVec 48) (m : Mod) : Mod :=
  let x := partOf m p
  if x.jstate ≠ .running || x.stepFailed || x.stepNum ≠ seq then m
  else
    let w := if remote then remoteWord word else word
    let m := if x.rstate = .running then noteSet (recStatus p) 48 [] m else m
    let m := modPart p (fun x =>
      let x := if x.rstate = .running then recordFault w m.tick m.phase x else x
      { x with
        rstate := .abandoning, failSentAt := none, stepFailed := true, ta := ta, retrained := false
        lateFaults := if isLate word then satAdd 16 x.lateFaults 1 else x.lateFaults
        stepFirst := if x.committed then x.superstep + 1 else x.stepFirst
        base := if x.committed then nextBase x else x.base
        slipShift := 0
        committed := false, heldForCkpt := false }) m
    let m := if m.bridleEnable && m.bridlePart = p then dropLine m else m
    abandonShards p (returnHalves p (stopSequencer p (stopTiles p m)))

/-- The tick that began nearest to a cycle before now (R399). -/
def nearestTick (m : Mod) (before : Nat) : BitVec 48 :=
  BitVec.ofInt 48 (((m.tick.toNat : Int) * 640 + m.phase - before + 320) / 640)

/-- The system master sends ABANDON for a step, and abandons it itself (R397). A fault it has not raised itself is another module's. -/
def broadcastAbandon (p : Nat) (seq word : W32) (m : Mod) : Mod :=
  abandonStep p seq word true m.tick (sendDown symAbandon (partOf m p).tag seq (wireWord word) m)

/-- ABANDON_BROADCAST (R397): at cycle 0 of the tick after the first FAIL. -/
def execAbandonBroadcast (p : PartId) (s : State) : Ans :=
  onMod (fun m =>
    match (partOf m p.val).abandonDue with
    | none => m
    | some (seq, word, t) =>
      if m.role ≠ roleMaster || m.power.active || !tickReached m t then m
      else broadcastAbandon p.val seq (BitVec.ofNat 32 word) (modPart p.val (fun x => { x with abandonDue := none }) m)) s

/-- LATE_ABANDON (R398): at cycle 0 of the tick after the commit, or after a FAIL that comes later than that, the following step is
abandoned, with LATE set. -/
def execLateAbandon (p : PartId) (s : State) : Ans :=
  onMod (fun m =>
    let x := partOf m p.val
    match x.lateDue, x.goSentCommit with
    | some (w, due), some seq =>
      if m.role ≠ roleMaster || m.power.active || x.stepNum ≠ seq + 1 || !tickReached m (x.commitTick + 1) || !tickReached m due then m
      else broadcastAbandon p.val x.stepNum (BitVec.ofNat 32 w)
        (modPart p.val (fun x => { x with lateDue := none, goSentCommit := none }) m)
    | _, _ => m) s

/-! ## Channels and barriers after an abandonment (R267) -/

/-- Is a pool entry of a partition: its owner lies in it? -/
def epInPart (m : Mod) (p : Nat) (e : Ep) : Bool := e.kind != .none && partOfTile m e.owner == some p

/-- The rings of a partition: endpoint, tile and region. -/
def ringsOf (m : Mod) (p : Nat) : List (Nat × Nat × Nat) :=
  (m.pool.filter (fun e => epInPart m p e.2 && e.2.kind == .ring)).map (fun e => (e.1, e.2.owner, e.2.region))

/-- Set HEAD and TAIL of a region with its mirror words. -/
def setPointers (g head tail : Nat) (d : TileData) : TileData :=
  let d := modRegion g (fun r => { r with head := head, tail := tail, badSeen := false, waitFrom := none }) d
  let a := (regionOf d g).mirror
  spPut (a + 4) (BitVec.ofNat 32 tail) (spPut a (BitVec.ofNat 32 head) d)

/-- What a commit records for R267: HEAD and TAIL of every ring, GENERATION of every barrier; endpoints that are closed at a commit
stay closed. -/
def recordCommit (p : Nat) (m : Mod) : Mod :=
  let rings := (ringsOf m p).map (fun r =>
    let x := regionOf (tdOf m r.2.1) r.2.2
    (r.2.1, r.2.2, x.head, x.tail))
  let m := modPart p (fun x => { x with savedRings := rings }) m
  { m with
    bars := mmapVals {} (fun _ (b : Bar) => if b.valid && b.part == p then { b with stepGen := b.gen } else b) m.bars
    pool := mmapVals {} (fun _ (e : Ep) =>
      if epInPart m p e && isReceive e && e.state == .closed then { e with declared := false } else e) m.pool }

/-- The channel and barrier state of a partition goes back to the last commit (R267 steps 2 to 6). A broken or retired barrier that is ACTIVE
again keeps its BREAK_CAUSE, of which R267 says nothing (DESIGN CHOICE, log entry 149). -/
def restoreChannels (p : Nat) (m : Mod) : Mod :=
  let x := partOf m p
  let rings := ringsOf m p
  let m := rings.foldl (fun m r =>
    let old := match x.savedRings.find? (fun y => y.1 == r.2.1 && y.2.1 == r.2.2) with
      | some y => y.2.2
      | none => (0, 0)
    modTd r.2.1 (setPointers r.2.2 old.1 old.2) m) m
  let m := (tilesOfPart m p).foldl (fun m t =>
    modTd t (fun d => { d with
      handles := d.handles.filter (fun h => isReceive (epOf m (h.2 - 1))), copens := [], sigs := [] }) m) m
  let pool := mmapVals {} (fun _ (e : Ep) =>
    if !epInPart m p e then e
    else if isSend e then freeEp e
    else if isReceive e then
      { e with state := if e.declared then .opened else e.state, credit := e.quota, opq := [], recs := [], conns := [] }
    else e) m.pool
  let bars := mmapVals {} (fun _ (b : Bar) =>
    if b.valid && b.part == p then
      { b with gen := b.stepGen, arrived := [], waiters := [], pending := [], releasedAt := []
               state := if b.state = .broken || b.state = .retired then .active else b.state }
    else b) m.bars
  { m with pool, bars, flight := m.flight.filter (fun f => f.pkt.jobTag != x.tag) }

/-! ## The rest of the abandonment (R401 steps 4 to 10, R403, R52) -/

/-- Δ of R403: the smallest multiple of 16 that brings a tick to another or beyond. -/
def shiftTo (from_ to_ : BitVec 48) : BitVec 48 :=
  let d := (to_ - from_).toInt
  if d ≤ 0 then 0 else BitVec.ofInt 48 ((d + 15) / 16 * 16)

/-- The offset of the first tick-bound event of a step. -/
def firstOffset (x : Part) : Nat :=
  match x.sched with
  | [] => 0
  | e :: r => r.foldl (fun a y => Nat.min a y.offset) e.offset

/-- The schedule of the repeat (R403): the slips of the abandoned attempt go, and every tick moves by Δ. -/
def moveSchedule (x : Part) : Part :=
  let tr := x.ta + BitVec.ofNat 48 x.restartLead
  let by_ := shiftTo (x.base + BitVec.ofNat 48 (firstOffset x)) tr
  armStep (x.base + by_) { x with restartTick := tr, slips := 0 }

/-- What the tiles, queues and prefetches of a partition have in hand is discarded (R288, R401 step 4). -/
def discardWork (p : Nat) (m : Mod) : Mod :=
  let m := (tilesOfPart m p).foldl (fun m t =>
    modTd t (fun d => { d with
      dmaq := [], queues := mmapVals {} (fun _ (q : Queue) => { q with descs := [], lead := [] }) d.queues }) m) m
  modPart p (fun x => { x with reel := x.reel.map (fun e => { e with active := 0 }), reelWait := [], reelDone := [] }) m

/-- The engines of a partition finish what they have in flight (R401 step 4, R413 step 4; log entry 40). -/
def idleEngines (ch : Chip) (p : Nat) (m : Mod) : Mod :=
  (tilesOfPart m p).foldl (fun m t =>
    if h : t < 5120 then finishStreams ch ⟨t, h⟩ streamFuel (finishM ch ⟨t, h⟩ mFuel m) else m) m

/-- Ports of a partition in FAULT. -/
def faultedPorts (m : Mod) (p : Nat) : List Nat := (portsOf m p).filter (fun q => (portOf m q).state == .fault)

/-- Are the DMA engines of a partition idle? -/
def dmasIdle (p : Nat) (m : Mod) : Bool := (tilesOfPart m p).all (fun t => dmaIdle m (tdOf m t))

/-- Does a reduction engine of a partition have a block left that it can sum? -/
def sumsLeft (p : Nat) (m : Mod) : Bool := (portsOf m p).any (fun e => (List.range 16).any (jobReady m e))

/-- May the end of a partition's job go on to the scrub (R413 step 4): its DMA and reduction engines are idle, and no clock switch keeps its
tiles from completing what they have in hand? -/
def endReady (p : Nat) (m : Mod) : Bool := dmasIdle p m && !sumsLeft p m && halvesFull m p

/-- Windows, endpoints and barriers of a partition close, and its tiles and engines stop (R413 steps 1 to 4). -/
def closePartition (p : Nat) (m : Mod) : Mod :=
  let waits (b : Nat) : Bool := !(barOf m b).waiters.isEmpty
  let bars := (m.bars.filter (fun e => e.2.valid && e.2.part == p)).map (fun e => (e.1, waits e.1))
  let m := stopTiles p m
  let m := (tilesOfPart m p).foldl (fun m t =>
    modTd t (fun d => { d with wins := mmapVals {} (fun _ (w : TileWin) => { w with opened := false }) d.wins }) m) m
  let m := { m with dwins := mmapVals {} (fun _ (w : DWin) => if w.part = p then { w with opened := false } else w) m.dwins }
  let c := partNow m p
  let m := m.pool.foldl (fun m e => if epInPart m p e.2 && isReceive e.2 then closeEndpoint e.1 c m else m) m
  let m := bars.foldl (fun m b => goneFrom b.1 1 c b.2 false m) m
  abandonShards p (returnHalves p (stopSequencer p m))

/-- A COMMAND_DONE event (R425, R428). -/
def commandDone (opcode : Nat) (seq : W32) (p aux : Nat) (m : Mod) : Mod := hostEvent 0x03 p opcode seq.toNat aux m

/-- The last step of the end of a job (R413 step 5): a JOB_END event, and the scrub is ordered, after which the partition takes its last
state; with RETAIN_ON_KILL it is KILLED_RETAINED, and its DMA engines hold nothing more. -/
def orderScrub (p cause : Nat) (last : JobState) (m : Mod) : Mod :=
  let m := hostEvent 0x02 p 0xFFFF cause 0 (modPart p (fun x => { x with ending := none, endCause := cause }) m)
  if (partOf m p).retain then
    (tilesOfPart m p).foldl (fun m t => modTd t (fun d => { d with dmaq := [] }) m)
      (modPart p (fun x => { x with jstate := .killedRetained, rstate := .killedRetained }) m)
  else modPart p (fun x => { x with jstate := .scrubbing, rstate := .scrubbing, endAs := some (last, cause) }) m

/-- End a job (R413; R400, R406 and R331 as a kill does): END_CAUSE, an armed checkpoint ends with NO_JOB; once its engines are idle the scrub
is ordered (log entry 134). A cause that Gondola has not taken is a further one of a step that has failed already (R396). -/
def endJob (ch : Chip) (p cause : Nat) (last : JobState) (m : Mod) : Mod :=
  let x := partOf m p
  if x.ending != none then m
  else
    let m := closePartition p m
    let m := match x.ckpt with
      | some k => commandDone k.opcode k.seq p 0x0011 m
      | none => m
    let m := noteMulti (x.rstate != .running && !x.causes.isEmpty) p m
    let m := modPart p (fun x => { x with
      ckpt := none, heldForCkpt := false, endCause := cause, stepFailed := true, failSentAt := none, abandonDue := none, lateDue := none
      causes := [] }) m
    if endReady p m then orderScrub p cause last (idleEngines ch p m)
    else modPart p (fun x => { x with
      ending := some (last, cause), rstate := if x.jstate = .running then .abandoning else x.rstate }) m

/-- Jobs whose end waits for idle engines go on when they are (R413). -/
def endsDue (ch : Chip) (m : Mod) : Mod :=
  (List.range 8).foldl (fun m p =>
    match (partOf m p).ending with
    | some (last, cause) => if !m.power.active && endReady p m then orderScrub p cause last (idleEngines ch p m) else m
    | none => m) m

/-- A port begins to train (R494): its counts of beats, its replay buffer and its measurement start anew. -/
def trainPort (q : Nat) (m : Mod) : Mod :=
  modPort q (fun x => { x with
    state := .training, streamsUp := 0, echoes := false, delayBad := false, echoMax := 0, echoCount := 0, sendSeq := 0, recvSeq := 0, sent := []
    waiting := [], delayed := [], replay := [], resend := [], oldDebt := 0, replayedSeq := 0, replayCount := 0, asm := [] }) m

/-- After an IMEM_PARITY trap Gondola rewrites the instruction memory from the loaded image (R94): every word has good parity again. -/
def rewriteImem (d : TileData) : TileData :=
  if d.imemTrap then { d with imem := d.image, imemBad := [], imemTrap := false } else d

/-- Steps 4 to 8 of R401: work in hand, reductions, channels and barriers, WGBs and time registers (R52), instruction memories; the ports in
FAULT begin to train. -/
def drainPart (ch : Chip) (p : Nat) (m : Mod) : Mod :=
  let m := restoreChannels p (advanceEpochs p (discardWork p (idleEngines ch p m)))
  let m := (tilesOfPart m p).foldl (fun m t => modTd t (fun d => rewriteImem (wgbEmptyAll d)) m) m
  let m := modPart p (fun x => { x with
    superstep := x.stepFirst, stepAttempt := satAdd 16 x.stepAttempt 1, abandoned := satAdd 32 x.abandoned 1, retrained := true }) m
  (faultedPorts m p).foldl (fun m q => trainPort q m) m

/-- Steps 9 and 10 of R401: the tiles are IDLE, the schedule moves; an abandonment completed after cycle 0 of T_r is late (R404). A cause
that Gondola has not taken is a further one (R396). At ATTEMPT_LIMIT the job ends (R406). -/
def abandonDone (ch : Chip) (p : Nat) (m : Mod) : Mod :=
  let m := (tilesOfPart m p).foldl (fun m t => resetCore t m) m
  let m := noteMulti (!(partOf m p).causes.isEmpty) p m
  let m := modPart p (fun x =>
    let x := moveSchedule { x with lateRaised := false, rstate := .restartWait, causes := [], boundary := 0 }
    { x with doneLate := if tickReached m x.restartTick && !(m.tick == x.restartTick && m.phase == 0) then some m.now else none }) m
  let y := partOf m p
  let m := hostEvent 0x01 p (if bits y.faultWord.toNat 28 16 = 0x1FFF then 0xFFFF else bits y.faultWord.toNat 28 16)
    y.faultWord.toNat y.stepAttempt m
  if y.attemptLimit ≤ y.stepAttempt then endJob ch p 3 .halted m else m

/-- ABANDON_DRAIN_COMPLETE (R401 steps 4 to 10): a DMA engine that waits for answers holds it, and a half whose clock is being switched, for
what its tiles have in hand completes first (R537); then so does a port that is being retrained. One whose delay no longer fits the job
leaves the abandonment where it is: the job resumes only through a checkpoint and a new LOAD (R496). -/
def execAbandonDrainComplete (p : PartId) (s : State) : Ans :=
  onChip (fun ch m =>
    let p := p.val
    let x := partOf m p
    if m.power.active || !x.stepFailed || x.jstate ≠ .running || x.rstate ≠ .abandoning || x.ending != none then m
    else if !x.retrained && (!dmasIdle p m || !halvesFull m p) then m
    else
      let m := if x.retrained then m else drainPart ch p m
      if (portsOf m p).any (fun q => (portOf m q).state == .training || (portOf m q).delayBad) then m else abandonDone ch p m) s

/-- ABANDON_LOST (R400): no ABANDON or FAULT within RESTART_LEAD ticks of FAIL. -/
def execAbandonLost (p : PartId) (s : State) : Ans :=
  onChip (fun ch m =>
    let x := partOf m p.val
    match x.failSentAt with
    | none => m
    | some t =>
      if m.power.active || x.jstate ≠ .running || x.stepFailed || !tickReached m (t + BitVec.ofNat 48 x.restartLead) then m
      else endJob ch p.val 4 .halted (noteSet (recStatus p.val) 52 [] (modPart p.val (fun x => { x with abandonLost := true }) m))) s

/-! ## Restart (R403, R404) -/

/-- Gondola starts every tile of a partition at a cycle; the step begins at its first superstep. -/
def startTiles (p c : Nat) (m : Mod) : Mod :=
  let at_ := c - (partOf m p).lag
  let m := (tilesOfPart m p).foldl (fun m t => goTile t m) m
  holdForClock p at_ (holdForCkpt p at_ (modPart p (fun x => { x with boundary := at_, xphase := .compute, rstate := .running, stepFailed := false }) m))

/-- RESTART (R403, R404): at cycle 0 of T_r, or when the abandonment was completed, which counts as late; so does a T_r that passed in an
emergency stop (R49). Causes that Gondola has not taken are further ones of the failed step (R396). -/
def execRestart (p : PartId) (s : State) : Ans :=
  onMod (fun m =>
    let x := partOf m p.val
    if m.power.active || x.jstate ≠ .running || x.rstate ≠ .restartWait || !tickReached m x.restartTick then m
    else
      let t0 := Nat.max (cycleOfTick m x.restartTick) m.power.restartNow
      let late := x.doneLate != none || stoodAt m x.restartTick
      startTiles p.val (Nat.max t0 (x.doneLate.getD 0)) (modPart p.val (fun x => { x with
        lateEvents := if late then satAdd 32 x.lateEvents 1 else x.lateEvents, doneLate := none
        failSeen := none, abandonDue := none, causes := [] }) (noteMulti (!x.causes.isEmpty) p.val m))) s

/-! ## Scrub and partition reset (R414, R482, R492) -/

/-- A tile after the scrub and the partition reset: all zero and at its reset value but counters and first-event records. -/
def scrubTile (d : TileData) : TileData :=
  let z : TileData := {}
  { z with
    nextIssue := d.nextIssue, ctr := d.ctr
    nfResults := d.nfResults, nfInvalid := d.nfInvalid, nfOverflow := d.nfOverflow, nfDivzero := d.nfDivzero, nfFirst := d.nfFirst
    cv := d.cv, maNonfinite := d.maNonfinite, maCellOps := d.maCellOps, maGatedOps := d.maGatedOps, spParity := d.spParity
    regions := mmapVals {} (fun _ (r : Region) => { badPtr := r.badPtr, badEvent := r.badEvent, fullWait := r.fullWait }) d.regions
    denied := d.denied, beatsOut := d.beatsOut, beatsIn := d.beatsIn, xchFaults := d.xchFaults, dropped := d.dropped
    sendTimeouts := d.sendTimeouts, recvTimeouts := d.recvTimeouts
    queues := mmapVals {} (fun _ (q : Queue) => { issued := q.issued }) d.queues
    bytesIn := d.bytesIn, bytesOut := d.bytesOut, streamFault := d.streamFault
    wgbEvents := d.wgbEvents, wgbVanish := d.wgbVanish, wgbNonfinite := d.wgbNonfinite
    quantConv := d.quantConv, quantVan := d.quantVan, quantFault := d.quantFault }

/-- The registers and records of a partition after its reset (R492): counters and first-event records stay, and what JOB_STATUS shows
of the job that has ended. -/
def resetPart (x : Part) : Part :=
  let z : Part := {}
  { z with
    halves := x.halves, exchFault := x.exchFault, exchFaults := x.exchFaults, lateTransfers := x.lateTransfers
    stallTotal := x.stallTotal, stallLongest := x.stallLongest, stallCount := x.stallCount
    quotaB := x.quotaB, quotaC := x.quotaC, reelDelivered := x.reelDelivered
    commitIncomplete := x.commitIncomplete, genMismatches := x.genMismatches, genFirstShard := x.genFirstShard, genValid := x.genValid
    faultStep := x.faultStep, faultWord := x.faultWord, faultTick := x.faultTick, faultPhase := x.faultPhase
    lastFault := if x.faultValid then x.faultWord else x.lastFault
    abandoned := x.abandoned, lateFaults := x.lateFaults, scrubs := x.scrubs, lossValue := x.lossValue, lossStep := x.lossStep
    jstate := x.jstate, rstate := x.rstate, endCause := x.endCause, profile := x.profile, owner := x.owner, tag := x.tag, hash := x.hash
    objects := x.objects, sums := x.sums, saturated := x.saturated, passes := x.passes, passTick := x.passTick, lag := x.lag }

/-- The partition reset: tiles, tables, engines and registers of one partition (R414, R492). -/
def resetPartition (p : Nat) (m : Mod) : Mod :=
  let x := partOf m p
  let ports := portsOf m p
  let m := advanceEpochs p (stopSequencer p m)
  let m := (tilesOfPart m p).foldl (fun m t => modTile t (fun y => { d := scrubTile y.d, bundle := none }) m) m
  let m := ports.foldl (fun m q => modPort q (fun y => { y with inbound := [], held := [], forwarded := [] }) m) m
  let pool := mmapVals {} (fun _ (e : Ep) => if epInPart m p e then freeEp e else e) m.pool
  let bars := mmapVals {} (fun _ (b : Bar) =>
    if b.valid && b.part == p then { releases := b.releases, breaks := b.breaks, refused := b.refused } else b) m.bars
  let mine (e : Nat) (y : Engine) (j : Nat) : Bool := jobOfPart p (ports.contains e) y j
  let engines := mmapVals {} (fun e (y : Engine) =>
    { y with
      routes := y.routes.filter (fun r => !mine e y r.2.job)
      contribs := y.contribs.filter (fun r => !mine e y r.2.job)
      ctx := mmapVals {} (fun j (c : RCtx) => if mine e y j then { blocks := c.blocks, widen := c.widen, stale := c.stale } else c) y.ctx }) m.engines
  let own := (m.bars.filter (fun e => e.2.valid && e.2.part == p)).map (·.1)
  let m := { m with
    pool, bars, engines
    cgroups := m.cgroups.filter (fun e => !x.ownGroups.contains (e.1 / 16))
    fwd := m.fwd.filter (fun e => !x.ownFwd.contains e.1)
    dwins := m.dwins.filter (fun e => e.2.part != p || e.2 == ({} : DWin))
    shards := m.shards.filter (fun e => !(e.2.valid && e.2.part == p))
    flight := m.flight.filter (fun f => f.pkt.jobTag != x.tag) }
  modPart p (fun y => { resetPart y with ownBars := own ++ x.ownBars.filter (fun k => !own.contains k) }) m

/-- The scrub of a partition (R414): its engines idle, then everything is zero; SCRUBS increments. -/
def scrubNow (ch : Chip) (p : Nat) (m : Mod) : Mod :=
  let m := resetPartition p (idleEngines ch p m)
  modPart p (fun x => { x with scrubs := satAdd 16 x.scrubs 1 }) m

/-- SCRUB_COMPLETE (R413, R414, R416): an emergency stop pauses the scrub, which begins when the engines are idle. A partition that stays HALTED keeps its RECOVERY_STATUS (R400). -/
def execScrubComplete (p : PartId) (s : State) : Ans :=
  onChip (fun ch m =>
    let m := endsDue ch m
    let x := partOf m p.val
    if m.power.active || x.rstate ≠ .scrubbing then m
    else
      let last := (x.endAs.getD (.none, x.endCause)).1
      modPart p.val (fun y => { y with
        jstate := last, rstate := if last = .halted then .halted else .idle, endAs := none
        abandonLost := last == .halted && x.abandonLost, restoreRequired := last == .halted && x.restoreRequired
        multi := last == .halted && x.multi, faultValid := last == .halted && x.faultValid }) (scrubNow ch p.val m)) s

end Sys2Proof.Machine
end

