-- ==== Sys2Proof/Machine/Links.lean ====
section
/-! DEFINITION. Links: beats and their FEC, packets put together, acknowledgement and replay, port faults (13 R374 to R381). -/

namespace Sys2Proof.Machine

/-- CLASS, SEQ, FIRST, LAST, TAG, TRANSFER of a link beat header (R375). -/
def hdrClass (h : W64) : Nat := bits h.toNat 63 61
/-- SEQ. -/
def hdrSeq (h : W64) : Nat := bits h.toNat 60 45

/-- The peer's port of a Spar port (R369). -/
def sparPeer (q : Nat) : Nat := if q = 48 then 49 else if q = 49 then 48 else 50

/-- A port enters FAULT (R380): it stops sending, Gondola hears of it, and the running step of its partition faults. -/
def faultPort (q : Nat) (m : Mod) : Mod :=
  let m := modPort q (fun p => { p with state := .fault, faults := satAdd 16 p.faults 1, asm := [], resend := [] }) m
  let part := if (portOf m q).assigned then (portOf m q).part else 0xFF
  let m := hostEvent 0x07 part q 1 0 m
  if (portOf m q).assigned then signalModule (portOf m q).part 0x07 q m else m

/-- A DMA packet from its header body and payload (table DMA packet header). -/
def dmaOfWords (hdr payload : List W32) : DmaPkt :=
  let b := wordsBytes hdr
  let f (o n : Nat) : Nat := leNat ((b.drop o).take n)
  let len := f 16 4
  let op := f 20 1
  { destModule := BitVec.ofNat 16 (f 0 2), srcModule := BitVec.ofNat 16 (f 2 2), srcTile := BitVec.ofNat 16 (f 4 2)
    jobTag := BitVec.ofNat 16 (f 6 2), addr := BitVec.ofNat 48 (f 8 6), length := BitVec.ofNat 32 len, signal := BitVec.ofNat 8 (f 21 1)
    mode := BitVec.ofNat 8 (f 22 1), hops := BitVec.ofNat 8 (f 23 1)
    payload := if op = opPut || op = opGetData then payload.take (len / 4) else [], crcOk := true }

/-- Give a DMA packet to the handler of its OP; one whose payload is not what its header says has no effect. The header does not say
whether a packet of 4,096 bytes is the last of its descriptor: a free value (log entry 130); a shorter one is (R381). -/
def takeDma (q : PortId) (hdr payload : List W32) (m : Mod) : Mod :=
  let k := dmaOfWords hdr payload
  let op := bits (nth 0 hdr 5).toNat 7 0
  if !dmaPktOk (op == opPut || op == opGetData) k then m
  else if op = opPut then
    if k.mode = 0 || k.length.toNat < 4096 then putData q k m
    else let f := takeFree m; putData q { k with last := Config.unstated f.1 % 2 == 1 } f.2
  else if op = opGet then getRequest q k m
  else if op = opGetData then getData q k m
  else if op = opAck then dmaAck q k m
  else if op = opDeny then denied q k m
  else m

/-- A whole packet: its CRC-32C covers the payload beats (R377); one that fails is replayed from its first beat (R379). -/
def takePacket (q : PortId) (cls first : Nat) (beats : List (List W32)) (m : Mod) : Mod :=
  match beats with
  | [] => m
  | hdr :: rest =>
    let payload := rest.dropLast.flatten
    let crc := nth 0 (rest.getLastD []) 0
    if BitVec.ofNat 32 (crc32c (wordsBytes payload)) ≠ crc then crcFail q.val first m
    else if cls = clsReduction then
      let w := (nth 0 hdr 0).toNat
      reductionPacket q (BitVec.ofNat 16 (bits w 15 0)) (BitVec.ofNat 8 (bits w 23 16)) payload m
    else takeDma q hdr payload m

/-- A beat of a reduction or DMA packet: the packets of the two classes may interleave (R376). -/
def takePacketBeat (q : PortId) (cls seq : Nat) (first last : Bool) (body : List W32) (m : Mod) : Mod :=
  let old := mget [] (portOf m q.val).asm cls
  let now : List (Nat × List W32) := if first then [(seq, body)] else if old.isEmpty then [] else old ++ [(seq, body)]
  match last, now with
  | true, b :: r =>
    takePacket q cls b.1 ((b :: r).map (·.2)) (modPort q.val (fun p => { p with asm := mset [] p.asm cls [] }) m)
  | _, _ => modPort q.val (fun p => { p with asm := mset [] p.asm cls now }) m

/-- A beat comes out of the decoder (R375, R378, R379): one that could not be decoded is asked for again; one out of sequence follows a beat
that has been, and is discarded. The bits of a channel packet are not stated, so its beats only take their SEQ, and the packet comes as its
own row (log entry 31). -/
def takeBeat (q : PortId) (failed : Bool) (hdr : W64) (body : List W32) (m : Mod) : Mod :=
  let p := portOf m q.val
  if p.state ≠ .up then m
  else if failed then sendNak q.val p.recvSeq m
  else if hdrSeq hdr ≠ p.recvSeq then m
  else
    let m := modPort q.val (fun p => { p with recvSeq := (p.recvSeq + 1) % 65536 }) m
    let cls := hdrClass hdr
    if cls = clsCompiled then
      inboundBeat q (BitVec.ofNat 16 (bits hdr.toNat 15 0)) (BitVec.ofNat 4 (bits hdr.toNat 19 16)) body m
    else if cls = clsReduction || cls = clsDma then
      takePacketBeat q cls (hdrSeq hdr) (hdr.getLsbD 44) (hdr.getLsbD 43) body m
    else m

/-- Re-decode delay of a port (table Link figures). -/
def redecodeDelay (q : Nat) : Nat := if q < 48 then 64 else 24

/-- The cycle in which a beat that arrives now is taken (R378): a second decode delays it and every later beat; the port makes the delay up in
cycles in which no beat arrives. -/
def beatDueAt (q : Nat) (again : Bool) (m : Mod) : Nat :=
  let p := portOf m q
  let c := srcNow m
  (if c = p.beatAt then p.beatDue else Nat.max c (p.beatDue + 1)) + (if again then redecodeDelay q else 0)

/-- LINK_BEAT (R374, R375, R378, R379): codewords corrected at once and decoded again are counted; beats keep their order. -/
def execLinkBeat (q : PortId) (fec : FecResult) (hdr : W64) (body : List W32) (s : State) : Ans :=
  onModIf (beatOk body) (fun m =>
    if (portOf m q.val).state ≠ .up then m
    else
      let again := fec == .redecoded || fec == .failed
      let due := beatDueAt q.val again m
      let m := modPort q.val (fun p => { p with
        corrected := if fec = .corrected then satAdd 32 p.corrected 1 else p.corrected
        redecodes := if again then satAdd 16 p.redecodes 1 else p.redecodes, beatAt := srcNow m, beatDue := due }) m
      if due ≤ srcNow m then takeBeat q (fec == .failed) hdr body m
      else modPort q.val (fun p => { p with delayed := p.delayed ++ [(due, fec == .failed, ⟨hdr, body⟩)] }) m) s

/-- The beats of a port whose delay is over are taken in their order (R378). -/
def takeDelayed (q : PortId) : Nat → Mod → Mod
  | 0, m => m
  | f + 1, m =>
    match (portOf m q.val).delayed with
    | [] => m
    | x :: r =>
      if srcNow m < x.1 then m
      else takeDelayed q f (takeBeat q x.2.1 x.2.2.hdr x.2.2.body (modPort q.val (fun p => { p with delayed := r }) m))

/-- LINK_ACK_TIMER (R379): the receiver acknowledges the last beat it has. -/
def execLinkAckTimer (q : PortId) (s : State) : Ans :=
  onMod (fun m => sendSym q.val symAck 0 (BitVec.ofNat 32 (((portOf m q.val).recvSeq + 65535) % 65536)) 0 m) s

/-- Beats of a replay buffer after the one with a SEQ. -/
def afterSeq (seq : Nat) : List LinkBeat → Option (List LinkBeat)
  | [] => none
  | b :: r => if hdrSeq b.hdr = seq then some r else afterSeq seq r

/-- Beats of a replay buffer from the one with a SEQ on. -/
def fromSeq (seq : Nat) : List LinkBeat → List LinkBeat
  | [] => []
  | b :: r => if hdrSeq b.hdr = seq then b :: r else fromSeq seq r

/-- ACK (R379): the sender frees what is acknowledged. -/
def execAck (q : PortId) (seq : BitVec 16) (s : State) : Ans :=
  onMod (fun m => modPort q.val (fun p =>
    match afterSeq seq.toNat p.replay with
    | some r => { p with oldDebt := p.oldDebt - ((p.replay.filter payloadBeat).length - (r.filter payloadBeat).length), replay := r, resend := p.resend.filter r.contains, replayCount := if p.replay.any (fun b => hdrSeq b.hdr == p.replayedSeq) &&
                                                        !r.any (fun b => hdrSeq b.hdr == p.replayedSeq) then 0 else p.replayCount }
    | none => p) m) s

/-- NAK (R379, R380): the sender resends from the SEQ named, as fast as the limit of the link lets (R227); a fourth request for the same beat
puts the port in FAULT. No beat leaves in an emergency stop (R23). -/
def nakAt (q : PortId) (seq : BitVec 16) : Mod → Mod :=
  whenClocked (.nak q seq) (fun m =>
    let p := portOf m q.val
    let again := fromSeq seq.toNat p.replay
    if p.state ≠ .up || again.isEmpty then m
    else
      let n := if p.replayedSeq = seq.toNat then p.replayCount + 1 else 1
      if 3 < n then faultPort q.val m
      else serveLink true q.val 32 (modPort q.val (fun p => { p with
        replays := satAdd 8 p.replays 1, replayedSeq := seq.toNat, replayCount := n, resend := again }) m))

/-- NAK. -/
def execNak (q : PortId) (seq : BitVec 16) (s : State) : Ans := onMod (nakAt q seq) s

/-! ## What has waited for the fabric (R232, R234, R477) -/

/-- What reached a port while the fabric stood still is given to its handler. -/
def deliverHeld (i : Instr) : Mod → Mod :=
  match i with
  | .putData q k => putData q k
  | .getRequest q k => getRequest q k
  | .getData q k => getData q k
  | .dmaAck q k => dmaAck q k
  | .deny q k => denied q k
  | .inboundBeat q n t d => inboundBeat q n t d
  | .reductionPacket q t e d => reductionPacket q t e d
  | .nak q n => nakAt q n
  | .openRequest k => withPacket k [.openReq] openRequest
  | .copenReply k => withPacket k [.openReply] copenReply
  | .closeNotice k => withPacket k [.closeNotice] closeNotice
  | .closeAck k => withPacket k [.close, .closeAck] closeAck
  | .creditReturn k => withPacket k [.credit] creditReturn
  | .dropNotice k => withPacket k [.drop] dropNotice
  | .opqLanding k => withPacket k [.opq] opqLanding
  | .ringRecordLanding k => withPacket k [.ring] ringLanding
  | _ => id

/-- Everything that has waited is given to its handler, in the order in which it came; what the fabric still holds waits on. -/
def deliverAll (m : Mod) : Mod := m.stopped.foldl (fun m i => deliverHeld i m) { m with stopped := [] }

/-! ## A cycle of the links -/

/-- Is there anything that the links have to do by themselves? -/
def linksBusy (m : Mod) : Bool :=
  !m.power.active && (!m.stopped.isEmpty ||
    m.ports.any (fun x => !x.2.waiting.isEmpty || !x.2.resend.isEmpty || !x.2.delayed.isEmpty || remoteReady x.2) ||
    m.parts.any (fun x => x.2.beats.any toPort))

/-- Does an exchange run or stall on this module? -/
def exchanging (m : Mod) : Bool := m.parts.any (fun x => x.2.xphase != .compute)

/-- Stalls begin and end at the present cycle (R232). -/
def checkStalls (m : Mod) : Mod := if exchanging m then (List.range 8).foldl (fun m p => checkStall p m) m else m

/-- What the links do in the present cycle: what the fabric held moves, answers to remote accesses among it, compiled beats leave ahead of
what waits (R227), beats whose delay is over are taken (R378). -/
def linkCycle (m : Mod) : Mod :=
  if !linksBusy m then m
  else
    let m := (List.range 8).foldl (fun m p => portBeats p m) (deliverAll m)
    let m := m.ports.foldl (fun m x => if remoteReady x.2 then answerRemotes x.1 m else m) m
    let m := m.ports.foldl (fun m x => if x.2.waiting.isEmpty && x.2.resend.isEmpty then m else serveLink false x.1 32 m) m
    m.ports.foldl (fun m x => if h : x.1 < 51 then takeDelayed ⟨x.1, h⟩ x.2.delayed.length m else m) m

end Sys2Proof.Machine
end

