-- ==== Sys2Proof/Machine/Mailbox.lean ====
section
/-! DEFINITION. The command mailbox of Gondola: acceptance, responses, classes, stored responses (15 R419 to R430). -/

namespace Sys2Proof.Machine

/-! ## Status codes (R430) -/

/-- OK. -/
abbrev stOk : Nat := 0x0000
/-- BUSY. -/
abbrev stBusy : Nat := 0x0001
/-- BAD_COMMAND. -/
abbrev stBadCommand : Nat := 0x0002
/-- BAD_ARGUMENT. -/
abbrev stBadArgument : Nat := 0x0003
/-- ABORTED. -/
abbrev stAborted : Nat := 0x0004
/-- HALT_ASSERTED. -/
abbrev stHalt : Nat := 0x0005
/-- IN_PROGRESS. -/
abbrev stInProgress : Nat := 0x0006
/-- JOB_RUNNING. -/
abbrev stJobRunning : Nat := 0x0010
/-- NO_JOB. -/
abbrev stNoJob : Nat := 0x0011
/-- PARTITION_STATE. -/
abbrev stPartState : Nat := 0x0012
/-- TILE_BUSY. -/
abbrev stTileBusy : Nat := 0x0013
/-- NOT_OWNER. -/
abbrev stNotOwner : Nat := 0x0014
/-- UNMAPPED_ADDRESS. -/
abbrev stUnmapped : Nat := 0x0020
/-- PARITY. -/
abbrev stParity : Nat := 0x0021
/-- UNCORRECTABLE. -/
abbrev stUncorrectable : Nat := 0x0022
/-- NOT_FREE. -/
abbrev stNotFree : Nat := 0x0030
/-- QUOTA. -/
abbrev stQuota : Nat := 0x0031
/-- NO_FRAME. -/
abbrev stNoFrame : Nat := 0x0032
/-- NOT_OWNED. -/
abbrev stNotOwned : Nat := 0x0033
/-- TICK_PAST. -/
abbrev stTickPast : Nat := 0x0040
/-- TICK_FAR. -/
abbrev stTickFar : Nat := 0x0041
/-- ROLE_CONFLICT. -/
abbrev stRoleConflict : Nat := 0x0042
/-- LIMIT. -/
abbrev stLimit : Nat := 0x0043
/-- LINK_DOWN. -/
abbrev stLinkDown : Nat := 0x0044
/-- PROFILE. -/
abbrev stProfile : Nat := 0x0050
/-- LOF_INVALID. -/
abbrev stLof : Nat := 0x0051
/-- CKPT_MISMATCH. -/
abbrev stCkpt : Nat := 0x0052
/-- REMOTE. -/
abbrev stRemote : Nat := 0x0053
/-- POLICY_CONFLICT. -/
abbrev stPolicy : Nat := 0x0060
/-- DENIED. -/
abbrev stDenied : Nat := 0x0070

/-- What a command that runs answers: its status, the result words that are not zero, result data, the module after it, what an abort
has to put back. -/
structure Answer where
  status : Nat
  w : List W32 := []
  data : List Byte := []
  m : Mod
  undo : Undo := .none
  /-- the answer waits for the end of an emergency stop (R428, R479) -/
  hold : Bool := false
  /-- the most 32-bit words that a command of class D or L reads or writes before it can be stopped (R427) -/
  most : Nat := 0
  /-- what a command of class B still does once it has answered (R428) -/
  after : Mod → Mod := id

/-- A command refused with a status changes nothing (R430). -/
def refuse (status : Nat) (m : Mod) : Answer := { status, m }
/-- A command that is done, with nothing to return. -/
def done (m : Mod) : Answer := { status := stOk, m }

/-- The result block: 16 words. -/
def resultBlock (w : List W32) : List W32 := w ++ List.replicate (16 - w.length) 0

/-- Something leaves on Kiteline, if the link is up. -/
def emitKite (o : Out) (m : Mod) : Mod := if m.box.kiteUp then emit o m else m

/-- A warm reset that is ordered counts its 100 µs from the RESPONSE to its WARM write (R483). -/
def warmAnswered (m : Mod) : Mod :=
  { m with box := { m.box with warmFrom := if m.warmPending && m.box.warmFrom.isNone then some (srcNow m) else m.box.warmFrom } }

/-- Hand over a RESPONSE: it is stored, and the mailbox is IDLE (R421, R424). -/
def respond (r : Resp) (m : Mod) : Mod :=
  emitKite (.response r) (warmAnswered { m with box := { m.box with
    st := .idle, opcode := r.opcode, seq := r.seq, lastStatus := r.status, progress := 0, stored := some r, running := none, quote := none } })

/-- Is a kill under way: one that an emergency stop holds (R479), or one that waits for idle engines (R413, R440)? -/
def killWaits (m : Mod) : Bool := !m.power.heldKills.isEmpty || m.parts.any (fun x => x.2.ending != none)

/-- Does the answer of the running command wait: a kill under way, or a quote for its sample (R459)? Both are of class S. -/
def answerWaits (r : Resp) (m : Mod) : Bool := (r.opcode == 0x0303 && killWaits m) || m.box.quote.isSome

/-- The running command answers, unless its answer waits. -/
def finishCommand (m : Mod) : Mod :=
  match m.box.running with
  | some (r, _) => if answerWaits r m then m else respond r m
  | none => m

/-- Does the boot-ROM recovery loader run (R456)? It runs in place of an accepted image, so PHASE stays GONDOLA. -/
def inRecovery (m : Mod) : Bool := m.bringup == .gondola && m.atgen.bootResult != 0

/-- Is Gondola serving commands (R456, R487, R491)? -/
def served (m : Mod) : Bool := m.bringup == .ready || m.bringup == .stackFail || inRecovery m

/-- Word i of the argument block. -/
def arg (f : Frame) (i : Nat) : Nat := (nth 0 f.w i).toNat
/-- A 48-bit value in words i and i + 1 (R420). -/
def arg48 (f : Frame) (i : Nat) : Nat := arg f i + 2 ^ 32 * bits (arg f (i + 1)) 15 0
/-- The partition of a command (R431). -/
def argPart (f : Frame) : Nat := bits (arg f 0) 2 0

/-- What the recovery loader answers (R456): IDENTIFY, CERT_READ, REG_READ of the Atgen registers, and FW_INSTALL unless the boot failed
at the key store or the identity. -/
def recoveryTakes (f : Frame) (opcode : Nat) (m : Mod) : Bool :=
  opcode == 0x0001 || opcode == 0x0602 || (opcode == 0x0603 && m.atgen.bootResult != 1 && m.atgen.bootResult != 2) ||
    (opcode == 0x0401 && decide (0xF0000000E100 ≤ arg48 f 1) && decide (arg48 f 1 + 8 * arg f 3 ≤ 0xF0000000E168))

/-- The status with which Gondola turns away a command before it looks at its arguments: LENGTH too short for the argument block (R430
BAD_COMMAND), or not served in the present phase of bring-up (R456, R491). -/
def phaseRefusal (f : Frame) (opcode : Nat) (m : Mod) : Option Nat :=
  if f.w.length ≠ 16 then some stBadCommand
  else if inRecovery m && !recoveryTakes f opcode m then some stBadCommand
  else if m.bringup == .stackFail && decide (0x0101 ≤ opcode) && decide (opcode ≤ 0x0307) then some stPartState
  else none

/-- LENGTH of a COMMAND frame (R419). -/
def frameLength (f : Frame) : Nat := 4 * f.w.length + f.data.length

/-- Does the receiver discard a frame (R419)? -/
def discarded (f : Frame) : Bool := !f.crcOk || decide (1048640 < frameLength f) || typeReserved f.ftype

/-- Count a discarded frame. -/
def countDrop (m : Mod) : Mod := { m with box := { m.box with crcDrops := satAdd 16 m.box.crcDrops 1 } }

/-- Does Gondola run (R487: from phase GONDOLA on)? -/
def gondolaRuns (m : Mod) : Bool := m.bringup != .rails && m.bringup != .atgen

/-! ## Frames as bytes (R419) -/

/-- A frame of Kiteline: TYPE, OPCODE, SEQ, STATUS, LENGTH, payload, CRC-32C. -/
def kiteFrame (ftype opcode : Nat) (seq : W32) (status : Nat) (payload : List Byte) : List Byte :=
  let b := [BitVec.ofNat 8 ftype, 0] ++ leBytes 2 opcode ++ leBytes 4 seq.toNat ++ leBytes 2 status ++ [0, 0] ++ leBytes 4 payload.length ++ payload
  b ++ leBytes 4 (crc32c b)

/-- An event record (table Event record). -/
def eventBytes (e : Event) : List Byte :=
  [BitVec.ofNat 8 e.cls, BitVec.ofNat 8 e.part] ++ leBytes 2 e.source ++ leBytes 4 e.detail ++ leBytes 6 e.tick.toNat ++ leBytes 2 e.aux

/-- The bytes of the frames that the module sends (table Frame types); nothing else leaves on Kiteline. -/
def outFrame : Out → List Byte
  | .response r => kiteFrame 2 r.opcode r.seq r.status (wordsBytes r.w ++ r.data)
  | .status w0 w1 => kiteFrame 4 0 0 0 (leBytes 8 w0.toNat ++ leBytes 8 w1.toNat)
  | .busy seq opcode => kiteFrame 5 opcode seq stBusy []
  | .event e => kiteFrame 6 0 0 0 (eventBytes e)
  | _ => []

/-- What the receiver reads of the bytes of a frame that is not a STATUS_READ: its opcode and the frame of that opcode's row. -/
def readFrame (b : List Byte) : Nat × Frame :=
  let n := leNat ((b.drop 12).take 4)
  let pay := (b.drop 16).take n
  let o := leNat ((b.drop 2).take 2)
  (o, { seq := BitVec.ofNat 32 (leNat ((b.drop 4).take 4)), crcOk := leNat ((b.drop (16 + n)).take 4) == crc32c (b.take (16 + n))
        w := (bytesWords pay).take 16, data := pay.drop 64, ftype := nth 0 b 0
        opcode := if listedOpcodes.contains o then none else some (BitVec.ofNat 16 o) })

/-- A COMMAND frame (R419, R421, R422, R424, R428, R491): `long` says that the command is of class D or L, whose response follows later. An
unlisted opcode gives BAD_COMMAND (R431). -/
def command (f : Frame) (opcode : Nat) (long : Bool) (run : Mod → Answer) (m : Mod) : Mod :=
  let opcode := (f.opcode.map (·.toNat)).getD opcode
  if !m.box.kiteUp || !gondolaRuns m then m
  else if discarded f then countDrop m
  else if !served m then m
  else if m.box.halt then emit (.response { opcode, seq := f.seq, status := stHalt, w := resultBlock [], data := [] }) m
  else if m.box.st ≠ .idle then
    emit (.busy f.seq opcode) { m with box := { m.box with busyRefusals := satAdd 16 m.box.busyRefusals 1 } }
  else match m.box.stored.filter (fun r => r.seq == f.seq && r.opcode == opcode) with
    | some r => emit (.response r) { m with box := { m.box with duplicates := satAdd 8 m.box.duplicates 1 } }
    | none =>
      let m := { m with box := { m.box with st := .running, opcode, seq := f.seq, acceptedAt := srcNow m, stored := none } }
      let a := match phaseRefusal f opcode m with
        | some st => refuse st m
        | none => if f.opcode.isSome then refuse stBadCommand m else run m
      let r : Resp := { opcode, seq := f.seq, status := a.status, w := resultBlock a.w, data := a.data }
      if (long && f.opcode.isNone) || a.hold then { a.m with box := { a.m.box with running := some (r, a.undo), most := a.most } } else a.after (respond r a.m)

/-- Are the bits that a command does not name zero (R12, R420, BAD_COMMAND)? `named` lists the words with named bits and their masks. -/
def rsvOk (f : Frame) (named : List (Nat × Nat)) : Bool :=
  (List.range 16).all (fun i =>
    let mask := match named.find? (fun e => e.1 == i) with
      | some e => e.2
      | none => 0
    decide (arg f i &&& mask = arg f i))

/-- All 32 bits. -/
abbrev all32 : Nat := 0xFFFFFFFF

/-- A command without command data: words as named, LENGTH 64 (R430 BAD_COMMAND). -/
def plainOk (f : Frame) (named : List (Nat × Nat)) : Bool := rsvOk f named && f.data.isEmpty

/-- The first status that applies, in order. -/
def firstStatus (l : List (Bool × Nat)) : Option Nat := (l.find? (·.1)).map (·.2)

/-- Refuse with the first status that applies, else carry out. -/
def checked (l : List (Bool × Nat)) (m : Mod) (go : Answer) : Answer :=
  match firstStatus l with
  | some st => refuse st m
  | none => go

/-- The port mask in words i and i + 1 (R431). -/
def argPorts (f : Frame) (i : Nat) : Nat := arg f i + 2 ^ 32 * bits (arg f (i + 1)) 18 0

/-- The row of a command: well formed, then run. -/
def execCommand (f : Frame) (opcode : Nat) (long : Bool) (run : Mod → Answer) (s : State) : Ans :=
  onModIf (frameOk f) (command f opcode long run) s

/-- The same for a command that reads the chip. -/
def execCommandChip (f : Frame) (opcode : Nat) (long : Bool) (run : Chip → Mod → Answer) (s : State) : Ans :=
  onChipIf (frameOk f) (fun ch => command f opcode long (run ch)) s

end Sys2Proof.Machine
end

