-- ==== Sys2Proof/Machine/Quote.lean ====
section
/-! DEFINITION. The sample of a quote at one tick (16 R457 to R459). -/

namespace Sys2Proof.Machine

/-- Job state encoding (15). -/
def jobNo (j : JobState) : Nat :=
  match j with
  | .none => 0 | .loaded => 1 | .armed => 2 | .running => 3 | .ended => 4 | .halted => 5 | .killedRetained => 6 | .scrubbing => 7

/-- Lock state encoding (02). -/
def lockNo (l : Lock) : Nat :=
  match l with
  | .unlocked => 0 | .locked => 1 | .holdover => 2 | .expired => 3

/-- A partition entry of a quote (R459). -/
def quoteEntry (x : Part) : List Byte :=
  let loaded := x.jstate != .none
  [BitVec.ofNat 8 (jobNo x.jstate), BitVec.ofNat 8 (if loaded then x.profile else 0), BitVec.ofNat 8 x.halves, 0] ++
    leBytes 4 x.owner.toNat ++ leBytes 2 x.tag.toNat ++ List.replicate 6 0 ++
    (if loaded then x.hash ++ List.replicate (48 - x.hash.length) 0 else List.replicate 48 0)

/-- The signed part of a quote (R459; table Quote layout). -/
def quoteBody (q : Quote) (t : BitVec 48) (l : Lock) (m : Mod) : List Byte :=
  q.head ++ leBytes 6 t.toNat ++ [BitVec.ofNat 8 (lockNo l), 0] ++ q.tail ++ (List.range 8).flatMap (fun p => quoteEntry (partOf m p))

/-- Gondola samples TICK and LOCK_STATE of a quote at cycle 0 of a tick (R459). -/
def sampleQuote (m : Mod) : Mod :=
  { m with box := { m.box with quote := m.box.quote.map (fun q => if q.sample = none then { q with sample := some (m.tick, m.lock) } else q) } }

/-- At the end of that tick the quote is answered, signed with the identity key: the partitions appear as the events of the tick leave them
(R458, R459). -/
def answerQuote (m : Mod) : Mod :=
  match m.box.quote with
  | some q =>
    (match q.sample with
      | some (t, l) =>
        let body := quoteBody q t l m
        respond { opcode := 0x0601, seq := m.box.seq, status := stOk, w := resultBlock [848], data := body ++ ecdsaSign m.atgen.ikPriv body } m
      | none => m)
  | none => m

end Sys2Proof.Machine
end

