-- ==== Sys2Proof/Machine/Ticks.lean ====
section
/-! DEFINITION. The tick: its counter, its input and its loss, what happens at cycle 0 of every tick (02 R30 to R37; 13 R371, R373, R389;
18 R497 to R500; 19 R510). -/

namespace Sys2Proof.Machine

/-! ## Cycle 0 of a tick -/

/-- The departure offset of a port in this tick is not stated: a free value of at most 16 cycles (R387). -/
def drawOffset (q : Nat) (m : Mod) : Mod :=
  let f := takeFree m
  modPort q (fun p => { p with departOffset := Config.unstated f.1 % 257 }) f.2

/-- Send a TICK symbol on every child port (R389), with its departure offset. -/
def sendTicks (m : Mod) : Mod :=
  (maskBits 48 m.children).foldl (fun m q =>
    let m := drawOffset q m
    sendSym q symTick 0 0 (BitVec.ofNat 32 ((portOf m q).departOffset * 65536 + m.tick.toNat % 65536)) m) m

/-- Send an alignment record to every child and board peer after a tick whose number is a multiple of 1,024 (R497). It follows the TICK symbol
of that tick and carries its departure offset; on Spar, which carries no TICK, it has one of its own. -/
def sendRecords (m : Mod) : Mod :=
  if m.tick.toNat % 1024 ≠ 0 then m
  else (downPorts m).foldl (fun m q =>
    if (portOf m q).state = .up then
      let m := if q < 48 then m else drawOffset q m
      emit (.align q m.tick (portOf m q).departOffset m.alignLoaded) m
    else m) m

/-- Ports whose training has passed its first three stages by now: lanes, streams and the exchange of identities, with STREAMS_UP 8 and the
peer's number and port set, which are free values but for the wiring of Spar (R369); a peer that reports this module's own number puts the
port in FAULT (R385). The first of the 256 exchanges of echoes leaves (R494; log entry 135). -/
def startEchoes (q : Nat) (m : Mod) : Mod :=
  let f := takeFree m
  let g := takeFree f.2
  let peer := Config.unstated f.1 % 10000
  let m := modPort q (fun x => { x with
    echoes := true, streamsUp := 8, peerModule := peer, peerPort := if q < 48 then Config.unstated g.1 % 48 else sparPeer q }) g.2
  if peer = m.moduleNum then faultPort q m else askEcho q m

/-- The first stages of the trainings in progress pass (R494). -/
def trainings (m : Mod) : Mod :=
  m.ports.foldl (fun m x => if x.2.state == .training && !x.2.echoes then startEchoes x.1 m else m) m

/-- The system master loads the number of a TICK_SYNC at the first tick that is a multiple of 1,024 (R498); one in EXPIRED returns to LOCKED
so (R500). -/
def loadNumber (m : Mod) : Mod :=
  match m.syncing with
  | some (seq, at_, some n) =>
    if m.role = roleMaster && m.tick.toNat % 1024 = 0 then { m with tick := n, alignLoaded := true, lock := .locked, syncing := some (seq, at_, none) } else m
  | _ => m

/-- ABANDONs of jobs that the system master does not run itself leave at cycle 0 of their tick (R397, R398). -/
def sendAbandons (m : Mod) : Mod :=
  if m.role ≠ roleMaster || m.power.active then m
  else m.others.foldl (fun m e => match e.2.abandon with
    | some (seq, word, due) =>
      if tickReached m due then
        sendDown symAbandon (BitVec.ofNat 16 e.1) seq (wireWord word) { m with others := mmod {} m.others e.1 (fun o => { o with abandon := none }) }
      else m
    | none => m) m

/-- TICK_OUT rises and stays high for 320 cycles (R510). -/
def raiseTick (m : Mod) : Mod := emit (.tickOut true) { m with tickOutHigh := srcNow m + 320 }

/-- TICK_OUT falls where its time is over (R510). -/
def lowerTick (m : Mod) : Mod :=
  if m.tickOutHigh ≠ 0 && decide (m.tickOutHigh ≤ srcNow m) then emit (.tickOut false) { m with tickOutHigh := 0 } else m

/-- What happens at cycle 0 of a tick: position 0 drives TICK_OUT (R373, R510), symbols and records leave, the barrier
line goes low where that is due (R370), and again in an emergency stop (R371); a quote is sampled (R459), and trainings go on. -/
def atTick (m : Mod) : Mod :=
  let m := lineNow (loadNumber m)
  let m := if m.position = 0 && (m.lock == .locked || m.lock == .holdover) then raiseTick m else m
  let m := if m.power.active && m.released && !m.bridleDone then emit (.barrier false) { m with released := false, releaseDue := true } else m
  trainings (sampleQuote (sendAbandons (sendRecords (sendTicks m))))

/-- Some cycles of the source pass, of the tile and fabric clocks too unless they stand still (R23, R30). The Bridle line may change at cycle
480 (R370), and TICK_OUT may fall (R510), each in its turn. -/
def advance (n : Nat) (m : Mod) : Mod :=
  let m' := { m with
    now := if m.power.active then m.now else m.now + n, lost := if m.power.active then m.lost + n else m.lost, phase := m.phase + n }
  let line (y : Mod) : Mod := if m.phase < 480 && decide (480 ≤ m.phase + n) then lineNow y else y
  if m.tickOutHigh - srcNow m ≤ 480 - m.phase then line (lowerTick m') else lowerTick (line m')

/-- The same, with what the links do in each cycle. -/
def passCycles : Nat → Mod → Mod
  | 0, m => m
  | n + 1, m => if linksBusy m then passCycles n (checkStalls (advance 1 (linkCycle m))) else checkStalls (advance (n + 1) m)

/-- The module's time goes to cycle 0 of the next tick: the cycles left in this one pass, unless the clocks are stopped (R30, R49). -/
def nextTick (m : Mod) : Mod :=
  let m := answerQuote (passCycles (639 - m.phase) m)
  atTick (checkStalls (dueTrapsNow { advance 1 (linkCycle m) with tick := m.tick + 1, phase := 0 }))

/-! ## The tick receiver (R33 to R37) -/

/-- The present instant, in sixteenths of a cycle since tick 0. -/
def instant (m : Mod) : Int := ((m.tick.toNat * 640 + m.phase) * 16 : Nat)

/-- Sixteenths of a cycle in which the 48-bit tick counter wraps. -/
abbrev instantWrap : Int := 2 ^ 48 * 10240

/-- Sixteenths of a cycle from one instant to another, by serial-number arithmetic (R54). -/
def sinceInstant (from_ to_ : Int) : Int :=
  let d := (to_ - from_) % instantWrap
  if d < instantWrap / 2 then d else d - instantWrap

/-- Is a TICK_SYNC of a module other than the system master waiting for its alignment (R499)? -/
def aligning (m : Mod) : Bool := m.syncing != none && m.role != roleMaster && (m.lock == .unlocked || m.lock == .expired)

/-- Classify a rising edge at an instant (table Tick edge classes, R33, R36, R37). While a TICK_SYNC aligns the module, an edge sets its
phase (R499 step 2). -/
def tickEdge (at_ : Int) (low : Option (BitVec 16)) (m : Mod) : Mod :=
  let near : Int := (at_ + 5120) / 10240
  let off : Int := at_ - near * 10240
  let chatter := match m.lastEdge with
    | some l => decide (sinceInstant l at_ < 5120) && decide (0 ≤ sinceInstant l at_)
    | none => false
  let known := match low with
    | some b => BitVec.ofInt 16 near == b
    | none => true
  if chatter then { m with chatter := satAdd 32 m.chatter 1 }
  else if aligning m then
    let since := ((instant m - at_).toNat / 16) % 640
    { m with phase := since, lastEdge := some ((m.tick.toNat * 640) * 16) }
  else if decide (-256 ≤ off) && decide (off ≤ 256) && known then
    readyAll { m with
      lastEdge := some (at_ % instantWrap).toNat, holdTicks := heldTicks m, lock := if m.lock = .holdover then .locked else m.lock }
  else hostEvent 0x04 0xFF 0xFFFF 3 0 (noteSet 0x1008 2 [] { m with phaseErr := satAdd 16 m.phaseErr 1, phaseEvent := true })

/-- An edge at TICK_IN: the pin is high for 320 cycles, as its driver's TICK_OUT (R510; log entry 155). Positions 1 and 2 repeat the level on
TICK_OUT whatever their state (R373). -/
def pinEdge (m : Mod) : Mod :=
  let m := { m with tickInHigh := srcNow m + 320 }
  if m.position = 1 || m.position = 2 then raiseTick m else m

/-- TICK_EDGE (R33, R36, R373, R390): an edge at the tick input, of the Bridle pin when it carries no number, less the measured delay of its
hop. The system master has no tick input. -/
def execTickEdge (lowBits : Option (BitVec 16)) (s : State) : Ans :=
  onMod (fun m =>
    let bridle := lowBits == none
    let m := if bridle then pinEdge m else m
    if m.role = roleMaster || bridle != (m.role == rolePeer) then m
    else if bridle then tickEdge (instant m - (m.hopDelay : Int)) lowBits m
    else tickEdge (instant m) lowBits m) s

/-- TICK_LOST (R34): no accepted edge for 8 tick periods. -/
def execTickLost (s : State) : Ans :=
  onMod (fun m =>
    let quiet := match m.lastEdge with
      | some l => decide (81920 ≤ sinceInstant l (instant m))
      | none => true
    if m.role = roleMaster || m.lock ≠ .locked || !quiet then m
    else hostEvent 0x04 0xFF 0xFFFF 1 0 (noteSet 0x1008 0 [] { m with
      lostEvent := true, loss := satAdd 16 m.loss 1, lock := .holdover, holdFrom := srcNow m })) s

/-- HOLDOVER_EXPIRY (R37): holdover reaches 1,024 ticks; the running steps fault with TICK_EXPIRED. -/
def execHoldoverExpiry (s : State) : Ans :=
  onMod (fun m =>
    if m.lock ≠ .holdover || heldTicks m < 1024 then m
    else
      let m := hostEvent 0x04 0xFF 0xFFFF 2 0 (noteSet 0x1008 1 [] { m with expiredEvent := true, lock := .expired, holdTicks := 1024 })
      (List.range 8).foldl (fun m p => if (partOf m p).jstate = .running then signalModule p 0x0F 0 m else m) m) s

/-! ## Alignment (R497 to R500) -/

/-- ALIGNMENT_RECORD (R497, R499, R500): one from upstream steers the phase of a module that a TICK_SYNC aligns; one with LOADED loads its
tick counter, and it is then LOCKED. `offset16` is the departure offset. -/
def execAlignmentRecord (q : PortId) (number : BitVec 48) (offset16 : Nat) (loaded : Bool) (s : State) : Ans :=
  onMod (fun m =>
    if !aligning m || q.val ≠ m.upstream || (portOf m q.val).state ≠ .up then m
    else
      let late := ((portOf m q.val).tickDelay16 + offset16) / 16
      let tick := number + BitVec.ofNat 48 (late / 640)
      if !loaded then { m with phase := late % 640 }
      else { m with
        tick, phase := late % 640, lock := .locked, alignLoaded := true, source := if m.role = rolePeer then 1 else 2
        lastEdge := some (tick.toNat * 640 * 16) }) s

/-- ALIGNMENT_REPORT (R497, R498): the largest MASTER_DELAY of a child's subtree. -/
def execAlignmentReport (q : PortId) (delay : Nat) (s : State) : Ans :=
  onMod (fun m =>
    if (downPorts m).contains q.val && (portOf m q.val).state == .up then { m with reports := mset 0 m.reports q.val (delay + 1) } else m) s

/-- Have all reports from below arrived? -/
def reported (m : Mod) : Bool := (downPorts m).all (fun q => mget 0 m.reports q != 0)
/-- The largest delay reported from below, in cycles. -/
def reportMax (m : Mod) : Nat := (downPorts m).foldl (fun a q => Nat.max a (mget 0 m.reports q - 1)) 0

/-- TICK_SYNC_COMPLETE (R391, R498, R499): on the system master with D of R391. On any other module MASTER_DELAY is that of its upstream
module with the LINK_DELAY of the upstream port and 32 cycles, and TETHER_HOPS that of its upstream module with the hop of a Tether link
(`upDelay` and `upHops`, which no record brings: log entry 136). One not LOCKED within 2 s ends with LINK_DOWN. -/
def execTickSyncComplete (upHops upDelay : Nat) (s : State) : Ans :=
  onMod (fun m =>
    match m.syncing with
    | none => m
    | some (seq, at_, left) =>
      let finish (status : Nat) (m : Mod) : Mod := commandDone 0x0006 seq 0xFF status { m with syncing := none }
      if m.role = roleMaster then
        if left ≠ none || !reported m then m else finish ((reportMax m + 639) / 640) m
      else if m.lock = .locked then
        if !reported m then m
        else
          let peer := m.role == rolePeer
          let m := { m with
            masterDelay := (upDelay + (portOf m m.upstream).linkDelay + 32) % 2 ^ 32
            tetherHops := (upHops + if peer then 0 else 1) % 2 ^ 8, bridleHops := if peer then m.position else 0 }
          finish stOk (emit (.alignReport m.upstream (Nat.max m.masterDelay (reportMax m))) m)
      else if 1600000000 ≤ srcNow m - at_ then finish stLinkDown m
      else m) s

end Sys2Proof.Machine
end

