-- ==== Sys2Proof/Machine/Symbols.lean ====
section
/-! DEFINITION. Sideband symbols: readiness, decisions, failures, echoes, ticks (13 R383, R387 to R390; 02 R42 to R47; 14 R397 to R399;
17 R479). -/

namespace Sys2Proof.Machine

/-- Does a port take symbols: it is UP? -/
def symOpen (m : Mod) (q : Nat) : Bool := (portOf m q).state == .up

/-- Does a symbol come from upstream? -/
def fromUp (m : Mod) (q : Nat) : Bool := symOpen m q && m.role != roleMaster && q == m.upstream

/-- The running partition of a symbol's job, whose step is not being abandoned. -/
def symPart (m : Mod) (tag : BitVec 16) : Option Nat :=
  match partOfTag m tag.toNat with
  | some p => if (partOf m p).jstate = .running && !(partOf m p).stepFailed then some p else none
  | none => none

/-- Does this module hold a job with a tag that is armed or running? -/
def runsJob (m : Mod) (tag : BitVec 16) : Bool :=
  match partOfTag m tag.toNat with
  | some p => (partOf m p).jstate == .running || (partOf m p).jstate == .armed
  | none => false

/-- Change what the system master keeps of a job of other modules. -/
def modOther (tag : BitVec 16) (f : OtherJob → OtherJob) (m : Mod) : Mod := { m with others := mmod {} m.others tag.toNat f }

/-- READY of a job that the system master does not run itself: kept for its decision (R42, R43); READYs of earlier supersteps go. -/
def otherReady (q : Nat) (sym : Sym) (m : Mod) : Mod :=
  modOther sym.jobTag (fun o => { o with
    ready := (sym.seq.toNat, q) :: o.ready.filter (fun r => r.1 == sym.seq.toNat && r.2 != q) }) m

/-- READY (R42, R383): kept until the module's own sync has closed and all below are ready. -/
def execReady (q : PortId) (sym : Sym) (s : State) : Ans :=
  onMod (fun m =>
    if !symOpen m q.val || !(downPorts m).contains q.val then m
    else match symPart m sym.jobTag with
      | none => if m.role = roleMaster && !runsJob m sym.jobTag then otherReady q.val sym m else m
      | some p =>
        if 2 ^ 31 ≤ (sym.seq - (partOf m p).superstep).toNat then m
        else tryReady p (modPart p (fun x => { x with
          readyFrom := (sym.seq.toNat, q.val) :: x.readyFrom.filter (· ≠ (sym.seq.toNat, q.val)) }) m)) s

/-- Does a decision name the event that is to be decided next, in time (R44, R47)? -/
def decides (m : Mod) (p : Nat) (seq : W32) : Bool :=
  match decisionEvent (partOf m p) with
  | some e => seq == eventSeq (partOf m p) e && !tickReached m e.tick
  | none => false

/-- GO (R44, R383). -/
def execGo (q : PortId) (sym : Sym) (s : State) : Ans :=
  onMod (fun m =>
    if !fromUp m q.val then m
    else
      let m := sendDown symGo sym.jobTag sym.seq sym.arg m
      match symPart m sym.jobTag with
      | some p => if decides m p sym.seq then modPart p (takeGo sym.seq) m else m
      | none => m) s

/-- SLIP (R44, R383). -/
def execSlip (q : PortId) (sym : Sym) (s : State) : Ans :=
  onMod (fun m =>
    if !fromUp m q.val then m
    else
      let m := sendDown symSlip sym.jobTag sym.seq sym.arg m
      match symPart m sym.jobTag with
      | some p => if decides m p sym.seq then modPart p slipSchedule m else m
      | none => m) s

/-- Decision tick of the event of a partition that is to be decided next (R43). -/
def decisionTick (x : Part) : BitVec 48 :=
  match decisionEvent x with
  | some e => e.tick - BitVec.ofNat 48 (x.readyLead / 2)
  | none => 0

/-- Abandon a step now, or after an emergency stop (R479). -/
def abandonOrHold (p : Nat) (sym : Sym) (ta : BitVec 48) (m : Mod) : Mod :=
  if m.power.active then { m with power := { m.power with heldSyms := m.power.heldSyms ++ [(ta.toNat, p, sym)] } }
  else abandonStep p sym.seq sym.arg (m.role != roleMaster) ta m

/-- FAULT (R44, R383, R397, R399): the step is abandoned with cause SLIP_LIMIT; T_a is the decision tick. -/
def execFault (q : PortId) (sym : Sym) (s : State) : Ans :=
  onMod (fun m =>
    if !fromUp m q.val then m
    else
      let m := sendDown symFault sym.jobTag sym.seq sym.arg m
      match symPart m sym.jobTag with
      | some p =>
        if decides m p sym.seq then
          abandonOrHold p { sym with seq := (partOf m p).stepNum, arg := slipLimitWord } (decisionTick (partOf m p)) m
        else m
      | none => m) s

/-- Has a FAIL of this attempt of a step reached the master already? A FAIL that comes when two of the longest symbol delays D and a tick
have passed since its ABANDON left is one of the repeat (R397; DEDUCED, log entry 137). -/
def failedNow (m : Mod) (o : OtherJob) (seq : W32) : Bool :=
  match o.failed with
  | some (q, t) => q == seq && !tickReached m (t + BitVec.ofNat 48 (2 * ((reportMax m + 639) / 640) + 1))
  | none => false

/-- A FAIL of a job that the system master does not run itself (R388, R397, R398; log entry 137): on the first of a step ABANDON leaves at
cycle 0 of the next tick; for a step whose commit has its GO it is the following step's, after the commit's tick, with LATE set. -/
def otherFail (sym : Sym) (m : Mod) : Mod :=
  let o := mget {} m.others sym.jobTag.toNat
  if failedNow m o sym.seq then m
  else
    let next := m.tick + 1
    match o.commit with
    | some (seq, tx) =>
      if seq = sym.seq then
        let due := if tickReached m tx then next else tx + 1
        modOther sym.jobTag (fun o => { o with
          failed := some (sym.seq, due), abandon := o.abandon <|> some (sym.seq + 1, sym.arg ||| 0x40000000, due) }) m
      else modOther sym.jobTag (fun o => { o with failed := some (sym.seq, next), abandon := some (sym.seq, sym.arg, next) }) m
    | none => modOther sym.jobTag (fun o => { o with failed := some (sym.seq, next), abandon := some (sym.seq, sym.arg, next) }) m

/-- FAIL (R383, R388, R397): relayed upstream; the system master answers with ABANDON. -/
def execFail (q : PortId) (sym : Sym) (s : State) : Ans :=
  onMod (fun m =>
    if !symOpen m q.val || !(downPorts m).contains q.val then m
    else if m.role ≠ roleMaster then sendUp symFail sym.jobTag sym.seq sym.arg m
    else match symPart m sym.jobTag with
      | some p => if sym.seq = (partOf m p).stepNum || (partOf m p).goSentCommit = some sym.seq then masterFail p sym.seq sym.arg m else m
      | none => if runsJob m sym.jobTag then m else otherFail sym m) s

/-- ABANDON (R383, R399, R401): T_a is the tick that began nearest to the arrival less MASTER_DELAY. -/
def execAbandon (q : PortId) (sym : Sym) (s : State) : Ans :=
  onMod (fun m =>
    if !fromUp m q.val then m
    else
      let m := sendDown symAbandon sym.jobTag sym.seq sym.arg m
      match symPart m sym.jobTag with
      | some p => abandonOrHold p sym (nearestTick m m.masterDelay) m
      | none => m) s

/-- ECHO_REQ (R390): answered with the turnaround, which is not stated: a free value. -/
def execEchoReq (q : PortId) (_stamp : W32) (s : State) : Ans :=
  onMod (fun m => let f := takeFree m; sendSym q.val symEchoReply 0 0 (BitVec.ofNat 32 (Config.unstated f.1)) f.2) s

/-- ECHO_REPLY (R390, R495, R499): one measurement of the one-way delay, (round trip − turnaround) / 2. A port whose echoes run keeps the
largest of 256; one that is UP measures the tick hop. While a TICK_SYNC measures the hop upstream, HOP_DELAY is that delay on Tether; a
board peer times its TICK_IN edge against the echo, by a computation that is not stated: a free value. -/
def execEchoReply (q : PortId) (roundTrip16 turnaround16 : Nat) (s : State) : Ans :=
  onMod (fun m =>
    let trip := roundTrip16 - turnaround16
    match (portOf m q.val).state with
    | .training =>
      let n := (portOf m q.val).echoCount
      if 256 ≤ n || !(portOf m q.val).echoes then m
      else
        let m := modPort q.val (fun p => { p with echoMax := Nat.max p.echoMax trip, echoCount := n + 1 }) m
        if n + 1 < 256 then askEcho q.val m else m
    | .up =>
      let m := modPort q.val (fun p => { p with tickDelay16 := trip / 2 }) m
      if m.syncing == none || q.val ≠ m.upstream then m
      else if m.role = roleBoard then { m with hopDelay := trip / 2 % 2 ^ 16 }
      else if m.role = rolePeer then let f := takeFree m; { f.2 with hopDelay := Config.unstated f.1 % 2 ^ 16 }
      else m
    | _ => m) s

/-- TICK (R33, R389): the upstream tick began at the arrival, less the measured delay of the hop, less the departure offset. -/
def execTick (q : PortId) (arg : W32) (s : State) : Ans :=
  onMod (fun m =>
    if !fromUp m q.val || m.role = rolePeer then m
    else
      let delay := if m.hopDelay = 0 then (portOf m q.val).tickDelay16 else m.hopDelay
      tickEdge (instant m - (delay : Int) - (bits arg.toNat 31 16 : Int)) (some (BitVec.ofNat 16 arg.toNat)) m) s

end Sys2Proof.Machine
end

