-- ==== Sys2Proof/Machine/TimeBase.lean ====
section
/-! DEFINITION. Decisions, the commit, clock events and the Bridle line (02 R40 to R51; 17 R464 to R470; 13 R370 to R372; 14 R417). -/

namespace Sys2Proof.Machine

/-! ## Decisions at the system master (R43 to R46, R398) -/

/-- Is the master's own module counted ready for an event: READY complete, not in an emergency stop (R49); a sync that closed after
T_x − L may or may not count (R46): a free value. -/
def countedReady (p : Nat) (e : SchedEv) (m : Mod) : Bool × Mod :=
  let x := partOf m p
  if !x.readySent || stepIndex x ≠ e.superstep || m.power.active then (false, m)
  else
    let z := match x.closedAt with
      | some z => (tickAt m (z + x.lag)).1
      | none => m.tick
    let limit := e.tick - BitVec.ofNat 48 x.readyLead
    if (limit - z).toNat < 2 ^ 47 then (true, m)
    else let f := takeFree m; (Config.lateReadyCounts f.1, f.2)

/-- The decision for the next event of a job of the master's own, at T_x − L/2: a commit gets no GO after a FAIL of its step (R43, R398). -/
def decideOwn (p : Nat) (m : Mod) : Mod :=
  let x := partOf m p
  match decisionEvent x with
  | none => m
  | some e =>
    let seq := eventSeq x e
    if m.role ≠ roleMaster || x.jstate ≠ .running || x.stepFailed || !tickReached m (decisionTick x) then m
    else
      let r := countedReady p e m
      let m := r.2
      if r.1 then
        if e.kind = .commit && x.failSeen = some x.stepNum then m
        else sendDown symGo x.tag seq (BitVec.ofNat 32 x.slips) (modPart p (fun x => { takeGo seq x with
          goSentCommit := if e.kind = .commit then some x.stepNum else x.goSentCommit }) m)
      else if x.slips + 1 ≤ x.slipLimit then
        sendDown symSlip x.tag seq (BitVec.ofNat 32 (x.slips + 1)) (modPart p slipSchedule m)
      else
        abandonOrHold p { jobTag := x.tag, seq := x.stepNum, arg := slipLimitWord } (decisionTick x)
          (sendDown symFault x.tag seq (BitVec.ofNat 32 x.slips) m)

/-- The decision for an event of another job (R43, R384, R398; log entry 137): GO if READY has come from every port that leads to its
modules. -/
def decideOther (e : OtherEvent) (m : Mod) : Mod :=
  let o := mget {} m.others e.tag.toNat
  if m.role ≠ roleMaster || runsJob m e.tag || !tickReached m (e.tick - BitVec.ofNat 48 (e.lead / 2)) then m
  else if (downPorts m).all (fun q => !bit e.ports q || o.ready.contains (e.seq.toNat, q)) then
    match e.commit with
    | some n =>
      if failedNow m o n then m
      else sendDown symGo e.tag e.seq (BitVec.ofNat 32 e.slips) (modOther e.tag (fun o => { o with commit := some (n, e.tick) }) m)
    | none => sendDown symGo e.tag e.seq (BitVec.ofNat 32 e.slips) m
  else if e.slips + 1 ≤ e.limit then sendDown symSlip e.tag e.seq (BitVec.ofNat 32 (e.slips + 1)) m
  else sendDown symFault e.tag e.seq (BitVec.ofNat 32 e.slips) m

/-- DECISION (R43, R44, R46, R384, R398): GO, SLIP or FAULT for the next event of a job, at T_x − L/2. -/
def execDecision (what : DecisionFor) (s : State) : Ans :=
  onMod (fun m =>
    match what with
    | .own p => decideOwn p.val m
    | .other e => decideOther e m) s

/-! ## Loss samples (R417) -/

/-- a > b for FP32 numbers. -/
def f32Gt (a b : W32) : Bool := !(f32IsZero a && f32IsZero b) && decide (f32Ord b < f32Ord a)

/-- An event of the loss-spike detector. -/
def lossEvent (p kind : Nat) (l step : W32) (m : Mod) : Mod :=
  let m := noteSet (0x7030 + 0x40 * p) 0 [kind, l.toNat, step.toNat] m
  let m := modPart p (fun x => { x with
    lossEvents := satAdd 16 x.lossEvents 1
    lossKind := if x.lossValid then x.lossKind else kind
    lossValue := if x.lossValid then x.lossValue else l
    lossStep := if x.lossValid then x.lossStep else step
    lossValid := true }) m
  hostEvent 0x05 p (partOf m p).lossTile step.toNat kind m

/-- One sample, at the tick of a commit (R417). -/
def lossSample (p : Nat) (m : Mod) : Mod :=
  let x := partOf m p
  if !x.lossEnable then m
  else
    let l := BitVec.ofNat 32 (mget 0 (tdOf m x.lossTile).scr x.lossScratch).toNat
    if f32IsNan l || f32IsInf l then lossEvent p 2 l x.stepNum m
    else if x.lossSamples = 0 then modPart p (fun x => { x with lossMean := l, lossSamples := 1 }) m
    else
      let m := if decide (x.lossWarmup ≤ x.lossSamples) && f32Gt l (fMul x.lossThreshold x.lossMean) then lossEvent p 1 l x.stepNum m else m
      let alpha := BitVec.ofNat 32 ((127 - x.lossAlpha) * 2 ^ 23)
      modPart p (fun y => { y with
        lossMean := fFma alpha (fSub l x.lossMean) x.lossMean, lossSamples := Nat.min 255 (x.lossSamples + 1) }) m

/-! ## The commit (R51, R52, R267, R307, R329, R331, R364) -/

/-- Is the commit of the current superstep due with its GO and its sync closed? -/
def commitDue (m : Mod) (p : Nat) : Bool :=
  let x := partOf m p
  x.jstate == .running && !x.stepFailed && !m.power.active &&
    (match nextEvent x with
      | some e => e.kind == .commit && e.superstep == stepIndex x && x.closedAt != none && tickReached m e.tick
      | none => false)

/-- The commit takes effect at cycle 0 of its tick. -/
def commitNow (ch : Chip) (p : Nat) (m : Mod) : Mod :=
  match nextEvent (partOf m p) with
  | none => m
  | some e =>
    let bad := commitIncomplete m p
    let m := if bad then noteSet (0x5800 + 0x20 * p) 0 [] m else m
    let m := lossSample p m
    let m := recordCommit p (advanceEpochs p (flipBanks p m))
    let m := (tilesOfPart m p).foldl (fun m t => modTd t wgbEmptyAll m) m
    let m := eventBegun p (modPart p (fun x => { x with
      stepNum := x.stepNum + 1, stepAttempt := 0, slips := 0
      sched := markDone .commit e.superstep x.sched, committed := true, commitTick := e.tick, lateRaised := false
      commitIncomplete := x.commitIncomplete || bad
      ckpt := x.ckpt.map (fun k => if k.step = x.stepNum then { k with due := true } else k) }) m)
    if bad then endJob ch p 5 .halted m else m

/-- COMMIT (R40, R47, R51, R329, R331, R364, R417): one without a usable GO at its tick is decision-late. Tile resets
that a stall of the step held have taken effect by then (R537). -/
def execCommit (p : PartId) (s : State) : Ans :=
  onChip (fun ch m =>
    if !commitDue m p.val then
      (match nextEvent (partOf m p.val) with
        | some e => if e.kind = .commit && (partOf m p.val).jstate = .running && !(partOf m p.val).stepFailed && !m.power.active &&
            eventLate m p.val then decisionLate p.val m else m
        | none => m)
    else if eventLate m p.val then decisionLate p.val m
    else dueResets ch (commitNow ch p.val m)) s

/-! ## Clock events (R40, R464 to R470) -/

/-- Ballast's choice of 400 MHz for a half at an OPTIONAL event (R470). -/
def slowChoice (m : Mod) (h : Nat) : Bool :=
  let x := halfSt m h
  bit m.power.policy.clockCeil h || x.hot || decide (x.allotW < x.computeW.getD 640)

/-- Decide an OPTIONAL event (R470). -/
def decideOptional (p : Nat) (e : SchedEv) (m : Mod) : Mod :=
  let slow := (maskBits 8 e.mask).filter (slowChoice m)
  let m := slow.foldl (fun m h => modHalf h (fun x => { x with slow := satAdd 16 x.slow 1 }) m) m
  modPart p (fun x => { x with sched := x.sched.map (fun y =>
    if y = e then { y with chosen := some (maskOf slow) } else y) }) m

/-- Is an OPTIONAL event still to be decided? -/
def undecided (e : SchedEv) : Bool := e.kind == .clockOptional && !e.done && e.chosen == none

/-- OPTIONAL_DECISION (R470): the OPTIONAL events of a partition whose tick less 16 has come, once their step has started. -/
def execOptionalDecision (p : PartId) (s : State) : Ans :=
  onMod (fun m =>
    let x := partOf m p.val
    if x.jstate ≠ .running || x.stepFailed then m
    else (x.sched.filter (fun e => undecided e && tickReached m x.base && tickReached m (e.tick - 16))).foldl (fun m e => decideOptional p.val e m) m) s

/-- A clock event takes effect (R40, R467): the halves chosen begin their switch, and the compute phase begins at cycle 68 of the tick, or
of the first tick after the boundary when that is later (boundaryTick, log entry 118). -/
def clockEvent (p : Nat) (e : SchedEv) (m : Mod) : Mod :=
  let m := if undecided e then decideOptional p e m else m
  let x := partOf m p
  let chosen := match x.sched.find? (fun y => y.kind == e.kind && y.superstep == e.superstep && y.mask == e.mask && !y.done) with
    | some y => if y.kind = .clockFixed then y.mask else y.chosen.getD 0
    | none => 0
  let due := boundaryTick m p e.tick
  let late := due.2
  let first := cycleOfTick m due.1 + 68 - x.lag
  let m := modPart p (fun x => { x with
    lateEvents := if late then satAdd 32 x.lateEvents 1 else x.lateEvents
    sched := x.sched.map (fun y =>
      if y.kind = e.kind && y.superstep == e.superstep && y.mask == e.mask then { y with done := true } else y) }) m
  let m := (maskBits 8 chosen).foldl (fun m h => modHalf h (fun y =>
    if y.clk = .full then { y with clk := .toHalf, switchFrom := cycleOfTick m due.1 } else y) m) m
  ((maskBits 8 e.mask).flatMap tilesOfHalf).foldl (fun m t =>
    let d := tdOf m t
    if d.st = .waiting && d.wait.kind == .tick && !x.heldForCkpt then releaseAt first t m
    else modTd t (fun d => { d with nextIssue := Nat.max d.nextIssue first }) m) m

/-- CLOCK_EVENT (R40, R465, R467). -/
def execClockEvent (p : PartId) (s : State) : Ans :=
  onMod (fun m =>
    let x := partOf m p.val
    if x.jstate ≠ .running || x.stepFailed || x.xphase ≠ .compute || m.power.active then m
    else ((clockEvents x).filter (fun e => tickReached m (boundaryTick m p.val e.tick).1)).foldl (fun m e => clockEvent p.val e m) m) s

/-- CLOCK_RETURN (R212, R464): at z + 1 of a local sync whose record has HALF_RETURN. -/
def execClockReturn (h : HalfId) (s : State) : Ans :=
  onMod (fun m =>
    match partOfHalf m h.val with
    | none => m
    | some p =>
      let x := partOf m p
      let z1 := x.closedAt.getD 0 + x.lag + 1
      if x.closedAt = none || !recHalfReturn (curRecord x) || m.power.active || m.now < z1 then m
      else returnHalf h.val z1 m) s

/-- CLOCK_SWITCH_COMPLETE (R464, R477): 64 source cycles after it began a switch is complete; it holds during an emergency stop. A half that
reaches 400 MHz after its step has been abandoned, or its job has ended, returns at once (log entry 154). -/
def execClockSwitchComplete (h : HalfId) (s : State) : Ans :=
  onChip (fun ch m =>
    let y := halfSt m h.val
    if m.power.active || decide (m.now < y.switchFrom + 64) || (y.clk != .toHalf && y.clk != .toFull) then m
    else
      let m := dueResets ch (endSwitch h.val m)
      match partOfHalf m h.val with
      | some p => if (partOf m p).stepFailed || (partOf m p).jstate != .running then returnHalf h.val (y.switchFrom + 64) m else m
      | none => returnHalf h.val (y.switchFrom + 64) m) s

/-! ## The Bridle line (R370 to R372, R509) -/

/-- Is the sync of the Bridle partition's next event closed? -/
def bridleClosed (m : Mod) : Bool :=
  let x := partOf m m.bridlePart
  x.jstate == .running && !x.stepFailed && (match nextEvent x, x.closedAt with
    | some e, some z => e.superstep == stepIndex x && tickReached m ((tickAt m (z + x.lag)).1 + 1)
    | _, _ => false)

/-- BARRIER_LINE_RELEASE (R370, R371): at cycle 0 of a tick after the sync closes, or of the next one after the clocks restart. -/
def execBarrierLineRelease (s : State) : Ans :=
  onMod (fun m =>
    if !m.bridleEnable || m.released || m.bridleDone || m.power.active || m.phase ≠ 0 || !bridleClosed m ||
        (m.releaseDue && m.now == m.power.restartNow) then m
    else emit (.barrier true) { m with released := true, releaseDue := false, releasedAt := some m.tick }) s

/-- BARRIER_LINE_SAMPLE (R370, R509, R524): at cycle 320 of a tick a high sample completes the barrier, which this module answers by driving
the line low at cycle 480; a high sample while it drives the line low is STUCK_HIGH. -/
def execBarrierLineSample (high : Bool) (s : State) : Ans :=
  onMod (fun m =>
    if m.phase ≠ 320 then m
    else
      let m := { m with line := high, barrierPin := high }
      let p := m.bridlePart
      if !m.bridleEnable || !m.lineOn || !high || m.lineLow then m
      else if m.released then tryReady p { m with lineLow := true, releasedAt := none, bridleDone := true }
      else
        let m := noteSet 0x200 8 [] { m with stuckHigh := true }
        if (partOf m p).jstate = .running then signalModule p 0x10 0 m else m) s

/-- BRIDLE_TIMEOUT (R372): the line stays low for TIMEOUT ticks after this module released it. -/
def execBridleTimeout (s : State) : Ans :=
  onMod (fun m =>
    match m.releasedAt with
    | some t =>
      if !m.bridleEnable || !m.released || !tickReached m (t + BitVec.ofNat 48 m.bridleTimeout) then m
      else signalModule m.bridlePart 0x10 0 (noteSet 0x6018 3 [] { m with timeoutEvent := true, releasedAt := none })
    | none => m) s

end Sys2Proof.Machine
end

