-- ==== Sys2Proof/Machine/Regs.lean ====
section
/-! DEFINITION. What every mapped word of the tile space and the control space reads as (20 R525 to R531, and the register tables of each
chapter). -/

namespace Sys2Proof.Machine

/-! ## The tile register block (07 R199, 20 R530) -/

/-- The non-finite registers (R120). -/
def nfReg (d : TileData) (o : Nat) : Option W64 :=
  match o with
  | 0x800 => some (pack [(0, b2n d.nfFreeze)])
  | 0x808 => some (BitVec.ofNat 64 d.nfResults)
  | 0x810 => some (BitVec.ofNat 64 d.nfInvalid)
  | 0x818 => some (BitVec.ofNat 64 d.nfOverflow)
  | 0x820 => some (BitVec.ofNat 64 d.nfDivzero)
  | 0x828 =>
    let r := d.nfFirst
    some (pack [(32, r.a), (20, r.b), (15, r.c), (12, r.e), (6, r.f), (0, b2n r.valid)])
  | _ => none

/-- The conversion registers (R145). -/
def cvReg (d : TileData) (o : Nat) : Option W64 :=
  if o = 0x830 then some (pack [(0, b2n d.cvFreeze)])
  else if o = 0x838 then some 0
  else if o < 0x840 then none
  else
    let k := (o - 0x840) % 0x20 / 8
    if k = 3 then some 0 else some (BitVec.ofNat 64 (mget 0 d.cv (3 * ((o - 0x840) / 0x20) + k)))

/-- The matrix registers (R180). -/
def maReg (m : Mod) (t : Nat) (d : TileData) (o : Nat) : Option W64 :=
  match o with
  | 0x980 => some (maStatus (nowOf m t) (coreK m t) d)
  | 0x988 => some (BitVec.ofNat 64 d.maNonfinite)
  | 0x990 => some (BitVec.ofNat 64 (d.maCellOps / 1024))
  | 0x998 => some (BitVec.ofNat 64 (d.maGatedOps / 1024))
  | _ => none

/-- REGION_CONFIG, REGION_PTRS, REGION_STATS (R200). -/
def regionReg (d : TileData) (g k : Nat) : W64 :=
  let r := regionOf d g
  match k with
  | 0 => pack [(44, r.mirror), (40, r.sizeLog2), (36, r.attach), (0, r.base)]
  | 1 => pack [(32, r.head % 2 ^ 32), (0, r.tail % 2 ^ 32)]
  | 2 => pack [(32, Nat.min (r.fullWait / 1024) (2 ^ 32 - 1)), (16, r.badPtr), (0, b2n r.badEvent)]
  | _ => 0

/-- WIN_RANGE and WIN_CONTROL of a window (R200, R203). -/
def winReg (d : TileData) (w k : Nat) : W64 :=
  let x := mget ({} : TileWin) d.wins w
  if k = 0 then pack [(32, x.base), (0, x.length)]
  else pack [(48, x.tag), (2, b2n x.write), (1, b2n x.read), (0, b2n x.opened)]

/-- The scratchpad registers (R200). -/
def spReg (d : TileData) (o : Nat) : Option W64 :=
  if o = 0xA00 then
    let r := d.spParity
    some (pack [(48, r.count), (21, r.a), (20, b2n r.valid), (0, r.b)])
  else if o = 0xA08 then some (pack [(8, d.denied), (0, d.dmaq.length)])
  else if o < 0xA40 then some 0
  else if o < 0xC40 then some (regionReg d ((o - 0xA40) / 0x20) ((o - 0xA40) % 0x20 / 8))
  else if o < 0xCC0 then some (winReg d ((o - 0xC40) / 0x10) ((o - 0xC40) % 0x10 / 8))
  else none

/-- The quantiser registers (R366). -/
def quantReg (d : TileData) (o : Nat) : Option W64 :=
  match o with
  | 0xCC0 => some (BitVec.ofNat 64 (leNat (mgets 0 d.quantLsb 0 8)))
  | 0xCC8 => some (BitVec.ofNat 64 (leNat (mgets 0 d.quantLsb 8 8)))
  | 0xCD0 => some (BitVec.ofNat 64 d.quantConv)
  | 0xCD8 => some (BitVec.ofNat 64 d.quantVan)
  | 0xCE0 =>
    let r := d.quantFault
    some (pack [(48, r.count), (44, r.a), (42, r.b), (40, r.c), (2, r.e), (0, b2n r.valid)])
  | _ => if 0xCE8 ≤ o ∧ o ≤ 0xCFF then some 0 else none

/-- XCH_BEATS_OUT (R237): the beats XO has read, and those due by now that no command has made it read yet. -/
def beatsOutNow (m : Mod) (t : Nat) (d : TileData) : Nat :=
  let due (b : Beat) : Bool := decide (b.readAt ≤ nowOf m t) && (match b.src with
    | .scratch u _ => u == t
    | .wgb u _ _ => u == t
    | .read => false)
  d.beatsOut + (match partOfTile m t with
    | some p => (((partOf m p).beats.filter due).map (·.id)).eraseDups.length
    | none => 0)

/-- The exchange registers (R237). -/
def xchReg (m : Mod) (t : Nat) (d : TileData) (o : Nat) : Option W64 :=
  match o with
  | 0xD00 => some (pack [(48, maskOf (armedTags (nowOf m t) d)), (32, (armedTags (nowOf m t) d).length), (0, b2n (decide (nowOf m t < d.xoFree)))])
  | 0xD08 => some (BitVec.ofNat 64 (beatsOutNow m t d))
  | 0xD10 => some (BitVec.ofNat 64 d.beatsIn)
  | 0xD18 => some (BitVec.ofNat 64 d.xchFaults)
  | _ => none

/-- The WGB registers (R332). -/
def wgbReg (d : TileData) (o : Nat) : Option W64 :=
  match o with
  | 0xD40 => some (pack [(8, b2n d.wgbExact), (0, lowBits 8 d.wgbLsb)])
  | 0xD48 => some (BitVec.ofNat 64 (maskOf d.wgbFilled))
  | 0xD50 =>
    let r := d.wgbEvents
    some (pack [(48, r.count), (32, r.a), (27, r.b), (22, r.c), (1, r.e), (0, b2n r.valid)])
  | 0xD58 => some (pack [(32, d.wgbVanish), (0, d.wgbNonfinite)])
  | _ => none

/-- The channel registers (R269). -/
def chReg (m : Mod) (t : Nat) (d : TileData) (o : Nat) : Option W64 :=
  if o = 0xE00 then some (pack [(32, d.stallLimit)])
  else if o = 0xE08 then
    let w := match shownWait m t d with
      | .csend h .. => some h
      | .crecv h .. => some h
      | _ => none
    some (pack [(32, d.copens.length), (16, d.handles.length), (7, b2n w.isSome), (0, w.getD 0)])
  else if o = 0xE10 then some (BitVec.ofNat 64 (maskOf (d.handles.map (·.1))))
  else if o = 0xE18 then some (pack [(32, d.dropped), (16, d.sendTimeouts), (0, d.recvTimeouts)])
  else if o < 0xE40 then some 0
  else if o < 0xEC0 then
    let k := (o - 0xE40) / 8
    some (pack ((List.range 4).map (fun i => (16 * i, mget 0 d.sigs (4 * k + i)))))
  else none

/-- The stream registers (R302). -/
def streamReg (d : TileData) (o : Nat) : Option W64 :=
  if o < 0xF60 then
    let q := queueOf d ((o - 0xF00) / 8)
    some (pack [(48, q.descs.length), (40, b2n q.reel), (32, completedOf q), (0, q.issued)])
  else if o = 0xF60 then some (BitVec.ofNat 64 d.bytesIn)
  else if o = 0xF68 then some (BitVec.ofNat 64 d.bytesOut)
  else if o = 0xF70 then
    let r := d.streamFault
    some (pack [(60, r.a), (52, r.b), (31, r.c), (30, r.e), (1, r.f), (0, b2n r.valid)])
  else if o = 0xF78 then some 0
  else none

/-- A tile as its registers show it now: nothing of a bundle that has not issued (R69, R122), the counters with a wait in progress, and a
stall in progress, which counts as CYC_WAIT_SYNC (R232). -/
def shownTile (m : Mod) (t : Nat) : TileData :=
  let d := countWait (nowOf m t) (seenTd m t)
  if d.st = .running || d.st = .waiting then addCtr 0 (heldFor m t) (addCtr 5 (heldFor m t) d) else d

/-- A word of the register block of a tile (R530). -/
def tileReg (m : Mod) (t o : Nat) : Option W64 :=
  let d := shownTile m t
  if o < 0x100 then csrValue m t d (o / 8)
  else if o < 0x800 then none
  else if o < 0x830 then nfReg d o
  else if o < 0x980 then cvReg d o
  else if o < 0x9A0 then maReg m t d o
  else if o < 0xA00 then none
  else if o < 0xCC0 then spReg d o
  else if o < 0xD00 then quantReg d o
  else if o < 0xD20 then xchReg m t d o
  else if o < 0xD40 then none
  else if o < 0xD60 then wgbReg d o
  else if o < 0xE00 then none
  else if o < 0xEC0 then chReg m t d o
  else if o < 0xF00 then none
  else if o < 0xF80 then streamReg d o
  else none

/-- Two 32-bit words as one 64-bit word, the first in the low half (R527). -/
def wordPair (a b : W32) : W64 := BitVec.ofNat 64 (a.toNat + 2 ^ 32 * b.toNat)

/-- A word of a tile window (R199). -/
def tileWord (m : Mod) (t o : Nat) : Option W64 :=
  let d := seenTd m t
  if o < 0x100000 then some (wordPair (spWord d o) (spWord d (o + 4)))
  else if o < 0x130000 then let w := (o - 0x100000) / 4; some (wordPair (wgbWord d w) (wgbWord d (w + 1)))
  else if o < 0x140000 then let w := (o - 0x130000) / 4; some (wordPair (mget 0 d.coll w) (mget 0 d.coll (w + 1)))
  else if o < 0x150000 then let w := (o - 0x140000) / 4; some (wordPair (mget 0 d.imem w) (mget 0 d.imem (w + 1)))
  else if o < 0x1F0000 then none
  else if o < 0x1F1000 then tileReg m t (o - 0x1F0000)
  else none

/-! ## Module and time (01 R27, 18 R502, 19 R524, 02 R56) -/

/-- STEPPING and NATIVE_PROFILE of a stepping (R27): both 1 on B1, 2 on C0. -/
def steppingNo (s : Stepping) : Nat :=
  match s with
  | .b1 => 1
  | .c0 => 2

/-- MODULE_SHAPE (R27). -/
def moduleShape (ch : Chip) : W64 :=
  pack [(32, 0x88888888), (24, steppingNo ch.stepping), (20, steppingNo ch.stepping), (16, 4), (0, 0x1400)]

/-- Bring-up phase encoding (R502). -/
def phaseNo (p : Phase) : Nat :=
  match p with
  | .rails => 0 | .atgen => 1 | .gondola => 2 | .stacks => 3 | .ready => 4 | .stackFail => 5

/-- PIN_STATUS (R524). -/
def pinStatus (m : Mod) : W64 :=
  pack [(8, b2n m.stuckHigh), (7, b2n m.barrierPin), (6, b2n (decide (srcNow m < m.tickInHigh))), (5, b2n m.haltRaw), (4, b2n m.box.halt), (3, b2n m.resetNPin),
    (2, b2n m.masterStrap), (0, m.position)]

/-- A tick and phase in the form of TICK_NOW. -/
def tickReg (t : BitVec 48) (phase : Nat) : W64 := pack [(48, phase), (0, t.toNat)]

/-- The time registers (R56); those of a job show the lowest-numbered partition that holds one, or partition 0
while none does (log entry 9). -/
def timeReg (m : Mod) (o : Nat) : Option W64 :=
  let x := partOf m ((jobPart m).getD 0)
  match o with
  | 0x00 => some (tickReg m.tick m.phase)
  | 0x08 => some (pack [(32, heldTicks m), (6, m.source), (4, lockNo m.lock), (2, b2n m.phaseEvent), (1, b2n m.expiredEvent), (0, b2n m.lostEvent)])
  | 0x10 => some (pack [(32, m.chatter), (16, m.phaseErr), (0, m.loss)])
  | 0x18 => some (pack [(32, x.stepNum.toNat), (0, x.superstep.toNat)])
  | 0x20 => some (pack [(32, x.slips), (16, x.slipLimit), (0, x.readyLead)])
  | 0x28 => some (pack [(48, x.stepAttempt), (0, (nextExchangeTick x).toNat)])
  | 0x30 => some (pack [(32, x.slipTotal), (0, x.lateEvents)])
  | _ => none

/-! ## Exchange, memory, NMU (08 R238, 10 R303 and R304, 11 R333) -/

/-- The partition exchange registers (R238). -/
def exchReg (m : Mod) (p o : Nat) : W64 :=
  let x := partOf m p
  match o with
  | 0x00 =>
    let cyc := match x.xphase with
      | .compute => 0
      | .exchange => xcycleAt x (partNow m p)
      | .stall => stallCycle x
    pack [(48, x.record), (46, match x.xphase with | .compute => 0 | .exchange => 1 | .stall => 2), (0, cyc % 2 ^ 20)]
  | 0x08 => pack [(32, x.stallTotal), (20, x.stallLongest), (0, x.stallCount)]
  | 0x10 => let r := x.exchFault; pack [(51, r.a), (45, r.b), (16, r.c), (8, r.e), (0, b2n r.valid)]
  | 0x18 => pack [(32, x.exchFaults), (0, x.lateTransfers)]
  | _ => 0

/-- PORT_XCH (R238). -/
def portXch (m : Mod) (q : Nat) : W64 :=
  let x := portOf m q
  pack [(48, x.linkDelay), (32, x.bufPeak), (16, x.late), (0, x.earlyHeld)]

/-- The stack registers (R303). -/
def stackReg (m : Mod) (n o : Nat) : W64 :=
  let s := stackOf m n
  match o with
  | 0x00 => pack [(32, s.corrected), (16, s.uncorrected), (0, scrubPasses s)]
  | 0x08 => pack [(34, s.ueBurst), (31, s.ueWord), (10, s.uePage), (0, b2n s.ueValid)]
  | 0x10 => pack ((List.range 5).map (fun i => (12 * i, mget 0 s.waitMax (i + 1))))
  | 0x18 => pack [(32, s.starveEvents), (0, s.starveLimit)]
  | _ => 0

/-- A DRAM window entry (R300). -/
def dwinWord (m : Mod) (w : Nat) : W64 :=
  let x := mget ({} : DWin) m.dwins w
  pack [(48, x.tag), (45, x.part), (22, x.first), (3, x.countM1), (2, b2n x.write), (1, b2n x.read), (0, b2n x.opened)]

/-- The tier, Winch and Reel registers and WIN_DENIED (R304). -/
def tierReg (m : Mod) (o : Nat) : Option W64 :=
  if o < 0x80 then
    let p := o / 0x10
    if o % 0x10 = 0 then some (pack [(32, (partOf m p).quotaC), (0, (partOf m p).quotaB)])
    else some (pack [(32, tierUse m p true), (0, tierUse m p false)])
  else if o = 0x80 then some (pack [(32, freeFrames m true), (0, freeFrames m false)])
  else if o = 0x88 then
    some (pack [(32, m.pagesDone), (0, (m.fills.map (fun f => f.pages.length)).foldl (· + ·) 0 + m.moves.length)])
  else if o < 0x100 then none
  else if o < 0x180 then
    let x := partOf m ((o - 0x100) / 0x10)
    if o % 0x10 = 0 then some (pack [(48, x.reelEntries), (0, x.reelList)])
    else some (pack [(32, x.reelDelivered), (16, x.reelWait.length % 2 ^ 16), (0, (x.reel.map (·.active)).foldl (· + ·) 0 % 2 ^ 16)])
  else if o = 0x180 then some (pack [(0, m.winDenied)])
  else none

/-- The NMU registers of a stack (R333). -/
def nmuReg (m : Mod) (n o : Nat) : W64 :=
  let s := stackOf m n
  match o with
  | 0x00 => nmuStatus m n
  | 0x08 => BitVec.ofNat 64 s.nmuElements
  | 0x10 => BitVec.ofNat 64 s.nmuNonfinite
  | 0x18 => BitVec.ofNat 64 s.wcConv
  | 0x20 => BitVec.ofNat 64 s.wcOvf
  | 0x28 => BitVec.ofNat 64 s.wcVan
  | 0x30 => let r := s.nmuError; pack [(50, r.a), (42, r.count), (10, r.b), (0, b2n r.valid)]
  | _ => 0

/-- NMU_PART_STATUS and GEN_CHECK (R333). -/
def nmuPartReg (m : Mod) (p o : Nat) : W64 :=
  let x := partOf m p
  let mine (f : Shard → Bool) : Nat := (m.shards.filter (fun e => e.2.valid && e.2.part == p && f e.2)).length
  match o with
  | 0x00 => pack [(32, mine (·.staged)), (16, mine (fun s => s.began && !s.staged)), (0, b2n x.commitIncomplete)]
  | 0x08 => pack [(32, x.genMismatches), (18, x.genFirstShard), (0, b2n x.genValid)]
  | _ => 0

/-- Page state encoding (R273). -/
def pageStateNo (s : PageSt) : Nat :=
  match s with
  | .unmapped => 0 | .b => 1 | .c => 2 | .moving => 3

/-- A page directory entry (R273). -/
def pageWord (m : Mod) (k : Nat) : W64 :=
  let x := pageOf m k
  pack [(62, pageStateNo x.state), (59, x.part), (58, b2n x.toC), (20, x.dest), (0, x.frame)]

/-- LAT(tile, n) (R299): with the seam term of the loaded job's profile, or of the native one. -/
def latEntry (ch : Chip) (m : Mod) (t n : Nat) : Nat :=
  let prof := match partOfTile m t with
    | some p => if (partOf m p).jstate = .none then steppingNo ch.stepping else (partOf m p).profile
    | none => steppingNo ch.stepping
  let a := stackTile n
  let d := 3 + dist (globR t) (globR a) + dist (globC t) (globC a) + seamCost prof * seamsBetween (globC t) (globC a)
    + 14 * (bridgeC (globC t) (globC a) + bridgeR (globR t) (globR a)) + 2
  2 * d + (if isC n then 136 else 96)

/-- A 32-bit word of a shard descriptor (R315). -/
def shardWord (s : Shard) (w : Nat) : W32 :=
  match w with
  | 0 => BitVec.ofNat 32 (packN [(31, b2n s.valid), (28, s.part), (24, s.algo), (22, s.wcFmt), (0, s.firstPage)])
  | 1 => BitVec.ofNat 32 (packN [(16, s.start), (0, s.tile)])
  | 2 => BitVec.ofNat 32 (s.signal <<< 26)
  | 3 => BitVec.ofNat 32 s.elements
  | 4 => s.gen
  | 5 => BitVec.ofNat 32 (b2n s.staged)
  | 6 => s.beta1
  | 7 => s.c1
  | 8 => s.beta2
  | 9 => s.c2
  | 10 => s.eps
  | 11 => s.decay
  | 12 => s.wcScale
  | _ => 0

/-! ## Fabric, recovery (13 R394, 14 R418) -/

/-- BRIDLE_CONTROL (R394). -/
def bridleReg (m : Mod) : W64 :=
  pack [(48, m.bridleTimeout), (45, m.bridlePart), (44, b2n m.bridleEnable), (3, b2n m.timeoutEvent), (2, b2n m.line), (1, b2n m.released)]

/-- FABRIC_ROLE to FABRIC_COUNTS (R394). -/
def fabricReg (m : Mod) (o : Nat) : Option W64 :=
  match o with
  | 0x00 => some (pack [(50, m.moduleNum), (48, m.position), (47, b2n m.masterStrap), (45, m.role)])
  | 0x08 => some (pack [(58, m.upstream), (0, m.children)])
  | 0x10 => some (pack [(32, m.masterDelay), (16, m.hopDelay), (8, m.tetherHops), (0, m.bridleHops)])
  | 0x18 => some (bridleReg m)
  | 0x20 => some (pack [(32, m.routeDrops), (0, m.forwarded)])
  | _ => none

/-- Link state encoding (R394). -/
def linkNo (l : LinkState) : Nat :=
  match l with
  | .down => 0 | .training => 1 | .up => 2 | .fault => 3

/-- The link registers of a port (R394). -/
def linkReg (m : Mod) (q k : Nat) : W64 :=
  let x := portOf m q
  match k with
  | 0 => pack [(62, linkNo x.state), (48, x.streamsUp), (0, x.faults)]
  | 1 => pack [(32, x.corrected), (16, x.redecodes), (8, x.replays), (0, x.crcFails)]
  | 2 => pack [(50, x.peerModule), (44, x.peerPort)]
  | _ => pack [(61, x.part), (60, b2n x.assigned)]

/-- Partition recovery state encoding (14). -/
def recNo (r : RecState) : Nat :=
  match r with
  | .idle => 0 | .running => 1 | .abandoning => 2 | .restartWait => 3 | .halted => 4 | .killedRetained => 5 | .scrubbing => 6 | .ended => 7

/-- LOSS_CONTROL (R418). -/
def lossControl (x : Part) : W64 :=
  pack [(32, x.lossThreshold.toNat), (19, x.lossTile), (18, b2n x.lossEnable), (16, x.lossScratch), (12, x.lossAlpha), (0, x.lossWarmup)]

/-- COVERED of a partition (R418): STEP_COMMIT is 1 and RESTORE_REQUIRED is 0. -/
def covered (x : Part) : Bool := x.stepCommit && !x.restoreRequired

/-- The step integrity registers of a partition (R418). -/
def stepReg (m : Mod) (p k : Nat) : W64 :=
  let x := partOf m p
  match k with
  | 0 => pack [(48, x.restartLead), (40, x.attemptLimit), (4, b2n x.retain), (3, b2n x.dynamic), (2, b2n x.stepCommit)]
  | 1 => pack [(32, x.faultStep.toNat), (0, x.faultWord.toNat)]
  | 2 => tickReg x.faultTick x.faultPhase
  | 3 => pack [(60, recNo x.rstate), (52, b2n x.abandonLost), (51, b2n x.restoreRequired), (50, b2n (covered x)), (49, b2n x.multi),
      (48, b2n x.faultValid), (0, x.restartTick.toNat)]
  | 4 => pack [(32, x.abandoned), (16, x.lateFaults), (0, x.scrubs)]
  | 5 => lossControl x
  | 6 => pack [(32, x.lossMean.toNat), (16, x.lossEvents), (8, x.lossSamples), (1, x.lossKind), (0, b2n x.lossValid)]
  | _ => pack [(32, x.lossValue.toNat), (0, x.lossStep.toNat)]

/-! ## Power, Gondola, Atgen (17 R480, 15 R444, 16 R461) -/

/-- POWER_STATUS (R480). -/
def powerStatus (m : Mod) : W64 := pack [(48, m.power.pin), (32, m.power.iin), (16, m.power.vin)]

/-- THERMAL_STATUS (R480). -/
def thermalStatus (m : Mod) : W64 :=
  pack [(56, m.power.dieMax), (48, m.power.stackMax), (40, m.power.inlet), (32, m.power.outlet),
    (0, maskOf (indices 8 (fun h => (halfSt m h).hot)))]

/-- HALF_POWER of a half (R480). -/
def halfPower (m : Mod) (h : Nat) : W64 :=
  let x := halfSt m h
  let clk := if m.power.active then 3 else match x.clk with
    | .full => 0
    | .half => 1
    | .toHalf => 2
    | .toFull => 2
  pack [(48, x.meanW), (32, x.allotW), (30, clk), (0, x.slow)]

/-- The power registers (R480). -/
def powerReg (m : Mod) (o : Nat) : Option W64 :=
  let p := m.power
  if o = 0x00 then some (powerStatus m)
  else if o = 0x08 then some (pack [(51, p.policy.pCeil), (43, p.policy.iCeil), (35, p.policy.clockCeil)])
  else if o = 0x10 then some (pack ((List.range 8).map (fun h => (8 * h, mget 0 p.policy.floors h))))
  else if o = 0x18 then some (pack [(48, b2n p.pending.isSome), (0, p.policyTick.toNat)])
  else if o < 0x60 then some (halfPower m ((o - 0x20) / 8))
  else if o = 0x60 then some (thermalStatus m)
  else if o = 0x68 then some (pack [(60, p.cause), (59, b2n p.active), (58, b2n p.valid), (48, p.phase), (0, p.tick.toNat)])
  else if o = 0x70 then some (pack [(48, p.stops), (16, p.stopTicks), (0, p.exceeded)])
  else if o = 0x78 then some (BitVec.ofNat 64 (Nat.min (p.energyUJ / 1000) (2 ^ 64 - 1)))
  else none

/-- MAILBOX_STATUS (R444). -/
def mailboxStatus (m : Mod) : W64 :=
  pack [(62, match m.box.st with | .idle => 0 | .running => 1 | .aborting => 2), (61, b2n m.box.halt), (32, m.box.opcode), (0, m.box.seq.toNat)]

/-- The progress word (R444): ELAPSED in µs of 800 cycles. -/
def progressWord (m : Mod) : W64 :=
  let el := if m.box.st = .idle then 0 else Nat.min ((srcNow m - m.box.acceptedAt) / 800) (2 ^ 32 - 1)
  pack [(48, m.box.lastStatus), (40, m.box.progress), (0, el)]

/-- KITE_COUNTS (R444). -/
def kiteCounts (m : Mod) : W64 :=
  pack [(48, m.box.busyRefusals), (32, m.box.crcDrops), (16, m.box.eventDrops), (8, m.box.halts), (0, m.box.duplicates)]

/-- ATGEN_STATUS (R461). -/
def atgenStatus (m : Mod) : W64 :=
  let a := m.atgen
  pack [(52, a.floor), (46, a.runningSvn), (45, b2n a.staged), (44, b2n a.fallback), (43, b2n a.bootB), (36, a.bootResult), (0, a.quoteCount)]

/-- Word k of a measurement, byte 8k in bits [63:56] (R461); a measurement not yet set reads zero. -/
def measureWord (l : List Byte) (k : Nat) : W64 := BitVec.ofNat 64 (beNat ((l.drop (8 * k)).take 8))

/-- The Atgen registers (R461). -/
def atgenReg (m : Mod) (o : Nat) : Option W64 :=
  if o = 0 then some (atgenStatus m)
  else if o < 0x38 then some (measureWord m.atgen.fwMeasure ((o - 8) / 8))
  else if o < 0x68 then some (measureWord m.atgen.configMeasure ((o - 0x38) / 8))
  else none

/-! ## Sums (20 R532 to R535) -/

/-- COLLECT_STATUS and the sums of a partition; the key of a sum is its offset over 8 (R533, R534). -/
def sumReg (m : Mod) (p o : Nat) : W64 :=
  let x := partOf m p
  if o = 0 then pack [(63, b2n x.saturated), (48, x.passes), (0, x.passTick.toNat)] else BitVec.ofNat 64 (mget 0 x.sums (o / 8))

/-- MODULE_EVENTS and the module sums (R534, R535). -/
def moduleSum (m : Mod) (o : Nat) : W64 := if o = 0 then BitVec.ofNat 64 m.events else BitVec.ofNat 64 (mget 0 m.msums (o / 8))

/-! ## Reduction engines (12 R367) -/

/-- A word of a reduction engine (R367). -/
def engineReg (m : Mod) (e o : Nat) : W64 :=
  let x := engineOf m e
  if o < 0x100 then
    let c := mget ({} : RCtx) x.ctx (o / 0x10)
    if o % 0x10 = 0 then
      pack [(48, c.tag), (45, c.part), (44, b2n c.valid), (40, c.window), (32, lowBits 8 c.lsb), (0, c.epoch)]
    else pack [(32, c.blocks), (16, c.widen), (0, c.stale)]
  else if o = 0x100 then reStatus m e
  else if o = 0x108 then
    let r := x.fault
    pack [(60, r.a), (58, r.b), (32, r.c), (16, r.count), (8, r.e), (0, b2n r.valid)]
  else if o = 0x110 then pack [(32, x.delivered), (0, x.outNonfinite)]
  else if o < 0x400 then 0
  else
    let r := mget ({} : Route) x.routes ((o - 0x400) / 0x10)
    if o % 0x10 = 0 then pack [(63, b2n r.valid), (59, r.job), (56, r.inputs), (24, r.last), (0, r.first)]
    else pack [(58, r.outPort), (52, r.outEngine), (48, r.tag), (47, b2n r.deliver), (16, r.delta), (0, r.transfer)]

/-- A contribution entry (R367). -/
def contribWord (m : Mod) (e k : Nat) : W64 :=
  let c := mget ({} : Contrib) (engineOf m e).contribs k
  pack [(63, b2n c.valid), (59, c.job), (48, c.shift), (0, c.first)]

/-! ## Channels and barriers (09 R270, R271) -/

/-- Endpoint state encoding (R270). -/
def epStateNo (s : EpState) : Nat :=
  match s with
  | .free => 0 | .opening => 1 | .opened => 2 | .closed => 3

/-- Endpoint kind encoding (09). -/
def epKindNo (k : EpKind) : Nat :=
  match k with
  | .none => 0 | .opq => 1 | .ring => 2 | .send => 3 | .sendMulti => 4

/-- CREDIT of a pool entry (R270). -/
def epCredit (e : Ep) : Nat :=
  if isSend e then (match e.credits with
    | [] => 0
    | c :: r => r.foldl Nat.min c)
  else e.credit

/-- The cycles for which a tile now waits on a pool entry: they are in its STALL (R259). -/
def stallNow (m : Mod) (n : Nat) : Nat :=
  let t := (epOf m n).owner
  let d := tdOf m t
  let on (h : Nat) : Nat := if handleEp m t h = some n then nowOf m t - d.wait.since else 0
  match d.st, d.wait.kind with
  | .waiting, .csend h .. => on h
  | .waiting, .crecv h .. => on h
  | _, _ => 0

/-- The registers of a pool entry (R270). -/
def epReg (m : Mod) (n k : Nat) : W64 :=
  let e := epOf m n
  match k with
  | 0 => pack [(61, epStateNo e.state), (58, epKindNo e.kind), (45, e.owner), (39, e.handle), (16, epCredit e), (0, e.tag)]
  | 1 => pack [(50, e.module), (35, e.target), (29, e.port), (13, e.region), (0, e.quota)]
  | 2 => pack [(32, e.messages), (0, Nat.min ((e.stall + stallNow m n) / 1024) (2 ^ 32 - 1))]
  | _ => pack [(48, e.dropped), (32, e.fullRet), (16, e.timeouts), (0, e.closedRet)]

/-- Barrier state encoding (R271). -/
def barNo (s : BarSt) : Nat :=
  match s with
  | .unused => 0 | .active => 1 | .broken => 2 | .retired => 3

/-- The registers of a barrier (R271). -/
def barReg (m : Mod) (b k : Nat) : W64 :=
  let x := barOf m b
  match k with
  | 0 => pack [(48, x.limit), (45, x.part), (32, x.participants), (25, x.cHi), (18, x.cLo), (12, x.rHi), (6, x.rLo), (0, b2n x.valid)]
  | 1 => pack [(61, barNo x.state), (58, x.cause), (32, x.stepGen % 65536), (16, x.gen % 65536), (0, x.arrived.length)]
  | 2 => pack [(48, x.lastTile), (0, x.lastTick.toNat)]
  | _ => pack [(32, x.releases), (16, x.breaks), (0, x.refused)]

/-- The tile of bit k of the masks of a barrier: the k-th of its rectangle in row-major order (R271). -/
def barTile (x : Bar) (k : Nat) : Nat := let w := x.cHi - x.cLo + 1; tileAt (x.rLo + k / w) (x.cLo + k % w)

/-- Word i of a mask of a barrier (R271). -/
def barMask (x : Bar) (l : List Nat) (i : Nat) : W64 :=
  let n := (x.rHi - x.rLo + 1) * (x.cHi - x.cLo + 1)
  BitVec.ofNat 64 (maskOf (indices 64 (fun j => x.valid && decide (64 * i + j < n) && l.contains (barTile x (64 * i + j)))))

/-- Does a tile wait in BWAIT at a barrier now: also one that its release or break has not reached (R263, R264)? -/
def waitsAt (m : Mod) (b t : Nat) : Bool :=
  match shownWait m t (tdOf m t) with
  | .bwait b' _ _ => b' == b
  | _ => false

/-- A word of the masks of a barrier (R271): arrivals, then the members that wait in BWAIT. -/
def barMaskWord (m : Mod) (b i : Nat) : W64 :=
  let x := barOf m b
  if i < 80 then barMask x x.arrived i else barMask x ((m.tiles.map (·.1)).filter (waitsAt m b)) (i - 80)

/-! ## The whole map (R525, R530, R531) -/

/-- A word of the control space at an offset (R530); none for an unmapped one. -/
def controlWord (ch : Chip) (m : Mod) (o : Nat) : Option W64 :=
  let within (lo hi : Nat) : Bool := decide (lo ≤ o) && decide (o ≤ hi)
  if o = 0x10 then some (moduleShape ch)
  else if o = 0x100 then some (pack [(0, m.resetTile)])
  else if o = 0x108 then some (pack [(62, m.resetLast), (58, phaseNo m.bringup), (0, m.stacksOk)])
  else if o = 0x110 then some (pack [(48, m.warmResets), (16, m.tileResets)])
  else if o = 0x200 then some (pinStatus m)
  else if within 0x300 0x3FF then some (moduleSum m (o - 0x300))
  else if within 0x1000 0x1037 then timeReg m (o - 0x1000)
  else if within 0x2000 0x21FF then some (exchReg m ((o - 0x2000) / 0x40) (o % 0x40))
  else if within 0x2200 0x2397 then some (portXch m ((o - 0x2200) / 8))
  else if within 0x3000 0x37FF then some (stackReg m ((o - 0x3000) / 0x40) (o % 0x40))
  else if within 0x3800 0x3987 then tierReg m (o - 0x3800)
  else if within 0x4000 0x41FF then some (dwinWord m ((o - 0x4000) / 8))
  else if within 0x5000 0x57FF then some (nmuReg m ((o - 0x5000) / 0x40) (o % 0x40))
  else if within 0x5800 0x58FF then some (nmuPartReg m ((o - 0x5800) / 0x20) (o % 0x20))
  else if within 0x6000 0x6027 then fabricReg m (o - 0x6000)
  else if within 0x6100 0x675F then some (linkReg m ((o - 0x6100) / 0x20) (o % 0x20 / 8))
  else if within 0x7000 0x71FF then some (stepReg m ((o - 0x7000) / 0x40) (o % 0x40 / 8))
  else if within 0x8000 0xCE1F then some (pack ((List.range 4).map (fun i => (16 * i, mget 0 m.fwd ((o - 0x8000) / 2 + i)))))
  else if within 0xD000 0xD07F then powerReg m (o - 0xD000)
  else if o = 0xE000 then some (mailboxStatus m)
  else if o = 0xE008 then some (kiteCounts m)
  else if within 0xE100 0xE167 then atgenReg m (o - 0xE100)
  else if within 0xF000 0xFFFF then some (sumReg m ((o - 0xF000) / 0x200) (o % 0x200))
  else if within 0x10000 0x297FF then some (engineReg m ((o - 0x10000) / 0x800) (o % 0x800))
  else if within 0x30000 0x95FFF then some (contribWord m ((o - 0x30000) / 0x2000) (o % 0x2000 / 8))
  else if within 0x1000000 0x10FFFFF then some (epReg m ((o - 0x1000000) / 0x20) (o % 0x20 / 8))
  else if within 0x1100000 0x111FFFF then some (barReg m ((o - 0x1100000) / 0x20) (o % 0x20 / 8))
  else if within 0x1140000 0x115FFFF then some (mget 0 m.cgroups ((o - 0x1140000) / 8))
  else if within 0x1200000 0x16FFFFF then some (barMaskWord m ((o - 0x1200000) / 0x500) ((o - 0x1200000) % 0x500 / 8))
  else if within 0x2000000 0x287FFFF then some (pageWord m ((o - 0x2000000) / 8))
  else if within 0x3000000 0x304FFFF then
    let t := (o - 0x3000000) / 64
    some (pack ((List.range 4).map (fun i => (16 * i, latEntry ch m t ((o - 0x3000000) % 64 / 2 + i)))))
  else if within 0x4000000 0x40FFFFF then
    let s := shardOf m ((o - 0x4000000) / 0x40)
    let w := o % 0x40 / 4
    some (wordPair (shardWord s w) (shardWord s (w + 1)))
  else if within 0x5000000 0x53FFFFF then some (mget 0 (partOf m ((o - 0x5000000) / 0x80000)).records (o % 0x80000 / 8))
  else if within 0x5400000 0x540FFFF then
    some (((mget 0 (partOf m ((o - 0x5400000) / 0x2000)).groups (o % 0x2000 / 8))).zeroExtend 64)
  else if within 0x6000000 0x92FFFFF then
    let v := (mget 0 (portOf m ((o - 0x6000000) / 0x100000)).inbound (o % 0x100000 / 16)).toNat
    some (BitVec.ofNat 64 (if o % 16 = 0 then v else v / 2 ^ 64))
  else none

/-- Start of the tile space (R525). -/
abbrev tileBase : Nat := 0x800000000000
/-- End of the tile space (R525). -/
abbrev tileEnd : Nat := 0x800280000000
/-- Start of the control space (R525). -/
abbrev ctlBase : Nat := 0xF00000000000

/-- The 64-bit word at a device address that is a multiple of 8 (R525, R527); none for an unmapped one. -/
def regWord (ch : Chip) (m : Mod) (a : Nat) : Option W64 :=
  if tileBase ≤ a ∧ a < tileEnd then tileWord m ((a - tileBase) / 0x200000) ((a - tileBase) % 0x200000)
  else if ctlBase ≤ a ∧ a < ctlBase + 0x100000000 then controlWord ch m (a - ctlBase)
  else none

end Sys2Proof.Machine
end

