-- ==== Sys2Proof/Machine/Collect.lean ====
section
/-! DEFINITION. The collection pass over the source counters, the sums and the event summary (20 R532 to R535). -/

namespace Sys2Proof.Machine

/-! ## Sources (tables Partition sum offsets and Module sum offsets) -/

/-- The source counters of a tile: the key of its sum (offset over 8) and its value. -/
def tileSource (d : TileData) (k : Nat) : Nat :=
  match k with
  | 1 => d.nfResults
  | 2 => d.nfInvalid
  | 3 => d.nfOverflow
  | 4 => d.nfDivzero
  | 5 => d.maNonfinite
  | 6 => d.maCellOps / 1024
  | 7 => d.maGatedOps / 1024
  | 8 => d.wgbNonfinite
  | 9 => d.wgbVanish
  | 10 => d.quantConv
  | 11 => d.quantVan
  | 13 => d.dropped
  | 14 => d.sendTimeouts
  | 15 => d.recvTimeouts
  | 16 => d.bytesIn
  | 17 => d.bytesOut
  | _ => if 32 ≤ k then mget 0 d.cv (k - 32) else 0

/-- Width of a source counter that saturates; 0 for one that cannot. -/
def tileSourceWidth (k : Nat) : Nat :=
  if k = 8 ∨ k = 9 ∨ k = 13 then 32 else if k = 14 ∨ k = 15 then 16 else if k = 10 ∨ k = 11 ∨ k = 16 ∨ k = 17 ∨ (32 ≤ k ∧ k ≤ 61) then 64 else 0

/-- Number of the first source of the engine contexts; below it are the sources of the tiles, 64 numbers for each. -/
abbrev srcCtx : Nat := 400000
/-- Number of the first source of the stacks, 8 numbers for each. -/
abbrev srcStack : Nat := 500000
/-- Number of the first source of the ports, 2 numbers for each. -/
abbrev srcPort : Nat := 600000

/-- The source counters of a stack: key of the module sum 1 to 6. -/
def stackSource (s : Stack) (k : Nat) : Nat :=
  match k with
  | 1 => s.nmuNonfinite
  | 2 => s.wcConv
  | 3 => s.wcOvf
  | 4 => s.wcVan
  | 5 => s.corrected
  | _ => s.uncorrected

/-- The present value of a source. -/
def srcValue (m : Mod) (k : Nat) : Nat :=
  if k < srcCtx then tileSource (seenTd m (k / 64)) (k % 64)
  else if k < srcStack then (ctxOf m ((k - srcCtx) / 16) (k % 16)).widen
  else if k < srcPort then stackSource (stackOf m ((k - srcStack) / 8)) ((k - srcStack) % 8)
  else if k % 2 = 0 then (portOf m ((k - srcPort) / 2)).replays
  else (portOf m ((k - srcPort) / 2)).crcFails

/-- The partition a source counts into; 8 for the module, none for a tile or context of no partition (R534). -/
def srcPart (m : Mod) (k : Nat) : Option Nat :=
  if k < srcCtx then partOfTile m (k / 64)
  else if k < srcStack then
    let c := ctxOf m ((k - srcCtx) / 16) (k % 16)
    if c.valid then some c.part else none
  else some 8

/-- The key of the sum a source counts into. -/
def srcKey (k : Nat) : Nat :=
  if k < srcCtx then k % 64 else if k < srcStack then 12 else if k < srcPort then (k - srcStack) % 8 else 7 + k % 2

/-- Is a value the saturation value of its source? -/
def srcSaturated (k v : Nat) : Bool :=
  let w := if k < srcCtx then tileSourceWidth (k % 64) else if k < srcStack then 16 else 0
  w != 0 && v == 2 ^ w - 1

/-- The sources that are not zero or were not zero at the last read. -/
def liveSources (m : Mod) : List Nat :=
  let l := m.tiles.flatMap (fun e => (indices 64 (fun k => tileSource e.2.d k != 0)).map (64 * e.1 + ·)) ++
    m.engines.flatMap (fun e => e.2.ctx.filterMap (fun c => if c.2.widen != 0 then some (srcCtx + 16 * e.1 + c.1) else none)) ++
    m.stk.flatMap (fun e => (indices 7 (fun k => k != 0 && stackSource e.2 k != 0)).map (srcStack + 8 * e.1 + ·)) ++
    m.ports.flatMap (fun e => [srcPort + 2 * e.1, srcPort + 2 * e.1 + 1].filter (fun k => srcValue m k != 0))
  l ++ m.lasts.map (·.1)

/-! ## The pass (R532, R533) -/

/-- The bits of MODULE_EVENTS that the units show now (R535). -/
def moduleEvents (m : Mod) : Nat :=
  let tile (p : TileData → Bool) : Bool := m.tiles.any (fun e => p e.2.d)
  let part (p : Part → Bool) : Bool := m.parts.any (fun e => p e.2)
  let stack (p : Stack → Bool) : Bool := m.stk.any (fun e => p e.2)
  packN [(16, b2n (part (·.lossValid))), (15, b2n (part (fun x => x.faultValid || x.abandonLost))), (14, b2n m.power.valid),
    (13, b2n (m.stuckHigh || m.timeoutEvent)), (12, b2n (m.lostEvent || m.expiredEvent || m.phaseEvent)),
    (11, b2n (part (fun x => x.genValid || x.commitIncomplete))), (10, b2n (stack (·.nmuError.valid))), (9, b2n (stack (·.ueValid))),
    (8, b2n (m.engines.any (fun e => e.2.fault.valid))), (7, b2n (part (·.exchFault.valid))), (6, b2n (tile (·.wgbEvents.valid))),
    (5, b2n (tile (·.quantFault.valid))), (4, b2n (tile (·.streamFault.valid))), (3, b2n (tile (·.spParity.valid))),
    (2, b2n (tile (fun d => d.regions.any (fun r => r.2.badEvent)))), (1, b2n (tile (·.nfFirst.valid))), (0, b2n (tile (·.trap.valid)))]

/-- What a pass reads: every source of a partition or of the module. -/
def readSources (m : Mod) : SMap (Nat × Nat) :=
  (liveSources m).foldl (fun a k => match srcPart m k with
    | some p => mput k (srcValue m k, p) a
    | none => a) []

/-- Does Gondola run its firmware? -/
def firmwareRuns (m : Mod) : Bool := m.bringup == .ready || m.bringup == .stackFail

/-- COLLECTION_PASS (R532): at cycle 0 of a tick that is a multiple of 1,024, unless a pass runs. -/
def execCollectionPass (s : State) : Ans :=
  onMod (fun m =>
    if m.passRunning || m.tick.toNat % 1024 ≠ 0 || m.phase ≠ 0 || !firmwareRuns m then m
    else { m with passRunning := true, passStart := m.tick, passVals := readSources m, passEvents := moduleEvents m }) s

/-- One source is added to its sum (R533). -/
def collectSource (m : Mod) (e : Nat × (Nat × Nat)) : Mod :=
  let k := e.1; let v := e.2.1; let p := e.2.2
  let last := mget 0 m.lasts k
  let d := if last ≤ v then v - last else v
  let m := { m with lasts := mset 0 m.lasts k v }
  if p = 8 then { m with msums := mmod 0 m.msums (srcKey k) (fun x => satAdd 64 x d) }
  else modPart p (fun x => { x with sums := mmod 0 x.sums (srcKey k) (fun y => satAdd 64 y d), saturated := x.saturated || srcSaturated k v }) m

/-- COLLECTION_PASS_COMPLETE (R532, R533, R535): the sums, COLLECT_STATUS and MODULE_EVENTS take their new values. -/
def execCollectionPassComplete (s : State) : Ans :=
  onMod (fun m =>
    if !m.passRunning then m
    else
      let m := (List.range 8).foldl (fun m p => modPart p (fun x => { x with
        saturated := false, passes := Nat.min (x.passes + 1) 0x7FFF, passTick := m.passStart }) m) m
      let m := m.passVals.foldl collectSource m
      { m with passRunning := false, passVals := [], events := m.passEvents }) s

/-- Set last to the present value of the sources that satisfy a test (R534), in a running pass too. -/
def rebaseSources (p : Nat → Bool) (m : Mod) : Mod :=
  ((liveSources m).filter p).foldl (fun m k => { m with
    lasts := mset 0 m.lasts k (srcValue m k)
    passVals := m.passVals.map (fun e => if e.1 = k then (k, (srcValue m k, e.2.2)) else e) }) m

/-- The sources of the tiles of the halves of a mask. -/
def halfSources (mask k : Nat) : Bool := decide (k < srcCtx) && bit mask (halfOf (k / 64))

/-- The sources of a partition. -/
def partSources (m : Mod) (p k : Nat) : Bool := srcPart m k == some p

end Sys2Proof.Machine
end

