-- ==== Sys2Proof/Machine/Fabric.lean ====
section
/-! DEFINITION. The commands of identity, role, tick tree, link training and tick acquisition (15 R431; 13 R384, R385, R393; 18 R494 to
R499). -/

namespace Sys2Proof.Machine

/-- Does a job run, or is it armed to run? -/
def jobRuns (x : Part) : Bool := x.jstate == .armed || x.jstate == .running
/-- Is a job loaded and not ended (R276)? -/
def jobLive (x : Part) : Bool := x.jstate == .loaded || jobRuns x
/-- Does any partition satisfy a test? -/
def anyPart (m : Mod) (f : Part → Bool) : Bool := (List.range 8).any (fun p => f (partOf m p))

/-! ## Identity and numbers (R385, R431) -/

/-- The identity block (R431): in recovery FW_VERSION reads 0 (R456). -/
def identityBlock (ch : Chip) (m : Mod) : List W32 :=
  bytesWords (leBytes 8 (moduleShape ch).toNat ++ (m.atgen.serial ++ List.replicate (16 - m.atgen.serial.length) 0) ++
    leBytes 4 (if inRecovery m then 0 else m.atgen.runningVersion.toNat) ++ leBytes 2 m.moduleNum ++ leBytes 1 m.position ++ leBytes 1 m.role)

/-- IDENTIFY. -/
def execIdentify (f : Frame) (s : State) : Ans :=
  execCommandChip f 0x0001 false (fun ch m =>
    checked [(!plainOk f [], stBadCommand)] m { status := stOk, w := identityBlock ch m, m }) s

/-- SET_MODULE_NUM (R385): refused while any job is loaded. -/
def execSetModuleNum (f : Frame) (s : State) : Ans :=
  execCommand f 0x0002 false (fun m =>
    checked [(!plainOk f [(0, 0x3FFF)], stBadCommand), (decide (9999 < arg f 0), stBadArgument),
      (anyPart m (fun x => x.jstate != .none), stJobRunning)] m (done { m with moduleNum := arg f 0 })) s

/-- Does the module receive accepted ticks (R384): one within 8 tick periods (R34)? -/
def receivesTick (m : Mod) : Bool :=
  m.role != roleMaster && (m.lock == .locked || (match m.lastEdge with
    | some l => decide (sinceInstant l (instant m) < 81920)
    | none => false))

/-- Would a setting break a limit of R393 that the module knows of: children below a board master that is 4 Tether hops from the system
master, or D over 8 ticks (log entry 133)? -/
def breaksLimit (m : Mod) (u c : Nat) : Bool :=
  (m.role != roleMaster && c != 0 && u == m.upstream && decide (4 ≤ m.tetherHops)) || (m.role == roleMaster && decide (5120 < reportMax m))

/-- The Spar port of a position that leads to position 0 (R369). -/
def sparToMaster (position : Nat) : Nat := if position = 1 then 48 else if position = 2 then 50 else 49

/-- ROLE_CONFIRM (R384, R393): the system master has no upstream, and takes its tick from its local reference. One in EXPIRED waits
for its TICK_SYNC (R500). -/
def execRoleConfirm (f : Frame) (s : State) : Ans :=
  execCommand f 0x0003 false (fun m =>
    checked [(!plainOk f [], stBadCommand), (!m.masterStrap || m.position != 0 || receivesTick m, stRoleConflict),
      (m.upstream != 63 || breaksLimit m m.upstream m.children, stLimit)] m
      (done { m with role := roleMaster, source := 3, holdTicks := heldTicks m, lock := if m.lock = .expired then .expired else .locked })) s

/-- May a module have an upstream port (R383, R393, R394): a Tether port for a board master, for a board peer its Spar port to position 0, none
for the system master? -/
def upstreamFits (m : Mod) (u : Nat) : Bool :=
  u == 63 || (m.role != roleMaster && (if m.position = 0 then decide (u < 48) else u == sparToMaster m.position))

/-- SET_TICK_TREE (R383, R392, R393): position 0 is the board master (R368). -/
def execSetTickTree (f : Frame) (s : State) : Ans :=
  execCommand f 0x0004 false (fun m =>
    let u := arg f 0
    let c := arg f 1 + 2 ^ 32 * arg f 2
    checked [(!plainOk f [(0, 0x3F), (1, all32), (2, 0xFFFF)], stBadCommand), (decide (50 < u) && u != 63, stBadArgument),
      (anyPart m jobRuns, stJobRunning), (!upstreamFits m u || bit c u || breaksLimit m u c, stLimit)] m
      (done { m with
        upstream := u, children := c
        role := if m.role = roleMaster then roleMaster else if m.position = 0 then roleBoard else rolePeer })) s

/-! ## Link training (R385, R429, R494 to R496) -/

/-- Ports of a mask that satisfy a test. -/
def portsWhere (m : Mod) (mask : Nat) (p : Port → Bool) : Bool := (maskBits 51 mask).any (fun q => p (portOf m q))

/-- LINK_TRAIN (R429, R494): with no MODULE_NUM it completes with BAD_ARGUMENT and trains nothing. -/
def execLinkTrain (f : Frame) (s : State) : Ans :=
  execCommand f 0x0005 false (fun m =>
    let mask := argPorts f 0
    checked [(!plainOk f [(0, all32), (1, 0x7FFFF)], stBadCommand),
      (portsWhere m mask (fun x => x.state == .training), stInProgress),
      (portsWhere m mask (fun x => x.assigned && jobRuns (partOf m x.part)), stJobRunning)] m
      (if m.moduleNum = 0x3FFF then { done m with after := commandDone 0x0005 f.seq 0xFF stBadArgument }
       else
        let m := (maskBits 51 mask).foldl (fun m q => trainPort q m) m
        done { m with training := m.training ++ [(mask, f.seq)] })) s

/-- LINK_DELAY limit of a port (table Link figures). -/
def delayLimit (q : Nat) : Nat := if q < 48 then 1152 else 192

/-- A port fails a stage of its training (R494): DOWN, with a LINK event. -/
def trainFails (q : Nat) (m : Mod) : Mod :=
  let x := portOf m q
  hostEvent 0x07 (if x.assigned then x.part else 0xFF) q 3 0 (modPort q (fun x => { x with state := .down, streamsUp := 0 }) m)

/-- The last stages of the training of a port (R494 to R496): LINK_DELAY is half of the largest of the 256 round trips less turnaround,
rounded up to whole cycles. A retrained port keeps a delay that lies within 2 cycles; another puts it in FAULT. -/
def trainEnds (up retrain : Bool) (q : Nat) (m : Mod) : Mod :=
  let x := portOf m q
  let d := (x.echoMax + 31) / 32
  if !up || x.echoCount ≠ 256 || decide (delayLimit q < d) then trainFails q m
  else if retrain && decide (2 < dist d x.loadDelay) then faultPort q (modPort q (fun x => { x with delayBad := true }) m)
  else
    let m := modPort q (fun x => { x with state := .up, linkDelay := if retrain then x.linkDelay else d }) m
    if retrain then hostEvent 0x07 (if x.assigned then x.part else 0xFF) q 2 0 m else m

/-- Ports in TRAINING outside every LINK_TRAIN: those that a recovery retrains (R401 step 8). -/
def retraining (m : Mod) : List Nat :=
  indices 51 (fun q => (portOf m q).state == .training && !m.training.any (fun c => bit c.1 q))

/-- LINK_TRAIN_COMPLETE (R494 to R496): the training of the oldest LINK_TRAIN ends, else that of the ports a recovery retrains; `upMask`
says which ports pass their stages. -/
def execLinkTrainComplete (upMask : Nat) (s : State) : Ans :=
  onMod (fun m =>
    match m.training with
    | [] => (retraining m).foldl (fun m q => trainEnds (bit upMask q) true q m) m
    | (mask, seq) :: rest =>
      let ports := (maskBits 51 mask).filter (fun q => (portOf m q).state == .training)
      let m := ports.foldl (fun m q => trainEnds (bit upMask q) false q m) { m with training := rest }
      let ok := (maskBits 51 mask).all (fun q => (portOf m q).state == .up)
      commandDone 0x0005 seq 0xFF (if ok then stOk else stLinkDown) m) s

/-! ## Tick acquisition (R498, R499) -/

/-- TICK_SYNC (R429, R498, R499): a module other than the system master begins by measuring its upstream hop (R390). -/
def execTickSync (f : Frame) (s : State) : Ans :=
  execCommand f 0x0006 false (fun m =>
    let n := arg48 f 1
    let master := m.role == roleMaster
    checked [(!plainOk f [(1, all32), (2, 0xFFFF)], stBadCommand), (m.syncing != none, stInProgress),
      (master && anyPart m jobRuns, stBadArgument), (!master && (m.upstream == 63 || n != 0), stBadArgument),
      (!master && (portOf m m.upstream).state != .up, stLinkDown)] m
      (let m := { m with syncing := some (f.seq, srcNow m, if master then some (BitVec.ofNat 48 n) else none), reports := [] }
       done (if master then m else askEcho m.upstream m))) s

end Sys2Proof.Machine
end

