-- ==== Sys2Proof/Machine/Placement.lean ====
section
/-! DEFINITION. The commands of partitions, ports, quotas, pages, DRAM data and windows (15 R431 to R433; 10 R276 to R278, R300;
07 R203). -/

namespace Sys2Proof.Machine

/-! ## Pages -/

/-- The pages first to first + n − 1. -/
def pageRun (first n : Nat) : List Nat := (List.range n).map (first + ·)
/-- Is a page of an accepted MAP still being zero-filled? -/
def inFill (m : Mod) (k : Nat) : Bool := m.fills.any (fun f => f.pages.any (fun x => x.1 == k))
/-- Does a page keep placement commands away (R429): zero-filled or MOVING? -/
def pageBusy (m : Mod) (k : Nat) : Bool := inFill m k || (pageOf m k).state == .moving
/-- Return the frames of pages (R276). -/
def unmapPages (l : List Nat) (m : Mod) : Mod := l.foldl (fun m k => modPage k (fun _ => {}) m) m
/-- The pages of the objects of a partition's job that are still mapped for it (R437). -/
def objectPages (m : Mod) (p : Nat) : List Nat :=
  ((partOf m p).objects.flatMap (fun o => pageRun o.firstPage o.pages)).filter (fun k =>
    isMapped (pageOf m k) && (pageOf m k).part == p && (pageOf m k).state != .moving)
/-- Is a run of pages outside the DRAM range, or empty? -/
def badRun (first n : Nat) : Bool := n == 0 || decide (pageCount < first + n)

/-! ## Partitions (R432, R492) -/

/-- Would a dissolved partition leave pages, ports or DRAM windows (R432)? -/
def stillHolds (m : Mod) (p : Nat) : Bool :=
  m.dir.any (fun e => isMapped e.2 && e.2.part == p) || m.fills.any (fun f => f.part == p) || !(portsOf m p).isEmpty ||
    m.dwins.any (fun e => e.2.opened && e.2.part == p)

/-- PART_SET (R432, R492, R534): 0 dissolves the partition, after the pages of its last job's objects are unmapped (R437). -/
def execPartSet (f : Frame) (s : State) : Ans :=
  execCommandChip f 0x0101 false (fun ch m =>
    let p := argPart f
    let mask := arg f 1
    let old := (partOf m p).halves
    let others := (List.range 8).any (fun r => r != p && (partOf m r).halves &&& mask != 0)
    let freed := unmapPages (objectPages m p) m
    checked [(!plainOk f [(0, 7), (1, 0xFF)], stBadCommand), ((partOf m p).rstate != .idle, stPartState), (others, stNotFree),
      (mask == 0 && stillHolds freed p, stNotFree)] m
      (if mask = 0 then
        done (modPart p (fun x => { x with halves := 0, jstate := .none, objects := [] }) (resetPartition p (idleEngines ch p freed)))
       else done (rebaseSources (halfSources (mask &&& (0xFF ^^^ old))) (modPart p (fun x => { x with halves := mask }) m)))) s

/-- PART_PORTS (R386, R392, R432): the ports of the mask are those of the partition. -/
def execPartPorts (f : Frame) (s : State) : Ans :=
  execCommand f 0x0102 false (fun m =>
    let p := argPart f
    let mask := argPorts f 1
    checked [(!plainOk f [(0, 7), (1, all32), (2, 0x7FFFF)], stBadCommand), (jobRuns (partOf m p), stJobRunning),
      (portsWhere m mask (fun x => x.assigned && x.part != p), stNotFree)] m
      (done ((List.range 51).foldl (fun m q =>
        if bit mask q then modPort q (fun x => { x with part := p, assigned := true }) m
        else if (portOf m q).assigned && (portOf m q).part == p then modPort q (fun x => { x with part := 0, assigned := false }) m
        else m) m))) s

/-- SET_QUOTA (R277). -/
def execSetQuota (f : Frame) (s : State) : Ans :=
  execCommand f 0x0103 false (fun m =>
    let p := argPart f
    checked [(!plainOk f [(0, 7), (1, all32), (2, all32)], stBadCommand),
      (decide (framesB < arg f 1) || decide (framesC < arg f 2), stBadArgument),
      (decide (arg f 1 < tierUse m p false) || decide (arg f 2 < tierUse m p true), stQuota)] m
      (done (modPart p (fun x => { x with quotaB := arg f 1, quotaC := arg f 2 }) m))) s

/-! ## Placement (R276 to R278, R429) -/

/-- MAP (R276, R277, R429): the zero fill goes on after the answer. -/
def execMap (f : Frame) (s : State) : Ans :=
  execCommand f 0x0104 false (fun m =>
    let p := argPart f
    let tc := bit (arg f 0) 8
    let n := arg f 2
    let run := pageRun (arg f 1) n
    checked [(!plainOk f [(0, 0x107), (1, all32), (2, all32)], stBadCommand), (badRun (arg f 1) n, stBadArgument),
      (run.any (pageBusy m), stInProgress), (run.any (fun k => isMapped (pageOf m k)), stNotFree),
      (decide (quotaOf m p tc < tierUse m p tc + n), stQuota), (decide (freeFrames m tc < n), stNoFrame)] m
      (let r := takeFrames tc n (sortUp (usedFrames m tc)) m
       done { r.2 with fills := r.2.fills ++ [{ pages := run.zip r.1, part := p, tierC := tc, seq := f.seq, report := true }] })) s

/-- MOVE (R276 to R278, R429): pages already in the named tier stay. -/
def execMove (f : Frame) (s : State) : Ans :=
  execCommand f 0x0105 false (fun m =>
    let p := argPart f
    let tc := bit (arg f 0) 8
    let n := arg f 2
    let run := pageRun (arg f 1) n
    let go := run.filter (fun k => pageTierC (pageOf m k) != tc)
    checked [(!plainOk f [(0, 0x107), (1, all32), (2, all32)], stBadCommand), (badRun (arg f 1) n, stBadArgument),
      (run.any (pageBusy m), stInProgress), (run.any (fun k => !isMapped (pageOf m k) || (pageOf m k).part != p), stNotOwned),
      (decide (quotaOf m p tc < tierUse m p tc + go.length), stQuota), (decide (freeFrames m tc < go.length), stNoFrame)] m
      (let r := takeFrames tc go.length (sortUp (usedFrames m tc)) m
       let g := r.2.groupNo
       let m := (go.zip r.1).foldl (fun m x => modPage x.1 (fun y => { y with state := .moving, toC := tc, dest := x.2 }) m) r.2
       let m := { m with
         groupNo := g + 1, moves := m.moves ++ go.map (fun k => ({ page := k, asked := 0, unread := [], written := 0, group := g } : Mv))
         mvGroups := m.mvGroups ++ [{ group := g, part := p, seq := f.seq }] }
       { done m with after := moveGroupDone g })) s

/-- UNMAP (R276, R429): contents are not cleared. -/
def execUnmap (f : Frame) (s : State) : Ans :=
  execCommand f 0x0106 false (fun m =>
    let p := argPart f
    let n := arg f 2
    let run := pageRun (arg f 1) n
    checked [(!plainOk f [(0, 7), (1, all32), (2, all32)], stBadCommand), (badRun (arg f 1) n, stBadArgument),
      (run.any (pageBusy m), stInProgress), (run.any (fun k => isMapped (pageOf m k) && jobLive (partOf m (pageOf m k).part)), stJobRunning),
      (run.any (fun k => !isMapped (pageOf m k) || (pageOf m k).part != p), stNotOwned)] m
      (done (unmapPages run m))) s

/-! ## DRAM data (R433, R526) -/

/-- The pages that bytes of the DRAM range lie in. -/
def pagesOfBytes (a n : Nat) : List Nat := pageRun (a / 0x200000) ((a + n - 1) / 0x200000 + 1 - a / 0x200000)

/-- What refuses an access of the host to DRAM bytes: their count, their alignment to words, unmapped pages, pages of another partition. -/
def memChecks (m : Mod) (p a n : Nat) : List (Bool × Nat) :=
  [(decide (n < 4) || decide (1048576 < n) || n % 4 != 0 || a % 4 != 0, stBadArgument),
    (decide (dramEnd < a + n) || (pagesOfBytes a n).any (fun k => !isMapped (pageOf m k)), stUnmapped),
    ((pagesOfBytes a n).any (fun k => (pageOf m k).part != p), stNotOwned)]

/-- The burst pieces of DRAM bytes. -/
def memPieces (a n : Nat) : List Piece := splitPieces (n / 256 + 2) a n 0

/-- Gondola reads one piece (R292 rank 1, R296, R297, R318): whether a word is uncorrectable, the words, the module. -/
def memReadPiece (x : Piece) (m : Mod) : Bool × List W32 × Mod :=
  let page := x.addr / 0x200000
  let k := x.addr % 0x200000 / 256
  let b := pageBurst m page k
  let m := gondolaTurn b m
  let e := eccRead b m
  (!e.1.isEmpty, ((serveWords m page k (burstWords m b)).drop (x.addr % 256 / 4)).take (x.len / 4), e.2)

/-- Read DRAM bytes. -/
def memRead : List Piece → Bool × List W32 × Mod → Bool × List W32 × Mod
  | [], r => r
  | x :: l, (bad, ws, m) => let y := memReadPiece x m; memRead l (bad || y.1, ws ++ y.2.1, y.2.2)

/-- MEM_READ (R433): an uncorrectable word is noted, and no data returned. -/
def execMemRead (f : Frame) (s : State) : Ans :=
  execCommand f 0x0107 true (fun m =>
    let a := arg48 f 1
    checked ((!plainOk f [(0, 7), (1, all32), (2, 0xFFFF), (3, all32)], stBadCommand) :: memChecks m (argPart f) a (arg f 3)) m
      (let r := memRead (memPieces a (arg f 3)) (false, [], m)
       let most := arg f 3 / 4
       if r.1 then { refuse stUncorrectable r.2.2 with most } else { status := stOk, data := wordsBytes r.2.1, m := r.2.2, most })) s

/-- Gondola writes one piece (R286, R296, R320); the words it replaces, for an abort. -/
def memWritePiece (data : List Byte) (m : Mod) (x : Piece) : Mod :=
  let page := x.addr / 0x200000
  let k := x.addr % 0x200000 / 256
  let b := pageBurst m page k
  (serveWrite page k b (x.addr % 256) ((data.drop x.off).take x.len) (gondolaTurn b m)).2

/-- The words that a write of DRAM bytes replaces: physical word, value, mark of its 8-byte word. -/
def memOld (m : Mod) (l : List Piece) : List (Nat × W32 × Nat) :=
  l.flatMap (fun x =>
    let w := 64 * pageBurst m (x.addr / 0x200000) (x.addr % 0x200000 / 256) + x.addr % 256 / 4
    ((List.range (x.len / 4)).zip (mgets 0 m.dram w (x.len / 4))).map (fun y => (w + y.1, y.2, mget 0 m.ecc ((w + y.1) / 2))))

/-- MEM_WRITE (R433): the data follow the block. -/
def execMemWrite (f : Frame) (s : State) : Ans :=
  execCommand f 0x0108 true (fun m =>
    let a := arg48 f 1
    let n := arg f 3
    checked ((!rsvOk f [(0, 7), (1, all32), (2, 0xFFFF), (3, all32)] || f.data.length != n, stBadCommand) ::
        memChecks m (argPart f) a n) m
      { status := stOk, m := (memPieces a n).foldl (memWritePiece f.data) m, undo := .mem (memOld m (memPieces a n)), most := n / 4 }) s

/-! ## Windows (R203, R300, R432) -/

/-- WIN_TILE (R201, R203, R432): WIN_RANGE with OPEN at 0, then WIN_CONTROL. -/
def execWinTile (f : Frame) (s : State) : Ans :=
  execCommand f 0x0201 false (fun m =>
    let t := bits (arg f 1) 12 0
    let w := bits (arg f 1) 18 16
    let base := arg f 2; let len := arg f 3; let c := arg f 4
    checked [(!plainOk f [(0, 7), (1, 0x71FFF), (2, 0xFFFFF), (3, 0x1FFFFF), (4, 0x7FFFF)], stBadCommand),
      (decide (5120 ≤ t) || partOfTile m t != some (argPart f) || base % 128 != 0 || len % 128 != 0 || decide (0x100000 < base + len),
        stBadArgument)] m
      (done (modTd t (fun d => { d with
        wins := mset {} d.wins w { base, length := len, tag := bits c 15 0, read := bit c 16, write := bit c 17, opened := bit c 18 } }) m))) s

/-- WIN_DRAM (R300, R432): every page belongs to the partition. R300 lets the other fields of an entry be written only while its OPEN is 0
and gives this command no status for an open entry: the command writes the entry whole in every case, as a close and an open anew in one
cycle (DESIGN CHOICE, log entry 151). -/
def execWinDram (f : Frame) (s : State) : Ans :=
  execCommand f 0x0202 false (fun m =>
    let p := argPart f
    let n := arg f 3; let c := arg f 4
    checked [(!plainOk f [(0, 7), (1, 0x3F), (2, all32), (3, all32), (4, 0x7FFFF)], stBadCommand),
      (badRun (arg f 2) n || decide (524288 < n), stBadArgument),
      ((pageRun (arg f 2) n).any (fun k => !isMapped (pageOf m k) || (pageOf m k).part != p), stNotOwned)] m
      (done { m with
        dwins := mset {} m.dwins (arg f 1) { tag := bits c 15 0, part := p, first := arg f 2, countM1 := n - 1, read := bit c 16, write := bit c 17
                                             opened := bit c 18 } })) s

end Sys2Proof.Machine
end

