-- ==== Sys2Proof/Machine/RegWrites.lean ====
section
/-! DEFINITION. Writes of the host to registers and to the memories of a tile, and the commands REG_READ and REG_WRITE (20 R526 to R531;
15 R433; 00 R11, R12; 18 R483, R484). -/

namespace Sys2Proof.Machine

/-! ## Memories of a tile (07 R199, R191; 11 R311; 03 R61) -/

/-- Is an offset of a tile window in one of the tile's memories? -/
def isTileMem (o : Nat) : Bool := decide (o < 0x150000)

/-- A host write to the WGB fills its block (R307). -/
def wgbHostPut (w : Nat) (v : W32) (d : TileData) : TileData := wgbPut w v (wgbFill (wgbBlockOf d w) d)

/-- Write a word of instruction memory: its parity is formed anew. -/
def imemPut (w : Nat) (v : W32) (d : TileData) : TileData :=
  { d with imem := mset 0 d.imem w v, imemBad := d.imemBad.filter (· ≠ w) }

/-- The same word loaded: part of the loaded image (R94). -/
def loadImem (w : Nat) (v : W32) (d : TileData) : TileData := { imemPut w v d with image := mset 0 d.image w v }

/-- Write a 64-bit word of a tile's memories. A write by the host to a collector changes it as R526 lets it, though R165 names only M-slot
instructions and resets (DESIGN CHOICE, log entry 125). -/
def writeTileMem (o : Nat) (v : W64) (d : TileData) : TileData :=
  let lo := BitVec.ofNat 32 v.toNat
  let hi := BitVec.ofNat 32 (v.toNat / 2 ^ 32)
  if o < 0x100000 then spPut (o + 4) hi (spPut o lo d)
  else if o < 0x130000 then let w := (o - 0x100000) / 4; wgbHostPut (w + 1) hi (wgbHostPut w lo d)
  else if o < 0x140000 then let w := (o - 0x130000) / 4; { d with coll := mset 0 (mset 0 d.coll w lo) (w + 1) hi }
  else let w := (o - 0x140000) / 4; imemPut (w + 1) hi (imemPut w lo d)

/-- A host write of a 64-bit word of a tile's memories in a cycle: to the scratchpad it lands through DW (R184, R185). -/
def landTileMem (cycle o : Nat) (v : W64) (d : TileData) : TileData :=
  if o < 0x100000 then spLands rankDW cycle o [v.extractLsb' 0 32, v.extractLsb' 32 32] d else writeTileMem o v d

/-- What an abort has to know of a word before it is written: flags 1 and 2, its words failed parity; 4, its WGB block was EMPTY; 16, its WGB
beat had been read. -/
def memFlags (o : Nat) (d : TileData) : Nat :=
  if o < 0x100000 then b2n (d.spBad.contains (o / 4)) + 2 * b2n (d.spBad.contains (o / 4 + 1))
  else if o < 0x130000 then
    let w := (o - 0x100000) / 4
    4 * b2n (!d.wgbFilled.contains (wgbBlockOf d w)) + 16 * b2n (d.wgbRead.contains (w / 16))
  else if o < 0x140000 then 0
  else let w := (o - 0x140000) / 4; b2n (d.imemBad.contains w) + 2 * b2n (d.imemBad.contains (w + 1))

/-- Put an old word of a tile's memories back with its flags. -/
def restoreTileMem (o : Nat) (v : W64) (flags : Nat) (d : TileData) : TileData :=
  let d := writeTileMem o v d
  let bad (w : Nat) : List Nat := (if bit flags 0 then [w] else []) ++ (if bit flags 1 then [w + 1] else [])
  if o < 0x100000 then { d with spBad := d.spBad ++ bad (o / 4) }
  else if o < 0x130000 then
    let w := (o - 0x100000) / 4
    { d with
      wgbFilled := if bit flags 2 then d.wgbFilled.filter (· ≠ wgbBlockOf d w) else d.wgbFilled
      wgbRead := if bit flags 4 then d.wgbRead ++ [w / 16] else d.wgbRead }
  else if o < 0x140000 then d
  else { d with imemBad := d.imemBad ++ bad ((o - 0x140000) / 4) }

/-! ## Registers of a tile (R95, R96, R120, R145, R198, R200, R203, R269, R302, R332, R366) -/

/-- A field is written only while a condition holds; at any other time the write has no effect (R528). -/
def writeWhen (c : Bool) (f : TileData → TileData) (d : TileData) : TileData := if c then f d else d

/-- Clear a VALID flag in a cycle where the written bit is 1 (W1C); with an event in that cycle it stays 1, and the record holds that event
(R528). -/
def clearFirst (c : Nat) (one : Bool) (r : FirstRec) : FirstRec :=
  if !one then r
  else match r.fresh with
    | some (k, l) => if c ≤ k then fillFirst l r else { r with valid := false }
    | none => { r with valid := false }

/-- TILE_CONTROL (R96): its other fields only while the tile is stopped, GO, then STOP. -/
def writeTileControl (t v : Nat) (m : Mod) : Mod :=
  let idle := tileStopped (tdOf m t)
  let m := modTd t (writeWhen idle (fun d => { d with waitLimit := bits v 47 32, singleStep := bit v 3, breakEnable := bit v 2 })) m
  let m := if idle && bit v 0 then goTile t m else m
  if bit v 1 then stopTile t false m else m

/-- WIN_RANGE and WIN_CONTROL (R200, R203): a range that the field map excludes is not taken (log entry 61). -/
def writeWin (w k v : Nat) (d : TileData) : TileData :=
  let set (f : TileWin → TileWin) : TileData := { d with wins := mmod {} d.wins w f }
  if k = 0 then
    let base := bits v 51 32; let len := bits v 20 0
    if (mget ({} : TileWin) d.wins w).opened || base % 128 != 0 || len % 128 != 0 || decide (0x100000 < base + len) then d
    else set (fun x => { x with base, length := len })
  else set (fun x => { x with tag := bits v 63 48, write := bit v 2, read := bit v 1, opened := bit v 0 })

/-- The registers of a tile that a write in a cycle changes without an action of the module. -/
def writeTileData (c o v : Nat) (d : TileData) : TileData :=
  let stays (b set : Nat) : Bool := !bit v b || decide (c < set)
  let idle : Bool := d.st == .idle
  if o = 0x018 then writeWhen (tileStopped d) (fun d => { d with startPc := bits v 11 0 }) d
  else if o = 0x020 then
    { d with trap := { d.trap with multi := d.trap.multi && stays 1 d.trap.multiAt, valid := d.trap.valid && stays 0 d.trap.validAt } }
  else if o = 0x040 then writeWhen (tileStopped d) (fun d => { d with breakPcEn := bit v 12, breakPc := bits v 11 0 }) d
  else if o = 0x0C0 then writeCounterControl v d
  else if 0x0E0 ≤ o ∧ o ≤ 0x0F8 then { d with scr := mset 0 d.scr ((o - 0x0E0) / 8) (BitVec.ofNat 64 v) }
  else if o = 0x800 then { d with nfFreeze := bit v 0 }
  else if o = 0x828 then { d with nfFirst := clearFirst c (bit v 0) d.nfFirst }
  else if o = 0x830 then { d with cvFreeze := bit v 0 }
  else if o = 0xA00 then { d with spParity := clearFirst c (bit v 20) d.spParity }
  else if 0xA40 ≤ o ∧ o < 0xC40 then
    let g := (o - 0xA40) / 0x20
    match (o - 0xA40) % 0x20 with
    | 16 => modRegion g (fun r => { r with badEvent := r.badEvent && stays 0 r.badAt }) d
    | _ => d
  else if 0xC40 ≤ o ∧ o < 0xCC0 then writeWin ((o - 0xC40) / 0x10) ((o - 0xC40) % 0x10) v d
  else if o = 0xCC0 ∨ o = 0xCC8 then
    writeWhen idle (fun d => { d with quantLsb := msets 0 d.quantLsb (o - 0xCC0) (leBytes 8 v) }) d
  else if o = 0xCE0 then { d with quantFault := clearFirst c (bit v 0) d.quantFault }
  else if o = 0xD50 then { d with wgbEvents := clearFirst c (bit v 0) d.wgbEvents }
  else if o = 0xE00 then writeWhen (idle && bits v 47 32 != 0) (fun d => { d with stallLimit := bits v 47 32 }) d
  else if o = 0xF70 then { d with streamFault := clearFirst c (bit v 0) d.streamFault }
  else d

/-- A write to a register of a tile. -/
def writeTileReg (t o v : Nat) (m : Mod) : Mod :=
  if o = 0x008 then writeTileControl t v m
  else if 0xA40 ≤ o ∧ o < 0xC40 ∧ (o - 0xA40) % 0x20 = 0 then configRegion t ((o - 0xA40) / 0x20) v m
  else
    let m := if o = 0x800 && bit v 1 then againstBase clearNf t m else if o = 0x830 && bit v 1 then againstBase clearCv t m else m
    modTd t (fun d => writeTileData (nowOf m t) o v (countWait (nowOf m t) d)) m

/-! ## Control space (R528 to R530) -/

/-- SLIP_CONTROL (R57): no effect while a job runs; reserved values of READY_LEAD are not taken (log entry 61). While no partition holds
a job, the one register of R56 is that of every partition (log entry 9). -/
def writeSlipControl (v : Nat) (m : Mod) : Mod :=
  let set (x : Part) : Part := { x with
    slipLimit := bits v 31 16, readyLead := if bits v 7 0 % 2 = 0 && decide (4 ≤ bits v 7 0) then bits v 7 0 else x.readyLead }
  match jobPart m with
  | none => (List.range 8).foldl (fun m p => modPart p set m) m
  | some p => if jobRuns (partOf m p) then m else modPart p set m

/-- LOSS_CONTROL (R418): reserved values of ALPHA_LOG2 and THRESHOLD are not taken (log entry 61). -/
def writeLossControl (p v : Nat) (m : Mod) : Mod :=
  let th := BitVec.ofNat 32 (v / 2 ^ 32)
  modPart p (fun x => { x with
    lossThreshold := if decide (0x00800000 ≤ th.toNat) && decide (th.toNat < 0x7F800000) then th else x.lossThreshold
    lossTile := if partOfTile m (bits v 31 19) = some p then bits v 31 19 else x.lossTile
    lossEnable := bit v 18, lossScratch := bits v 17 16
    lossAlpha := if bits v 15 12 = 0 then x.lossAlpha else bits v 15 12, lossWarmup := bits v 7 0 }) m

/-- WARM of RESET_CONTROL (R483): the warm reset begins 100 µs after the response. -/
def warmWrite (m : Mod) : Mod := if anyPart m (fun x => x.jstate != .none) then m else { m with warmPending := true }

/-- RESET_CONTROL (R483, R484): TILE, then TILE_RESET, then WARM. -/
def writeResetControl (ch : Chip) (v : Nat) (m : Mod) : Mod :=
  let t := bits v 12 0
  let m := { m with resetTile := if t < 5120 then t else m.resetTile }
  let m := if bit v 62 then (if h : t < 5120 then resetTileNow ch ⟨t, h⟩ m else m) else m
  if bit v 63 then warmWrite m else m

/-- The step integrity registers of a partition (R418). -/
def writeStepReg (p k v : Nat) (m : Mod) : Mod :=
  match k with
  | 3 =>
    let stays (b : Nat) : Bool := staysSet m (recStatus p) b v
    modPart p (fun x => { x with
      abandonLost := x.abandonLost && stays 52, multi := x.multi && stays 49, faultValid := x.faultValid && stays 48 }) m
  | 5 => writeLossControl p v m
  | 6 => modPart p (fun x => match setNow m (0x7030 + 0x40 * p) 0, bit v 0 with
      | _, false => x
      | some l, true => { x with lossKind := nth 0 l 0, lossValue := BitVec.ofNat 32 (nth 0 l 1), lossStep := BitVec.ofNat 32 (nth 0 l 2) }
      | none, true => { x with lossValid := false }) m
  | _ => m

/-- The stack registers that a write reaches (R303). -/
def writeStackReg (n k v : Nat) (m : Mod) : Mod :=
  match k with
  | 0x08 => modStack n (fun s => match setNow m (0x3008 + 0x40 * n) 0, bit v 0 with
      | _, false => s
      | some l, true => { s with ueBurst := nth 0 l 0, ueWord := nth 0 l 1, uePage := nth 0 l 2 }
      | none, true => { s with ueValid := false }) m
  | 0x18 => modStack n (fun s => { s with starveLimit := bits v 15 0 }) m
  | _ => m

/-- A write to a word of the control space: RW and W1C fields of the areas that the host may write. -/
def writeControl (ch : Chip) (o v : Nat) (m : Mod) : Mod :=
  let within (lo hi : Nat) : Bool := decide (lo ≤ o) && decide (o ≤ hi)
  if o = 0x100 then writeResetControl ch v m
  else if o = 0x200 then { m with stuckHigh := m.stuckHigh && staysSet m 0x200 8 v }
  else if o = 0x1008 then
    { m with phaseEvent := m.phaseEvent && staysSet m o 2 v, expiredEvent := m.expiredEvent && staysSet m o 1 v,
             lostEvent := m.lostEvent && staysSet m o 0 v }
  else if o = 0x1020 then writeSlipControl v m
  else if within 0x2000 0x21FF && o % 0x40 == 0x10 then
    let p := (o - 0x2000) / 0x40
    modPart p (fun x => { x with exchFault := clearFirst (partNow m p) (bit v 0) x.exchFault }) m
  else if within 0x3000 0x37FF then writeStackReg ((o - 0x3000) / 0x40) (o % 0x40) v m
  else if within 0x5000 0x57FF && o % 0x40 == 0x30 then
    modStack ((o - 0x5000) / 0x40) (fun s => { s with nmuError := clearFirst (srcNow m) (bit v 0) s.nmuError }) m
  else if within 0x5800 0x58FF then
    let p := (o - 0x5800) / 0x20
    if o % 0x20 = 0 then modPart p (fun x => { x with commitIncomplete := x.commitIncomplete && staysSet m o 0 v }) m
    else if o % 0x20 = 8 then modPart p (fun x => match setNow m o 0, bit v 0 with
      | _, false => x
      | some l, true => { x with genFirstShard := nth 0 l 0 }
      | none, true => { x with genValid := false }) m
    else m
  else if o = 0x6018 then { m with timeoutEvent := m.timeoutEvent && staysSet m o 3 v }
  else if within 0x7000 0x71FF then writeStepReg ((o - 0x7000) / 0x40) (o % 0x40 / 8) v m
  else if o = 0xD068 then { m with power := { m.power with valid := m.power.valid && staysSet m o 58 v } }
  else if within 0x10000 0x297FF && (o - 0x10000) % 0x800 == 0x108 then
    modEngine ((o - 0x10000) / 0x800) (fun x => { x with fault := clearFirst (srcNow m) (bit v 0) x.fault }) m
  else m

/-- Is an offset of the control space in an area that REG_WRITE may name (R529)? -/
def hostMayWrite (o : Nat) : Bool :=
  let within (lo hi : Nat) : Bool := decide (lo ≤ o) && decide (o ≤ hi)
  within 0x100 0x117 || within 0x200 0x207 || within 0x1000 0x1037 || within 0x2000 0x21FF || within 0x3000 0x37FF ||
    within 0x5000 0x58FF || within 0x6000 0x6027 || within 0x7000 0x71FF || within 0xD000 0xD07F || within 0x10000 0x297FF

/-! ## A word at a device address -/

/-- Is an address in the tile space? -/
def inTileSpace (a : Nat) : Bool := decide (tileBase ≤ a) && decide (a < tileEnd)
/-- Tile of an address of the tile space. -/
def addrTile (a : Nat) : Nat := (a - tileBase) / 0x200000
/-- Offset in the tile's window. -/
def addrOffset (a : Nat) : Nat := (a - tileBase) % 0x200000

/-- Write a 64-bit word that the host may write. -/
def writeWord (ch : Chip) (a : Nat) (v : W64) (m : Mod) : Mod :=
  if inTileSpace a then
    if isTileMem (addrOffset a) then
      let t := addrTile a
      modTd t (landTileMem (nowOf m t) (addrOffset a) v) (readBeatsNow t (nowOf m t) m)
    else writeTileReg (addrTile a) (addrOffset a - 0x1F0000) v.toNat m
  else writeControl ch (a - ctlBase) v.toNat m

/-- May a word be written at all (R526, R529)? -/
def wordWritable (ch : Chip) (m : Mod) (a : Nat) : Bool := (regWord ch m a).isSome && (inTileSpace a || hostMayWrite (a - ctlBase))

/-- A word before it is written, for an abort. -/
def oldWord (ch : Chip) (m : Mod) (a : Nat) : Nat × W64 × Nat :=
  let mem := inTileSpace a && isTileMem (addrOffset a)
  (a, (regWord ch m a).getD 0, if mem then memFlags (addrOffset a) (seenTd m (addrTile a)) else 8)

/-! ## Commands -/

/-- The word addresses of a command. -/
def wordRun (a n : Nat) : List Nat := (List.range n).map (fun i => a + 8 * i)

/-- Does a word lie in a tile of a KILLED_RETAINED partition (R433)? The owner of its job. -/
def retainedOwner (m : Mod) (a : Nat) : Option W32 :=
  if inTileSpace a then
    (partOfTile m (addrTile a)).bind (fun p => if (partOf m p).jstate = .killedRetained then some (partOf m p).owner else none)
  else none

/-- Is the number of words and the address in range (R431, R527)? -/
def badWords (a n : Nat) : Bool := n == 0 || decide (131072 < n) || a % 8 != 0

/-- Byte addresses of the scratchpad words of a list of word addresses that fail parity. -/
def parityFails (m : Mod) (l : List Nat) : List Nat :=
  l.flatMap (fun a => if inTileSpace a && decide (addrOffset a < 0x100000) then
    (spFails (seenTd m (addrTile a)) [addrOffset a, addrOffset a + 4]).map (fun o => tileBase + 0x200000 * addrTile a + o) else [])

/-- The compiled beats that the tiles have read by the cycle before this one are read: what an export has taken of a WGB is gone from the
cycle after its read (R307). -/
def readDue (m : Mod) : Mod :=
  (List.range 8).foldl (fun m p => (partOf m p).beats.foldl (fun m b =>
    match b.src with
    | .scratch t _ => readBeatsNow t (nowOf m t - 1) m
    | .wgb t _ _ => readBeatsNow t (nowOf m t - 1) m
    | .read => m) m) m

/-- REG_READ (R433, R526, R190): a parity error is recorded, and the data are returned with PARITY and the 48-bit address of the first. -/
def execRegRead (f : Frame) (s : State) : Ans :=
  execCommandChip f 0x0401 true (fun ch m =>
    let a := arg48 f 1
    let run := wordRun a (arg f 3)
    checked [(!plainOk f [(1, all32), (2, 0xFFFF), (3, all32), (4, all32)], stBadCommand), (badWords a (arg f 3), stBadArgument),
      (run.any (fun x => (regWord ch m x).isNone), stUnmapped),
      (run.any (fun x => match retainedOwner m x with | some w => w.toNat != arg f 4 | none => false), stNotOwner)] m
      (let m := readDue m
       let ws := run.map (fun x => (regWord ch m x).getD 0)
       let bad := parityFails m run
       let data := ws.flatMap (fun w => leBytes 8 w.toNat)
       match bad with
       | [] => { status := stOk, data, m, most := 2 * arg f 3 }
       | b :: _ =>
         { status := stParity, w := [0, BitVec.ofNat 32 b, BitVec.ofNat 32 (b / 2 ^ 32)], data, most := 2 * arg f 3
           m := bad.foldl (fun m x => modTd (addrTile x) (spRecord (nowOf m (addrTile x)) portDRControl [addrOffset x]) m) m })) s

/-- The words of command data. -/
def dataWords (l : List Byte) : List W64 := (chunks 8 (l.length / 8 + 1) l).map (fun b => BitVec.ofNat 64 (leNat b))

/-- Does a write name a tile that runs, in its memories or through TILE_RESET (R433, R484)? -/
def writeBusy (m : Mod) (a : Nat) (v : W64) : Bool :=
  if inTileSpace a then isTileMem (addrOffset a) && !tileStopped (tdOf m (addrTile a))
  else a == ctlBase + 0x100 && bit v.toNat 62 && decide (bits v.toNat 12 0 < 5120) && !tileStopped (tdOf m (bits v.toNat 12 0))

/-- Does a write order a warm reset while a job is loaded (R483)? -/
def warmBusy (m : Mod) (a : Nat) (v : W64) : Bool :=
  a == ctlBase + 0x100 && bit v.toNat 63 && anyPart m (fun x => x.jstate != .none)

/-- REG_WRITE (R433, R526 to R529): every word is checked before any is written. -/
def execRegWrite (f : Frame) (s : State) : Ans :=
  execCommandChip f 0x0402 true (fun ch m =>
    let a := arg48 f 1
    let run := (wordRun a (arg f 3)).zip (dataWords f.data)
    checked [(!rsvOk f [(1, all32), (2, 0xFFFF), (3, all32)] || f.data.length != 8 * arg f 3, stBadCommand),
      (badWords a (arg f 3), stBadArgument),
      (run.any (fun x => !wordWritable ch m x.1), stUnmapped), (run.any (fun x => (retainedOwner m x.1).isSome), stPartState),
      (run.any (fun x => writeBusy m x.1 x.2), stTileBusy), (run.any (fun x => warmBusy m x.1 x.2), stJobRunning)] m
      (let r := run.foldl (fun (s : List (Nat × W64 × Nat) × Mod) x => (oldWord ch s.2 x.1 :: s.1, writeWord ch x.1 x.2 s.2)) ([], m)
       { status := stOk, m := r.2, undo := .regs r.1.reverse, most := 2 * arg f 3 })) s

/-- REGISTER_WRITE (R11, R12): the access codes of a register, by way of the control network. -/
def execRegisterWrite (addr : BitVec 48) (v : W64) (s : State) : Ans :=
  onChip (fun ch m =>
    let a := addr.toNat
    if a % 8 ≠ 0 || !wordWritable ch m a || (inTileSpace a && isTileMem (addrOffset a)) || (retainedOwner m a).isSome then m
    else writeWord ch a v m) s

end Sys2Proof.Machine
end

