-- ==== Sys2Proof/Machine/Lof.lean ====
section
/-! DEFINITION. The Lerco object file: its header, its sections, the checks of the loader, its patches (15 R434 to R437; and the rules that
the table Section kinds names). -/

namespace Sys2Proof.Machine

/-! ## The file (R434) -/

/-- A little-endian field of n bytes at an offset. -/
def leAt (l : List Byte) (off n : Nat) : Nat := leNat ((l.drop off).take n)

/-- A section: its entry and its bytes. -/
structure Sec where
  kind : Nat
  target : Nat
  dest : Nat
  data : List Byte
  deriving DecidableEq, Repr

/-- A LOF: the fields of its header and its sections. -/
structure Lof where
  profile : Nat
  halves : Nat
  lead : Nat
  slips : Nat
  restart : Nat
  attempts : Nat
  flags : Nat
  bridle : Nat
  ranks : Nat
  ports : Nat
  secs : List Sec
  deriving DecidableEq, Repr

/-- Entry i of the section table: KIND and TARGET, DEST, OFFSET, LENGTH. -/
def secEntry (l : List Byte) (i : Nat) : Nat := leAt l (64 + 16 * i) 16

/-- The section of an entry. -/
def readSec (l : List Byte) (i : Nat) : Sec :=
  let e := secEntry l i
  { kind := bits e 31 24, target := bits e 23 0, dest := bits e 63 32, data := (l.drop (bits e 95 64)).take (bits e 127 96) }

/-- Read a LOF. -/
def readLof (l : List Byte) : Lof :=
  { profile := leAt l 6 1, halves := leAt l 7 1, lead := leAt l 12 2, slips := leAt l 14 2, restart := leAt l 16 2, attempts := leAt l 18 1
    flags := leAt l 19 1, bridle := leAt l 20 2, ranks := leAt l 22 2, ports := leAt l 24 8
    secs := (List.range (leAt l 8 4)).map (readSec l) }

/-- Bytes of a record of a section kind (R434 and the tables it names; log entry 62); 0 for a reserved kind. -/
def recBytes (kind : Nat) : Nat :=
  match kind with
  | 0x01 => 16 | 0x02 => 1 | 0x03 => 16 | 0x04 => 8 | 0x05 => 8 | 0x06 => 16 | 0x07 => 8 | 0x08 => 128 | 0x09 => 8 | 0x0A => 64
  | 0x0B => 64 | 0x0C => 8 | 0x0D => 16 | 0x0E => 8 | 0x0F => 2 | 0x10 => 32 | 0x11 => 16 | 0x12 => 1 | 0x13 => 8
  | _ => 0

/-- The records of a section, each as a little-endian number. -/
def recsOf (s : Sec) : List Nat := (chunks (recBytes s.kind) (s.data.length + 1) s.data).map leNat

/-- The records of every section of a kind. -/
def allRecs (secs : List Sec) (kind : Nat) : List Nat := (secs.filter (fun s => s.kind == kind)).flatMap recsOf

/-- How far TARGET of a kind may go: tiles, ports and engines, or zero. -/
def targetBound (kind : Nat) : Nat :=
  match kind with
  | 0x01 => 5120 | 0x02 => 5120 | 0x03 => 5120 | 0x06 => 51 | 0x0C => 51 | 0x0D => 51 | 0x0E => 51 | 0x12 => 2 ^ 24
  | _ => 1

/-- Is DEST of a kind always 0? -/
def destZero (kind : Nat) : Bool := [0x03, 0x07, 0x0A, 0x10, 0x11, 0x13].contains kind

/-- Is the format of an entry wrong (R434): kind, bounds, whole records, TARGET and DEST? -/
def badEntry (l : List Byte) (i : Nat) : Bool :=
  let e := secEntry l i
  let k := bits e 31 24; let off := bits e 95 64; let len := bits e 127 96
  recBytes k == 0 || off % 8 != 0 || decide (l.length < off + len) || len % recBytes k != 0 || decide (targetBound k ≤ bits e 23 0) ||
    (destZero k && bits e 63 32 != 0)

/-- Is the format of the header wrong: MAGIC, VERSION, PROFILE, bounds of the section table, reserved values and bits (R434)? -/
def badHeader (l : List Byte) : Bool :=
  decide (l.length < 64) || leAt l 0 4 != 0x37464F4C || leAt l 4 2 != 1 || (leAt l 6 1 != 1 && leAt l 6 1 != 2) ||
    decide (l.length < 64 + 16 * leAt l 8 4) || decide (8 ≤ leAt l 19 1) || (bit (leAt l 19 1) 2 && leAt l 20 2 == 0) ||
    decide (2 ^ 51 ≤ leAt l 24 8) || leAt l 32 32 != 0

/-- Are the parameters of the header out of range (R57, R418)? -/
def badParams (f : Lof) : Bool :=
  f.lead % 2 != 0 || decide (f.lead < 4) || decide (254 < f.lead) || decide (f.restart < 64) || f.attempts == 0

/-! ## Objects (R435) -/

/-- Pages of an object. -/
def objPages (r : Nat) : Nat := (bits r 127 64 + 0x1FFFFF) / 0x200000
/-- The shard an object record names. -/
def objShard (r : Nat) : Option Nat := if bit r 145 then some (bits r 143 128) else none
/-- Is an object record wrong in itself: BYTES, FLAGS, RSV? -/
def badObject (r : Nat) : Bool := bits r 127 64 == 0 || decide (2336462209024 < bits r 127 64) || r >>> 147 != 0

/-! ## Settings, channels, barriers -/

/-- May a tile register setting name this register with this value (R434, R13)? -/
def settingOk (r : Nat) : Bool :=
  let o := bits r 63 0; let v := bits r 127 64
  if o = 0x018 then decide (v < 4096)
  else if o = 0x008 then v &&& 0xFFFF00000000 == v
  else if 0xA40 ≤ o ∧ o < 0xC40 ∧ (o - 0xA40) % 0x20 = 0 then
    bits v 35 20 == 0 && decide (bits v 43 40 ≤ 12) && decide (bits v 39 36 ≤ 3)
  else if o = 0xD40 then decide (v < 512)
  else if o = 0xCC0 ∨ o = 0xCC8 then true
  else if o = 0xE00 then v &&& 0xFFFF00000000 == v && v != 0
  else false

/-- The pool number of an endpoint record (table Section kinds, KIND 0x07). -/
def epPool (r : Nat) : Nat := bits r 63 49
/-- Its tile. -/
def epTile (r : Nat) : Nat := bits r 48 36
/-- Its handle. -/
def epHandle (r : Nat) : Nat := bits r 35 30
/-- Its kind. -/
def epKindOf (r : Nat) : Nat := bits r 29 27
/-- Its region. -/
def epRegion (r : Nat) : Nat := bits r 26 23

/-- How often a value occurs. -/
def countOf (l : List Nat) (x : Nat) : Nat := (l.filter (· == x)).length

/-- Is an endpoint record refused (R239, R240)? `base` is the module before the LOF, `m` the module with the tile register settings. -/
def badEndpoint (base m : Mod) (p : Nat) (all : List Nat) (r : Nat) : Bool :=
  let mine := all.filter (fun y => epTile y == epTile r)
  let g := regionOf (tdOf m (epTile r)) (epRegion r)
  bits r 22 0 != 0 || (epKindOf r != 1 && epKindOf r != 2) || partOfTile m (epTile r) != some p ||
    (epOf base (epPool r)).state != .free || countOf (all.map epPool) (epPool r) != 1 || countOf (mine.map epHandle) (epHandle r) != 1 ||
    decide (8 < (mine.filter (fun y => epKindOf y == 1)).length) ||
    (epKindOf r == 2 && (g.attach != 2 || decide (g.size < 8192) ||
      countOf ((mine.filter (fun y => epKindOf y == 2)).map epRegion) (epRegion r) != 1))

/-- Is a channel group target refused: reserved bits, PORT, MODULE (R260)? -/
def badTarget (v : Nat) : Bool :=
  bits v 41 14 != 0 || (decide (50 < bits v 47 42) && bits v 47 42 != 63) || (decide (9999 < bits v 13 0) && bits v 13 0 != 0x3FFF)

/-- The sixteen targets of a channel group record. -/
def groupRec (r : Nat) : List Nat := (List.range 16).map (fun i => bits r (64 * i + 63) (64 * i))

/-- The tiles of a rectangle of the global grid. -/
def rectTiles (cLo cHi rLo rHi : Nat) : List Nat :=
  (List.range (rHi + 1 - rLo)).flatMap (fun r => (List.range (cHi + 1 - cLo)).map (fun c => tileAt (rLo + r) (cLo + c)))

/-- Are all tiles of a list in a partition? -/
def allIn (m : Mod) (p : Nat) (l : List Nat) : Bool := l.all (fun t => partOfTile m t == some p)

/-- A barrier from its BAR_CONFIG image. -/
def readBar (r : Nat) : Bar :=
  { limit := bits r 63 48, part := bits r 47 45, participants := bits r 44 32, cHi := bits r 31 25, cLo := bits r 24 18, rHi := bits r 17 12
    rLo := bits r 11 6, valid := bit r 0, state := if bit r 0 then .active else .unused }

/-- Is a barrier refused (R261): also one that is in use, whatever the record says (R392)? -/
def badBar (base : Mod) (p n r : Nat) : Bool :=
  let b := readBar r
  let l := rectTiles b.cLo b.cHi b.rLo b.rHi
  bits r 5 1 != 0 || (barOf base n).valid || (b.valid && (b.part != p || decide (b.cHi < b.cLo) || decide (b.rHi < b.rLo) ||
    decide (39 < b.rHi) || l.length != b.participants || !allIn base p l))

/-! ## Exchange tables (R211, R216, R224, R229) -/

/-- Is an exchange record of a reserved form (R211)? -/
def badRecord (r : Nat) : Bool := r >>> 33 != 0 || bits r 28 20 != 0 || decide (1 < bits r 31 30)

/-- Is a multicast group refused (R224, R216)? -/
def badGroup (m : Mod) (p r : Nat) : Bool :=
  r >>> 32 != 0 || bits r 16 12 != 0 || (bit r 31 &&
    (decide (bits r 30 24 < bits r 23 17) || decide (bits r 11 6 < bits r 5 0) || decide (39 < bits r 11 6) ||
      !allIn m p (rectTiles (bits r 23 17) (bits r 30 24) (bits r 5 0) (bits r 11 6))))

/-- The tiles whose routers a row-first route passes (R208). -/
def routeTiles (a b : Nat) : List Nat :=
  let along (x y : Nat) : List Nat := (List.range (dist x y + 1)).map (· + Nat.min x y)
  (along (globC a) (globC b)).map (tileAt (globR a)) ++ (along (globR a) (globR b)).map (fun r => tileAt r (globC b))

/-- Is a port assigned to a partition? -/
def portIn (m : Mod) (p q : Nat) : Bool := decide (q < 51) && (portOf m q).assigned && (portOf m q).part == p

/-- The destination tiles of the beats of an inbound transfer entry (R229, R233). -/
def inTiles (m : Mod) (p q : Nat) (r : Nat) : List Nat :=
  match bits r 31 30 with
  | 0 => [bits r 12 0]
  | 1 => groupTiles (mget 0 (partOf m p).groups (bits r 12 0))
  | 2 => [portTile q]
  | _ => [portTile (bits r 12 0)]

/-- Is an inbound transfer entry refused: reserved bits, a port of another partition (R392), its destination, its routes (R216), its
superstep (R229)? `m` holds the LOF's records and groups. -/
def badInbound (m : Mod) (p q r : Nat) : Bool :=
  let idx := bits r 63 52 + 4096 * bits r 95 92
  let rec_ := mget 0 (partOf m p).records idx
  bits r 29 13 != 0 || bits r 91 84 != 0 || bits r 127 124 != 0 || bits r 111 97 != 0 || !portIn m p q || (bit r 96 &&
    (!(rec_.getLsbD 32 && recTicked rec_) ||
      (match bits r 31 30 with
        | 0 => decide (5120 ≤ bits r 12 0)
        | 1 => decide (1024 ≤ bits r 12 0) || !(mget 0 (partOf m p).groups (bits r 12 0)).getLsbD 31
        | 2 => bits r 12 0 != 0
        | _ => !portIn m p (bits r 12 0)) ||
      !(inTiles m p q r).all (fun t => allIn m p (routeTiles (portTile q) t))))

/-! ## Reel and shards (R281, R289, R315, R316) -/

/-- Words of a record of n bytes. -/
def recWords (n r : Nat) : List W32 := leWords (n / 4) r

/-- Is a Reel entry refused (R281, R289)? -/
def badReel (m : Mod) (p r : Nat) : Bool :=
  let ws := recWords 64 r
  !(dOp ws == 1 && descOk 0 (ws.take 8)) || bits (dw ws 8) 15 13 != 0 || partOfTile m (bits (dw ws 8) 12 0) != some p ||
    decide (7 < dw ws 9) || (ws.drop 10).any (fun w => w != 0)

/-- START and QUEUE of a Reel entry, with its tile. -/
def reelKey (r : Nat) : Nat × Nat × Nat := let ws := recWords 64 r; (bits (dw ws 8) 12 0, dw ws 9, bits (dw ws 8) 31 16)

/-- Do the entries of each queue have rising START (R289)? -/
def reelOrder : List (Nat × Nat × Nat) → Bool
  | [] => true
  | a :: l => l.all (fun b => !(a.1 == b.1 && a.2.1 == b.2.1) || decide (a.2.2 ≤ b.2.2)) && reelOrder l

/-- A shard from its descriptor (R315). -/
def readShard (r : Nat) : Shard :=
  let ws := recWords 64 r
  let w (i : Nat) : Nat := dw ws i
  { valid := bit (w 0) 31, part := bits (w 0) 30 28, algo := bits (w 0) 27 24, wcFmt := bits (w 0) 23 22, firstPage := bits (w 0) 20 0
    start := bits (w 1) 31 16, tile := bits (w 1) 12 0, signal := bits (w 2) 31 26, elements := w 3, gen := nth 0 ws 4, staged := bit (w 5) 0
    beta1 := nth 0 ws 6, c1 := nth 0 ws 7, beta2 := nth 0 ws 8, c2 := nth 0 ws 9, eps := nth 0 ws 10, decay := nth 0 ws 11
    wcScale := nth 0 ws 12 }

/-- Is a shard descriptor refused in itself (R315, R316): also one whose shard is in use, whatever the record says? -/
def badShard (base : Mod) (p n r : Nat) : Bool :=
  let ws := recWords 64 r
  let s := readShard r
  bit (dw ws 0) 21 || bits (dw ws 1) 15 13 != 0 || bits (dw ws 2) 25 0 != 0 || decide (1 < dw ws 5) || (ws.drop 13).any (fun w => w != 0) ||
    decide (3 < s.algo) || (s.algo == 0 && s.wcFmt != 0) || partOfTile base s.tile != some p || (shardOf base n).valid ||
    (s.valid && (s.elements == 0 || s.part != p))

/-- Do two shards share a page (R316)? -/
def sharePage (a b : Shard) : Bool := decide (a.firstPage < b.firstPage + shardPages b) && decide (b.firstPage < a.firstPage + shardPages a)

/-- Are the pages of a shard of the loaded job wrong (R316): one not mapped to the partition, or shared with another valid shard? -/
def badShardPages (m : Mod) (p n : Nat) : Bool :=
  let s := shardOf m n
  (pageRun s.firstPage (shardPages s)).any (fun k => !isMapped (pageOf m k) || (pageOf m k).part != p) ||
    (s.valid && m.shards.any (fun e => e.1 != n && e.2.valid && sharePage s e.2))

/-! ## Reduction (R335, R336, R343, R354, R356) -/

/-- A job context from its RJOB_CONFIG image. -/
def readCtx (r : Nat) : RCtx :=
  { tag := bits r 63 48, part := bits r 47 45, valid := bit r 44, window := bits r 42 40, lsb := signed 8 (bits r 39 32) }

/-- Does a tile of the LOF set an L for a job that differs from a context's (R336)? A tile whose QUANT_LSB byte is 0 is taken to have no part
in the job (log entry 131). -/
def badQuant (m : Mod) (p j : Nat) (lsb : Int) : Bool :=
  (tilesOfPart m p).any (fun t => let b := mget 0 (tdOf m t).quantLsb j; b != 0 && signed 8 b.toNat != lsb)

/-- Is a job context refused: reserved values and bits, its engine and partition, L and W that differ within the module (R335, R336)? -/
def badCtx (m : Mod) (p e r : Nat) (j : Nat) : Bool :=
  let c := readCtx r
  bit r 43 || bits r 31 0 != 0 || !portIn m p e || (c.valid &&
    (c.part != p || c.window == 0 || c.window == 7 || badQuant m p j c.lsb ||
      m.engines.any (fun y => let d := mget ({} : RCtx) y.2.ctx j; d.valid && d.part == p && (d.window != c.window || d.lsb != c.lsb))))

/-- A route entry from its ROUTE_IN and ROUTE_OUT images. -/
def readRoute (r : Nat) : Route :=
  { valid := bit r 63, job := bits r 62 59, inputs := bits r 58 56, last := bits r 47 24, first := bits r 23 0, outPort := bits r 127 122
    outEngine := bits r 121 116, tag := bits r 115 112, deliver := bit r 111, delta := bits r 103 80, transfer := bits r 79 64 }

/-- Is a delivery's transfer entry wrong (R354)? -/
def badDelivery (m : Mod) (e : Nat) (x : Route) : Bool :=
  let y := inboundEntry m e x.transfer
  !inValid y || decide (1 < inKind y) || inBeats y != x.last + 1 - x.first

/-- Is a route entry refused (R335, R354, R356)? `others` are the other entries of the engine. -/
def badRoute (m : Mod) (p e n r : Nat) : Bool :=
  let x := readRoute r
  bits r 55 48 != 0 || bits r 110 104 != 0 || !portIn m p e || (x.valid &&
    (decide (x.last < x.first) || x.inputs == 0 || (x.outPort == 63 && x.outEngine == 63 && !x.deliver) || x.outEngine == e ||
      (x.outPort != 63 && !portIn m p x.outPort) || (x.outEngine != 63 && !portIn m p x.outEngine) || (x.deliver && badDelivery m e x) ||
      (engineOf m e).routes.any (fun y => y.1 != n && y.2.valid && y.2.job == x.job && decide (y.2.first ≤ x.last) &&
        decide (x.first ≤ y.2.last))))

/-- Is a contribution entry refused (R335, R343, R367)? -/
def badContrib (m : Mod) (p e r : Nat) : Bool :=
  bits r 58 53 != 0 || bits r 47 24 != 0 || !portIn m p e

/-! ## The step schedule (R211, R434, R465, R466; log entry 63) -/

/-- KIND of a schedule entry (log entry 63 for those that are no clock event). -/
def schedKind (k : Nat) : Option SchedKind :=
  match k with
  | 0x01 => some .exchange
  | 0x02 => some .commit
  | 0x03 => some .checkpoint
  | 0x10 => some .clockFixed
  | 0x11 => some .clockOptional
  | _ => none

/-- An event of a schedule entry. -/
def readEvent (r : Nat) : SchedEv :=
  { kind := (schedKind (bits r 7 0)).getD .exchange, superstep := bits r 39 24, offset := bits r 63 40, tick := 0, mask := bits r 23 16
    chosen := none, done := false }

/-- Is an event of a clock? -/
def isClock (e : SchedEv) : Bool := e.kind == .clockFixed || e.kind == .clockOptional

/-- The events of a schedule section: its first record is the step length. -/
def readEvents (secs : List Sec) : List SchedEv :=
  (secs.filter (fun s => s.kind == 0x13)).flatMap (fun s => ((recsOf s).drop 1).map readEvent)

/-- Is a schedule entry of a reserved form? -/
def badEventRec (r : Nat) : Bool :=
  (schedKind (bits r 7 0)).isNone || bits r 15 8 != 0 || (0x10 ≤ bits r 7 0 && bits r 23 16 == 0)

/-- Does a step schedule break R211 or R466? `m` holds the LOF's records. -/
def badSchedule (m : Mod) (p halves : Nat) (evs : List SchedEv) : Bool :=
  let record (i : Nat) : W64 := mget 0 (partOf m p).records i
  let clocks := evs.filter isClock
  let starts := evs.filter (fun e => e.kind == .exchange)
  (starts.any (fun e => !((record e.superstep).getLsbD 32 && recTicked (record e.superstep)))) ||
    (partOf m p).records.any (fun e => e.2.getLsbD 32 && recTicked e.2 && !starts.any (fun y => y.superstep == e.1)) ||
    clocks.any (fun e => !recHalfReturn (record e.superstep) || e.mask &&& (0xFF ^^^ halves) != 0 ||
      decide (1 < (clocks.filter (fun y => y.superstep == e.superstep && y.mask &&& e.mask != 0)).length))

/-- Insert an event by its superstep: a commit comes before the exchange start of its superstep (R51). -/
def insertEvent (e : SchedEv) : List SchedEv → List SchedEv
  | [] => [e]
  | y :: l =>
    if e.superstep < y.superstep || (e.superstep == y.superstep && !(e.kind == .exchange && y.kind == .commit)) then e :: y :: l
    else y :: insertEvent e l

/-- The schedule as it is armed: events in the order of their supersteps. -/
def schedOf (evs : List SchedEv) : List SchedEv := evs.foldr insertEvent []

/-! ## Patches (R436) -/

/-- The value of a patch record: objects as (first page), the LOAD's arguments. -/
def patchValue (firsts : List Nat) (ranks : List Nat) (tag own : Nat) (r : Nat) : Option Nat :=
  let i := bits r 19 0
  match bits r 31 28 with
  | 1 => (nth? firsts i).map (· * 0x200000)
  | 2 => nth? firsts i
  | 3 => nth? ranks i
  | 4 => some tag
  | 5 => some own
  | _ => none

/-- Replace bits [pos + width − 1 : pos] of a number. -/
def setBits (old pos width v : Nat) : Nat := old - (bits old (pos + width - 1) pos <<< pos) + ((v % 2 ^ width) <<< pos)

/-- Replace bytes of a list from an offset. -/
def setBytes (l : List Byte) (off : Nat) (b : List Byte) : List Byte := l.take off ++ b ++ l.drop (off + b.length)

/-- Apply a patch record to the sections; none where it breaks R436. -/
def applyPatch (value : Nat → Option Nat) (r : Nat) (secs : List Sec) : Option (List Sec) :=
  let i := bits r 63 48; let sh := bits r 47 42; let pos := bits r 41 37; let w := bits r 36 32 + 1; let off := bits r 95 64
  match value r, nth? secs i with
  | some x, some s =>
    let v : Int := x + signed 32 (bits r 127 96)
    let q := v / (2 ^ sh : Nat)
    if bits r 26 20 != 0 || decide (47 < sh) || decide (32 < pos + w) || off % 4 != 0 || decide (s.data.length < off + 4) ||
        (bit r 27 && (decide (v < 0) || decide ((2 ^ w : Nat) ≤ q))) then none
    else
      let old := leAt s.data off 4
      let new := setBits old pos w (lowBits w q)
      some (modNth (fun s => { s with data := setBytes s.data off (leBytes 4 new) }) secs i)
  | _, _ => none

/-- Apply patch records in order, each given with the section that holds it: the sections patched, or that of the first bad record. -/
def applyPatches (value : Nat → Option Nat) : List (Nat × Nat) → List Sec → Except Nat (List Sec)
  | [], s => .ok s
  | (i, r) :: l, s => match applyPatch value r s with
    | some s => applyPatches value l s
    | none => .error i

/-- The patch records of a LOF in order, each with the number of the section that holds it. -/
def patchRecs (secs : List Sec) : List (Nat × Nat) :=
  ((List.range secs.length).zip secs).flatMap (fun x => if x.2.kind = 0x11 then (recsOf x.2).map (fun r => (x.1, r)) else [])

end Sys2Proof.Machine
end

