-- ==== Sys2Proof/Machine/Load.lean ====
section
/-! DEFINITION. LOAD: the loader's checks in order, the mapping of objects, the writing of sections (15 R437; 18 R493; 20 R534). -/

namespace Sys2Proof.Machine

/-! ## Reading DRAM at byte addresses -/

/-- Bytes of the DRAM range that Gondola reads: whether a word is uncorrectable, the bytes, the module. -/
def readDram (m : Mod) (a n : Nat) : Bool × List Byte × Mod :=
  let lo := a / 4 * 4
  let r := memRead (memPieces lo ((a + n + 3) / 4 * 4 - lo)) (false, [], m)
  (r.1, ((wordsBytes r.2.1).drop (a - lo)).take n, r.2.2)

/-- What refuses a read of bytes by Gondola: unmapped pages, pages of another partition. -/
def readChecks (m : Mod) (p a n : Nat) : List (Bool × Nat) :=
  [(decide (dramEnd < a + n) || (0 < n && (pagesOfBytes a n).any (fun k => !isMapped (pageOf m k))), stUnmapped),
    (0 < n && (pagesOfBytes a n).any (fun k => (pageOf m k).part != p), stNotOwned)]

/-! ## Writing sections (R434, R435, R437 step 5) -/

/-- A tile register setting. -/
def writeSetting (r : Nat) (d : TileData) : TileData :=
  let o := bits r 63 0; let v := bits r 127 64
  if o = 0x018 then { d with startPc := v % 4096 }
  else if o = 0x008 then { d with waitLimit := bits v 47 32 }
  else if o = 0xD40 then
    let d := if bit v 8 = d.wgbExact then d else wgbEmptyAll d
    { d with wgbExact := bit v 8, wgbLsb := signed 8 (bits v 7 0) }
  else writeTileData 0 o v d

/-- A receive endpoint opens (R240): an operand queue holds 16 messages, a ring SIZE / 128 units. -/
def writeEndpoint (r : Nat) (m : Mod) : Mod :=
  let t := epTile r
  let ring := epKindOf r == 2
  let room := if ring then (regionOf (tdOf m t) (epRegion r)).size / 128 else 16
  modTd t (fun d => { d with handles := mset 0 d.handles (epHandle r) (epPool r + 1) })
    (modEp (epPool r) (fun e => { freeEp e with
      state := .opened, kind := if ring then .ring else .opq, owner := t, handle := epHandle r, region := epRegion r, quota := room
      credit := room, declared := true }) m)

/-- The first page of the object that holds a shard (R435). -/
def shardFirst (objs : List Obj) (n : Nat) (s : Shard) : Nat :=
  match objs.find? (fun o => o.shard == some n) with
  | some o => o.firstPage
  | none => s.firstPage

/-- Write record k of a section to its destination. `objs` are the mapped objects. -/
def writeRec (p : Nat) (objs : List Obj) (s : Sec) (m : Mod) (x : Nat × Nat) : Mod :=
  let n := s.dest + x.1
  let r := x.2
  match s.kind with
  | 0x01 => modTd s.target (fun d => (List.range 4).foldl (fun d i => loadImem (4 * n + i) (BitVec.ofNat 32 (bits r (32 * i + 31) (32 * i))) d) d) m
  | 0x03 => modTd s.target (writeSetting r) m
  | 0x04 => modPart p (fun y => { y with records := mset 0 y.records n (BitVec.ofNat 64 r) }) m
  | 0x05 => modPart p (fun y => { y with groups := mset 0 y.groups n (BitVec.ofNat 32 r) }) m
  | 0x06 => modPort s.target (fun y => { y with inbound := mset 0 y.inbound n (BitVec.ofNat 128 r) }) m
  | 0x07 => writeEndpoint r m
  | 0x08 =>
    let m := (List.range 16).foldl (fun m i => { m with
      cgroups := mset 0 m.cgroups (16 * n + i) (BitVec.ofNat 64 (bits r (64 * i + 63) (64 * i))) }) m
    modPart p (fun y => { y with ownGroups := n :: y.ownGroups.filter (· ≠ n) }) m
  | 0x09 => modBar n (fun b => { readBar r with breaks := b.breaks, refused := b.refused }) m
  | 0x0A => modPart p (fun y => { y with reel := y.reel ++ [{ words := recWords 64 r, active := 0 }] }) m
  | 0x0B => modShard n (fun _ => let y := readShard r; { y with firstPage := shardFirst objs n y }) m
  | 0x0C => modCtx s.target n (fun c => { readCtx r with blocks := c.blocks, widen := c.widen, stale := c.stale }) m
  | 0x0D => modEngine s.target (fun y => { y with routes := mset {} y.routes n (readRoute r) }) m
  | 0x0E =>
    modEngine s.target (fun y => { y with
      contribs := mset {} y.contribs n { valid := bit r 63, job := bits r 62 59, shift := bits r 52 48, first := bits r 23 0 } }) m
  | 0x0F =>
    modPart p (fun y => { y with ownFwd := n :: y.ownFwd.filter (· ≠ n) }) { m with fwd := mset 0 m.fwd n r }
  | _ => m

/-- Write a section: scratchpad and object bytes as a whole, all else record by record. -/
def writeSec (p : Nat) (objs : List Obj) (m : Mod) (s : Sec) : Mod :=
  if s.kind = 0x02 then modTd s.target (spPuts s.dest (bytesWords s.data)) m
  else if s.kind = 0x12 then
    match nth? objs s.target with
    | some o => (memPieces (o.firstPage * 0x200000 + s.dest) s.data.length).foldl (memWritePiece s.data) m
    | none => m
  else ((List.range (recsOf s).length).zip (recsOf s)).foldl (writeRec p objs s) m

/-- The queues that Reel entries name are Reel's (R291). -/
def reserveReel (p : Nat) (m : Mod) : Mod :=
  (partOf m p).reel.foldl (fun m e => modTd (reelTile e) (modQueue (reelQueue e) (fun q => { q with reel := true })) m) m

/-- The order in which kinds are written: object bytes first (R437 step 3), tile register settings before the endpoints that need them. -/
def writeAll (p : Nat) (objs : List Obj) (secs : List Sec) (m : Mod) : Mod :=
  let of (f : Nat → Bool) : List Sec := secs.filter (fun s => f s.kind)
  reserveReel p (((of (· == 0x12)) ++ (of (· == 0x03)) ++ (of (fun k => k != 0x12 && k != 0x03))).foldl (writeSec p objs) m)

/-! ## Checks (R437 steps 1 and 4; table LOF_INVALID detail) -/

/-- The first section of a kind that a test refuses. -/
def secFail (secs : List Sec) (kind : Nat) (bad : Sec → Bool) : Option Nat := findIdx? (fun s => s.kind == kind && bad s) secs

/-- The first section of a kind with a record that a test refuses; the test gets the record's number. -/
def recFail (secs : List Sec) (kind : Nat) (bad : Sec → Nat → Nat → Bool) : Option Nat :=
  secFail secs kind (fun s => ((List.range (recsOf s).length).zip (recsOf s)).any (fun x => bad s (s.dest + x.1) x.2))

/-- Objects with their shards against the shard descriptors (R435). -/
def badShardObject (secs : List Sec) (m : Mod) : Bool :=
  (allRecs secs 0x10).any (fun r => match objShard r with
    | none => false
    | some i => !(shardOf m i).valid || bits r 127 64 != shardPages (shardOf m i) * 0x200000)

/-- Would a record change a forwarding entry of the running job of another partition (R392)? -/
def fwdInUse (m : Mod) (p n r : Nat) : Bool :=
  mget 0 m.fwd n != r && (List.range 8).any (fun q => q != p && jobLive (partOf m q) && (partOf m q).ownFwd.contains n)

/-- The checks of sections: the kinds each depends on, its detail, the section it refuses. `base` is the module before the LOF, `m` with
the sections written. -/
def lofChecks (base m : Mod) (p halves : Nat) (secs : List Sec) : List (List Nat × Nat × Option Nat) :=
  [([0x01], 0x01, secFail secs 0x01 (fun s => partOfTile base s.target != some p || decide (4096 < s.dest + (recsOf s).length))),
    ([0x02], 0x01, secFail secs 0x02 (fun s =>
      partOfTile base s.target != some p || s.dest % 4 != 0 || decide (0x100000 < s.dest + (s.data.length + 3) / 4 * 4))),
    ([0x0F], 0x01, recFail secs 0x0F (fun _ n r => decide (9999 < n) || bits r 14 6 != 0 || decide (50 < bits r 5 0) || fwdInUse base p n r)),
    ([0x10], 0x01, recFail secs 0x10 (fun _ _ r => badObject r)),
    ([0x10, 0x12], 0x01, secFail secs 0x12 (fun s => match nth? (allRecs secs 0x10) s.target with
      | some r => decide (bits r 127 64 < s.dest + s.data.length)
      | none => true)),
    ([0x03], 0x0B, recFail secs 0x03 (fun s _ r => partOfTile base s.target != some p || !settingOk r)),
    ([0x04], 0x0D, secFail secs 0x04 (fun s => decide (65536 < s.dest + (recsOf s).length))),
    ([0x04], 0x04, recFail secs 0x04 (fun _ _ r => badRecord r)),
    ([0x05], 0x04, recFail secs 0x05 (fun _ n r => decide (1023 < n) || badGroup base p r)),
    ([0x04, 0x05, 0x06], 0x04, recFail secs 0x06 (fun s n r => decide (65535 < n) || badInbound m p s.target r)),
    ([0x03, 0x07], 0x05, recFail secs 0x07 (fun _ _ r => badEndpoint base m p (allRecs secs 0x07) r)),
    ([0x08], 0x05, recFail secs 0x08 (fun _ n r => decide (1023 < n) || (groupRec r).any badTarget ||
      base.cgroups.any (fun e => e.1 / 16 == n))),
    ([0x09], 0x06, recFail secs 0x09 (fun _ n r => decide (4095 < n) || badBar base p n r)),
    ([0x0A], 0x07, recFail secs 0x0A (fun _ n r => decide (65534 < n) || badReel base p r)),
    ([0x0A], 0x07, secFail secs 0x0A (fun _ => !reelOrder ((allRecs secs 0x0A).map reelKey) || decide (65535 < (allRecs secs 0x0A).length))),
    ([0x0B], 0x08, recFail secs 0x0B (fun _ n r => decide (16383 < n) || badShard base p n r)),
    ([0x0B, 0x10], 0x08, secFail secs 0x10 (fun _ => badShardObject secs m)),
    ([0x03, 0x0C], 0x09, recFail secs 0x0C (fun s n r => decide (15 < n) || badCtx m p s.target r n)),
    ([0x06, 0x0D], 0x09, recFail secs 0x0D (fun s n r => decide (63 < n) || badRoute m p s.target n r)),
    ([0x0E], 0x09, recFail secs 0x0E (fun s n r => decide (1023 < n) || badContrib base p s.target r)),
    ([0x13], 0x0D, secFail secs 0x13 (fun s =>
      s.data.isEmpty || decide (2 ^ 46 < nth 0 (recsOf s) 0) || ((recsOf s).drop 1).any badEventRec)),
    ([0x04, 0x13], 0x0D, if badSchedule m p halves (readEvents secs) then some ((findIdx? (fun s => s.kind == 0x13) secs).getD 0xFFFF) else none)]

/-- The first check that fails among those whose kinds satisfy a test. -/
def firstFail (ok : List Nat → Bool) (l : List (List Nat × Nat × Option Nat)) : Option (Nat × Nat) :=
  l.findSome? (fun c => if ok c.1 then c.2.2.map (fun i => (c.2.1, i)) else none)

/-! ## Mapping (R276, R277, R435) -/

/-- The lowest run of n pages from `cur` that avoids a rising list of taken pages. -/
def lowestRun (n : Nat) : Nat → List Nat → Nat
  | cur, [] => cur
  | cur, u :: us => if cur + n ≤ u then cur else lowestRun n (Nat.max cur (u + 1)) us

/-- Map a run of n pages for a partition and zero it (R276): its first page, or the status that refuses it. -/
def mapRun (p : Nat) (tierC : Bool) (n : Nat) (m : Mod) : Except Nat (Nat × Mod) :=
  let first := lowestRun n 0 (sortUp ((m.dir.filter (fun e => isMapped e.2)).map (·.1) ++ m.fills.flatMap (fun f => f.pages.map (·.1))))
  if pageCount < first + n then .error stNotFree
  else if quotaOf m p tierC < tierUse m p tierC + n then .error stQuota
  else if freeFrames m tierC < n then .error stNoFrame
  else
    let r := takeFrames tierC n (sortUp (usedFrames m tierC)) m
    .ok (first, fillDone { pages := (pageRun first n).zip r.1, part := p, tierC, seq := 0, report := false } r.2)

/-- Map the objects of object records in order. -/
def mapObjects (p : Nat) : List Nat → List Obj × Mod → Except Nat (List Obj × Mod)
  | [], s => .ok s
  | r :: l, (objs, m) =>
    match mapRun p (bit r 144) (objPages r) m with
    | .error e => .error e
    | .ok (first, m) =>
      mapObjects p l (objs ++ [{ id := bits r 63 0, bytes := bits r 127 64, shard := objShard r, tierC := bit r 144, persistent := bit r 146
                                 firstPage := first, pages := objPages r }], m)

/-- The Reel list, patched (R436), is written to DRAM (R289, R434): the loader places it in a run of B pages of its own (log entry 64). -/
def placeReelList (p : Nat) (secs : List Sec) (s : List Obj × Mod) : Except Nat (List Obj × Mod) :=
  let data := (secs.filter (fun x => x.kind == 0x0A)).flatMap (·.data)
  if data.isEmpty then .ok s
  else match mapRun p false ((data.length + 0x1FFFFF) / 0x200000) s.2 with
    | .error e => .error e
    | .ok (first, m) =>
      let m := (memPieces (first * 0x200000) data.length).foldl (memWritePiece data) m
      let o : Obj := { id := 0, bytes := data.length, shard := none, tierC := false, persistent := false, firstPage := first
                       pages := (data.length + 0x1FFFFF) / 0x200000 }
      .ok (s.1 ++ [o], modPart p (fun x => { x with reelEntries := data.length / 64, reelList := first * 0x200000 }) m)

/-! ## The parts of LOAD -/

/-- A job before it is unloaded is scrubbed, and the pages of its objects are unmapped (R437). -/
def unloadOld (ch : Chip) (p : Nat) (m : Mod) : Mod :=
  let m := if (partOf m p).rstate = .idle then m else scrubNow ch p m
  modPart p (fun x => { x with objects := [], jstate := .none, rstate := .idle }) (unmapPages (objectPages m p) m)

/-- Counters since job start, the sums and what JOB_STATUS kept of the last job start anew (R439, R493, R534). -/
def startCounters (p : Nat) (m : Mod) : Mod :=
  let m := modPart p (fun x => { x with
    slipTotal := 0, stallTotal := 0, stallCount := 0, reelDelivered := 0, abandoned := 0, lossEvents := 0
    sums := [], saturated := false, passes := 0, endCause := 0, lastFault := 0, hash := [] }) m
  let m := (tilesOfPart m p).foldl (fun m t =>
    modTd t (fun d => { d with queues := mmapVals {} (fun _ (q : Queue) => { q with issued := 0 }) d.queues }) m) m
  { m with bars := mmapVals {} (fun k (b : Bar) =>
      if (partOf m p).ownBars.contains k && !(b.valid && b.part != p) then { b with releases := 0 } else b) m.bars }

/-- SLIP_CONTROL, STEP_CONTROL, BRIDLE_CONTROL, the schedule and the tiles at START_PC (R437 steps 6 and 7, R438). -/
def finishLoad (p : Nat) (f : Lof) (secs : List Sec) (objs : List Obj) (owner : W32) (tag : BitVec 16) (hash : List Byte) (m : Mod) : Mod :=
  let m := rebaseSources (partSources m p) m
  let m := modPart p (fun x => { x with
    readyLead := f.lead, slipLimit := f.slips, restartLead := f.restart, attemptLimit := f.attempts, stepCommit := bit f.flags 0
    dynamic := bit f.flags 1, sched := schedOf (readEvents secs), stepLen := (((allRecs secs 0x13).take 1).foldl (· + ·) 0)
    jstate := .loaded, rstate := .restartWait, restartTick := 0, startTick := 0, profile := f.profile, owner, tag, hash, objects := objs }) m
  let m := (allRecs secs 0x07).foldl (fun m r => modEp (epPool r) (fun e => { e with tag := tag.toNat }) m) m
  let m := if bit f.flags 2 then { m with bridleTimeout := f.bridle, bridlePart := p, bridleEnable := true } else m
  let m := (portsOf m p).foldl (fun m q => modPort q (fun x => { x with loadDelay := x.linkDelay, delayBad := false }) m) m
  (tilesOfPart m p).foldl (fun m t => modTile t (fun x => { d := { x.d with st := .idle, wait := {}, pc := x.d.startPc }, bundle := none }) m) m

/-- Tables that an abort of LOAD needs (R427). -/
def tablesOf (m : Mod) : Tables :=
  { tiles := m.tiles, parts := m.parts, ports := m.ports, engines := m.engines, pool := m.pool, cgroups := m.cgroups, bars := m.bars
    dir := m.dir, shards := m.shards, fwd := m.fwd, dram := m.dram, ecc := m.ecc, bridle := (m.bridleTimeout, m.bridlePart, m.bridleEnable) }

/-- The header and the rank table: the status that refuses them, with the detail (R5, R437). -/
def headFail (ch : Chip) (m : Mod) (p count own : Nat) (bytes ranks : List Byte) : Option (Nat × Nat) :=
  let f := readLof bytes
  let lof (d : Nat) : Nat × Nat := (stLof, d + 0xFFFF * 65536)
  if badHeader bytes then some (lof 0x01)
  else match (List.range f.secs.length).find? (badEntry bytes) with
    | some i => some (stLof, 0x01 + i * 65536)
    | none =>
      let nums := (chunks 2 10001 ranks).map leNat
      if f.halves = 0 || f.halves ≠ (partOf m p).halves || (maskBits 51 f.ports).any (fun q => !portIn m p q) then some (lof 0x02)
      else if badParams f then some (lof 0x03)
      else if f.ranks ≠ count || count = 0 || decide (10000 < count) || decide (count ≤ own) || nth 0x3FFF nums own ≠ m.moduleNum ||
          m.moduleNum = 0x3FFF || nums.any (fun v => decide (9999 < v)) then some (lof 0x0C)
      else if f.profile = 2 && ch.stepping = .b1 then some (stProfile, 0)
      else none

/-- Steps 1 to 7 of R437 on an unloaded partition. -/
def loadSteps (p : Nat) (bytes ranks : List Byte) (own : Nat) (owner : W32) (tag : BitVec 16) (m : Mod) : Except (Nat × Nat) Mod :=
  let f := readLof bytes
  let patches := allRecs f.secs 0x11
  let touched (k : Nat) : Bool := patches.any (fun r => match nth? f.secs (bits r 63 48) with
    | some s => s.kind == k
    | none => false)
  let idle (m : Mod) : Mod := (tilesOfPart m p).foldl (fun m t => modTd t (fun d => { d with st := .idle }) m) m
  let early := lofChecks m (writeAll p [] f.secs (idle m)) p f.halves f.secs
  match firstFail (fun l => !l.any touched) early with
  | some (d, i) => .error (stLof, d + i * 65536)
  | none =>
    match mapObjects p (allRecs f.secs 0x10) ([], startCounters p (idle m)) with
    | .error st => .error (st, 0)
    | .ok (objs, mapped) =>
      let value := patchValue (objs.map (·.firstPage)) ((chunks 2 10001 ranks).map leNat) tag.toNat own
      match applyPatches value (patchRecs f.secs) f.secs with
      | .error i => .error (stLof, 0x0A + i * 65536)
      | .ok secs =>
        match placeReelList p secs (objs, mapped) with
        | .error st => .error (st, 0)
        | .ok (objs, mapped) =>
          let after := writeAll p objs secs mapped
          match firstFail (fun l => l.any touched) (lofChecks m after p f.halves secs) with
          | some (d, i) => .error (stLof, d + i * 65536)
          | none =>
            match recFail secs 0x0B (fun _ n _ => badShardPages after p n) with
            | some i => .error (stLof, 0x08 + i * 65536)
            | none => .ok (finishLoad p f secs objs owner tag (sha384 bytes) after)

/-- What LOAD answers. A refusal leaves the partition as before. The words it reads are those of the LOF and of the rank table. -/
def loadAnswer (ch : Chip) (f : Frame) (m : Mod) : Answer :=
  let p := argPart f
  let a := arg48 f 1; let n := arg f 3; let ra := arg48 f 6; let count := arg f 8
  let st := (partOf m p).rstate
  checked ([(!plainOk f [(0, 7), (1, all32), (2, 0xFFFF), (3, all32), (4, all32), (5, 0xFFFF), (6, all32), (7, 0xFFFF), (8, 0x3FFF),
        (9, 0x3FFF)], stBadCommand),
      (st != .idle && st != .ended && st != .halted, stPartState)] ++ readChecks m p a n ++ readChecks m p ra (2 * count) ++
      [((tilesOfPart m p).any (fun t => !tileStopped (tdOf m t)), stTileBusy)]) m
    (let l := readDram m a n
     let r := readDram l.2.2 ra (2 * count)
     let m := r.2.2
     let most := (n + 3) / 4 + (2 * count + 3) / 4
     if l.1 || r.1 then { refuse stUncorrectable m with most }
     else match headFail ch m p count (arg f 9) l.2.1 r.2.1 with
       | some (st, w) => { status := st, w := [BitVec.ofNat 32 w], m, most }
       | none =>
         match loadSteps p l.2.1 r.2.1 (arg f 9) (BitVec.ofNat 32 (arg f 4)) (BitVec.ofNat 16 (arg f 5)) (unloadOld ch p m) with
         | .error (st, w) => { status := st, w := [BitVec.ofNat 32 w], m, most }
         | .ok m' => { status := stOk, m := m', undo := .load p (tablesOf m), most })

/-- LOAD (R437). -/
def execLoad (f : Frame) (s : State) : Ans := execCommandChip f 0x0301 true (fun ch => loadAnswer ch f) s

end Sys2Proof.Machine
end

