-- ==== Sys2Proof/Machine/Jobs.lean ====
section
/-! DEFINITION. Job start, kill, status and scrub; STATUS_READ, HALT and the Kiteline link (15 R423 to R427, R438 to R440; 14 R413 to R416;
19 R513; 02 R41). -/

namespace Sys2Proof.Machine

/-! ## Start (R41, R438) -/

/-- Is a tick not after the current one (R41, R54)? -/
def tickPast (m : Mod) (t : BitVec 48) : Bool := t == m.tick || decide (2 ^ 47 ≤ (t - m.tick).toNat)
/-- Does a tick lie more than 2^46 ticks after the current one (R41)? -/
def tickFar (m : Mod) (t : BitVec 48) : Bool := decide (2 ^ 46 < (t - m.tick).toNat)

/-- JOB_START (R438): the schedule is armed with the start tick as that of step 0 or of the restored step. -/
def execJobStart (f : Frame) (s : State) : Ans :=
  execCommand f 0x0302 false (fun m =>
    let p := argPart f
    let x := partOf m p
    let t := BitVec.ofNat 48 (arg48 f 1)
    let last := x.sched.foldl (fun a e => Nat.max a e.offset) 0
    checked [(!plainOk f [(0, 0x107), (1, all32), (2, 0xFFFF)], stBadCommand), (x.jstate == .none, stNoJob),
      (x.jstate != .loaded, stPartState), (tickPast m t, stTickPast),
      (tickFar m t || x.sched.any (fun e => tickFar m (t + BitVec.ofNat 48 e.offset)) || decide (2 ^ 46 < last), stTickFar)] m
      (done (modPart p (fun x => armStep t { x with
        jstate := .armed, retain := bit (arg f 0) 8, startTick := t, restartTick := t }) m))) s

/-- JOB_START_TICK (R438): at cycle 0 of the start tick every tile starts with GO. -/
def execJobStartTick (p : PartId) (s : State) : Ans :=
  onMod (fun m =>
    let x := partOf m p.val
    if m.power.active || x.jstate ≠ .armed || !tickReached m x.startTick then m
    else startTiles p.val (Nat.max (cycleOfTick m x.startTick) m.power.restartNow)
      (startLine p.val (modPart p.val (fun x => { x with jstate := .running }) m))) s

/-! ## Kill, status, scrub (R413, R416, R439, R440) -/

/-- Is there a job that a kill ends (R440)? -/
def killable (x : Part) : Bool := jobLive x || x.jstate == .ended || x.jstate == .halted

/-- A kill is carried out (R413): a commit that takes effect in this tick comes first. -/
def killNow (ch : Chip) (p : Nat) (m : Mod) : Mod :=
  let m := if commitDue m p && !eventLate m p then commitNow ch p m else m
  if killable (partOf m p) then endJob ch p 2 .none m else m

/-- Does the end of a partition's job wait for its engines (R413)? -/
def endWaits (m : Mod) (p : Nat) : Bool := (partOf m p).ending != none

/-- JOB_KILL (R413, R440): it answers once the scrub is ordered; during an emergency stop it is held until the restart (R479). -/
def execJobKill (f : Frame) (s : State) : Ans :=
  execCommandChip f 0x0303 false (fun ch m =>
    let p := argPart f
    checked [(!plainOk f [(0, 7)], stBadCommand), (!killable (partOf m p), stNoJob)] m
      (if m.power.active then
        { status := stOk, m := { m with power := { m.power with heldKills := m.power.heldKills ++ [p] } }, hold := true }
       else let m := killNow ch p m; { status := stOk, m, hold := endWaits m p })) s

/-- The job status record (R439). -/
def jobRecord (x : Part) : List Byte :=
  [BitVec.ofNat 8 (jobNo x.jstate), BitVec.ofNat 8 x.endCause, BitVec.ofNat 8 x.profile,
    BitVec.ofNat 8 (packN [(0, b2n x.retain), (1, b2n (covered x)), (2, b2n x.restoreRequired)])] ++
  leBytes 4 x.owner.toNat ++ leBytes 2 x.tag.toNat ++ leBytes 2 x.stepAttempt ++ leBytes 4 x.stepNum.toNat ++ leBytes 4 x.superstep.toNat ++
  leBytes 4 (if x.faultValid then x.faultWord.toNat else x.lastFault.toNat) ++ leBytes 6 x.startTick.toNat ++ [0, 0] ++
  (x.hash ++ List.replicate (48 - x.hash.length) 0) ++ List.replicate 16 0

/-- JOB_STATUS (R439). -/
def execJobStatus (f : Frame) (s : State) : Ans :=
  execCommand f 0x0304 false (fun m =>
    checked [(!plainOk f [(0, 7)], stBadCommand)] m { status := stOk, data := jobRecord (partOf m (argPart f)), m }) s

/-- SCRUB (R416): a KILLED_RETAINED partition passes through SCRUBBING to IDLE. -/
def execScrub (f : Frame) (s : State) : Ans :=
  execCommand f 0x0305 false (fun m =>
    let p := argPart f
    checked [(!plainOk f [(0, 7)], stBadCommand), ((partOf m p).rstate != .killedRetained, stPartState)] m
      (done (modPart p (fun x => { x with jstate := .scrubbing, rstate := .scrubbing, endAs := some (.none, x.endCause) }) m))) s

/-! ## STATUS_READ and the link (R419, R423, R425) -/

/-- PROGRESS of a running command of class D or L advances (R428, R444): by how much is not stated, a free value (log entry 15). -/
def progressed (m : Mod) : Mod :=
  match m.box.running with
  | some (r, _) =>
    if answerWaits r m then m
    else
      let f := takeFree m
      { f.2 with box := { f.2.box with progress := Nat.max m.box.progress (Config.unstated f.1 % 256) } }
  | none => m

/-- STATUS_READ (R419, R423): answered in every state of the mailbox. -/
def execStatusRead (crcOk : Bool) (s : State) : Ans :=
  onMod (fun m =>
    if !m.box.kiteUp || !gondolaRuns m then m
    else if !crcOk then countDrop m
    else let m := progressed m; emit (.status (mailboxStatus m) (progressWord m)) m) s

/-- KITELINE_DOWN (R425). -/
def execKitelineDown (s : State) : Ans := onMod (fun m => { m with box := { m.box with kiteUp := false } }) s

/-- KITELINE_UP (R425): the events that wait leave in order. -/
def execKitelineUp (s : State) : Ans :=
  onMod (fun m => (m.box.events).foldl (fun m e => emit (.event e) m) { m with box := { m.box with kiteUp := true, events := [] } }) s

/-! ## HALT (R426, R427, R513) -/

/-- Put an old DRAM word back, at the destination of a move too. -/
def restoreWord (w : Nat) (v : W32) (mark : Nat) (m : Mod) : Mod :=
  let put (w : Nat) (m : Mod) : Mod := { m with dram := mset 0 m.dram w v, ecc := mset 0 m.ecc (w / 2) mark }
  match forwardTo m (w / 64) with
  | some d => put (64 * d + w % 64) (put w m)
  | none => put w m

/-- Undo the words of a MEM_WRITE from the k-th on; a word whose 8-byte word was written in part keeps an uncorrectable mark. -/
def undoMem (k : Nat) (old : List (Nat × W32 × Nat)) (m : Mod) : Mod :=
  let kept := old.take k
  (old.drop k).foldr (fun e m =>
    let half := kept.any (fun y => y.1 / 2 == e.1 / 2)
    restoreWord e.1 e.2.1 (if half && e.2.2 != 2 then 0 else e.2.2) m) m

/-- How many 64-bit words of a REG_WRITE stay: those before the stop, and those up to the last register written. -/
def regsKept (k : Nat) (old : List (Nat × W64 × Nat)) : Nat :=
  let lastReg := (List.range old.length).foldl (fun a i => if (nth (0, 0, 0) old i).2.2 = 8 then i + 1 else a) 0
  Nat.min old.length (Nat.max (k / 2) lastReg)

/-- Undo the words of a REG_WRITE from the k-th on, the last first. -/
def undoRegs (k : Nat) (old : List (Nat × W64 × Nat)) (m : Mod) : Mod :=
  (old.drop k).foldr (fun e m => modTd (addrTile e.1) (restoreTileMem (addrOffset e.1) e.2.1 e.2.2) m) m

/-- Entries of an old table at some keys, the rest as it is now. -/
def mixKeys {α : Type} (old now : SMap α) (p : Nat → Bool) : SMap α :=
  (old.filter (fun e => p e.1)).foldl (fun a e => mput e.1 e.2 a) (now.filter (fun e => !p e.1))

/-- The partition as before a LOAD; the pages that it mapped are unmapped (R427). -/
def undoLoad (p : Nat) (b : Tables) (m : Mod) : Mod :=
  let now := partOf m p
  let old := mget ({} : Part) b.parts p
  let mine (t : Nat) : Bool := partOfTile m t == some p
  let port (q : Nat) : Bool := portIn m p q
  let ep (k : Nat) : Bool := epInPart m p (epOf m k) || epInPart m p (mget {} b.pool k)
  let bar (k : Nat) : Bool :=
    let x := barOf m k; let y := mget ({} : Bar) b.bars k
    (x.valid && x.part == p) || (y.valid && y.part == p)
  let shard (k : Nat) : Bool :=
    let x := shardOf m k; let y := mget ({} : Shard) b.shards k
    (x.valid && x.part == p) || (y.valid && y.part == p)
  let group (k : Nat) : Bool := now.ownGroups.contains (k / 16) || old.ownGroups.contains (k / 16)
  let fwd (k : Nat) : Bool := now.ownFwd.contains k || old.ownFwd.contains k
  let oldPages := old.objects.flatMap (fun o => pageRun o.firstPage o.pages)
  let m := unmapPages (objectPages m p) m
  let frames := oldPages.filterMap (fun k =>
    let x := mget ({} : Page) b.dir k
    if isMapped x && x.part == p then some (burstNo (pageTierC x) x.frame 0 / 8192) else none)
  { m with
    tiles := mixKeys b.tiles m.tiles mine, parts := mset {} m.parts p old
    ports := (List.range 51).foldl (fun a q => if port q then mmod {} a q (fun x =>
      { x with inbound := (mget ({} : Port) b.ports q).inbound, loadDelay := (mget ({} : Port) b.ports q).loadDelay }) else a) m.ports
    engines := mixKeys b.engines m.engines port, pool := mixKeys b.pool m.pool ep, cgroups := mixKeys b.cgroups m.cgroups group
    bars := mixKeys b.bars m.bars bar, shards := mixKeys b.shards m.shards shard, fwd := mixKeys b.fwd m.fwd fwd
    dir := mixKeys b.dir m.dir (fun k => oldPages.contains k)
    dram := mixKeys b.dram m.dram (fun w => frames.contains (w / 64 / 8192)), ecc := mixKeys b.ecc m.ecc (fun w => frames.contains (w / 32 / 8192))
    bridleTimeout := b.bridle.1, bridlePart := b.bridle.2.1, bridleEnable := b.bridle.2.2 }

/-- The job of a partition is unloaded with a scrub, end cause LOAD_ABORTED (R427, R443). -/
def unloadJob (ch : Chip) (p : Nat) (m : Mod) : Mod :=
  hostEvent 0x02 p 0xFFFF 6 0 (modPart p (fun x => { x with jstate := .none, rstate := .idle, endCause := 6 }) (scrubNow ch p m))

/-- Stop a command of class D or L that has a number of 32-bit words done (R427): the words it says it has done, never more than it has to
do, and the module. -/
def abortWork (ch : Chip) (u : Undo) (words : Nat) (m : Mod) : Nat × Mod :=
  let words := Nat.min words m.box.most
  match u with
  | .none => (words, m)
  | .mem old => let k := Nat.min words old.length; (k, undoMem k old m)
  | .regs old => let k := regsKept words old; (2 * k, undoRegs k old m)
  | .load p b => (words, undoLoad p b m)
  | .restore p => (words, unloadJob ch p m)
  | .fw a b act staged => (words, { m with atgen := { m.atgen with slotA := a, slotB := b, activeB := act, staged } })

/-- What a qualified assertion of HALT does in Gondola (R426): a running command of class D or L is aborted; one of class S whose answer
waits is not. -/
def haltNow (ch : Chip) (words : Nat) (m : Mod) : Mod :=
  match m.box.running with
  | some (r, u) =>
    if answerWaits r m then hostEvent 0x09 0xFF 0xFFFF 0 0 m
    else
      let a := abortWork ch u words m
      hostEvent 0x09 0xFF r.opcode r.seq.toNat 0
        (respond { opcode := r.opcode, seq := r.seq, status := stAborted, w := resultBlock [BitVec.ofNat 32 a.1], data := [] } a.2)
  | none => hostEvent 0x09 0xFF 0xFFFF 0 0 m

/-- Does a low level of a pin that long qualify: surely from `hi` ns on, never below `lo`, else a free value (R513, R514)? -/
def pulseCounts (lo hi ns : Nat) (m : Mod) : Bool × Mod :=
  if hi ≤ ns then (true, m) else if ns < lo then (false, m) else let f := takeFree m; (Config.pulseQualifies f.1, f.2)

/-- HALT (R426, R513): HALT_N low for a time. One that qualifies stays low until HALT_RELEASE, and counts in HALTS even before Gondola
runs; after one that does not the pin is as before. -/
def execHalt (lowNs wordsDone : Nat) (s : State) : Ans :=
  onChip (fun ch m =>
    let r := pulseCounts 2000 10000 lowNs m
    if !r.1 then r.2
    else if r.2.box.halt then { r.2 with haltRaw := false }
    else
      let m := { r.2 with haltRaw := false, box := { r.2.box with halt := true, halts := satAdd 8 r.2.box.halts 1 } }
      if gondolaRuns m then haltNow ch wordsDone m else m) s

/-- HALT_RELEASE (R513, R524): HALT_N is high again; the assertion ends after it has been high for 10 µs. -/
def execHaltRelease (highNs : Nat) (s : State) : Ans :=
  onMod (fun m =>
    { m with haltRaw := true, box := { m.box with halt := m.box.halt && decide (highNs < 10000) } }) s

/-! ## Time passes (R30; log entry 2) -/

/-- TICK_COUNTER_ADVANCE (R30). A command of class D or L has answered by then (log entry 2). -/
def execTickCounterAdvance (s : State) : Ans := onChip (fun ch m => nextTick (finishCommand (endsDue ch m))) s

/-- One cycle of the 800 MHz source on an empty queue (R30; log entry 2). -/
def passCycle (ch : Chip) (m : Mod) : Mod :=
  let m := finishCommand (endsDue ch m)
  if m.phase < 639 then dueTrapsNow (passCycles 1 m) else nextTick m

end Sys2Proof.Machine
end

