-- ==== Sys2Proof/Machine/Ckpt.lean ====
section
/-! DEFINITION. Checkpoints: the image, CKPT_SAVE and its events, CKPT_RESTORE (15 R441 to R443; 14 R409, R412). -/

namespace Sys2Proof.Machine

/-! ## The image (R442) -/

/-- One array of a checkpoint entry: bytes per element, index of its banked array in the set (none for an object). -/
structure CkArr where
  width : Nat
  index : Nat
  deriving DecidableEq, Repr

/-- The arrays of a shard (R317, R442): P, M1, M2 as its ALGO has them, then WC. -/
def shardArrays (s : Shard) : List CkArr :=
  [{ width := 4, index := 0 }] ++ (if s.algo = 0 then [] else [{ width := 4, index := 1 }]) ++
    (if s.algo = 2 then [{ width := 4, index := 2 }] else []) ++
    (if s.wcFmt = 0 then [] else [{ width := wcBytes s, index := shardQ s - 1 }])

/-- The pieces of a dense array of a shard in the live bank (R317, R319): device address and bytes, one for each burst of a line. Burst j of
a line begins with element 64 j, in WC as in the arrays of four-byte elements. -/
def arrayRuns (s : Shard) (x : CkArr) : List (Nat × Nat) :=
  (List.range ((s.elements + 63) / 64)).map (fun b =>
    let i := b / 24
    let page := s.firstPage + i / shardSets s
    let line := 1 + i % shardSets s * shardK s + (if s.algo = 0 then 0 else 2 * x.index + liveBank s)
    (page * 0x200000 + line * 6144 + 256 * (b % 24), x.width * Nat.min 64 (s.elements - 64 * b)))

/-- Round up to a multiple of 256. -/
def up256 (n : Nat) : Nat := (n + 255) / 256 * 256

/-- An entry of an image: KIND, ALGO, WC_FMT, GEN, size, and the runs of each of its arrays. -/
structure CkEnt where
  id : Nat
  kind : Nat
  algo : Nat
  wcFmt : Nat
  gen : Nat
  size : Nat
  arrays : List (List (Nat × Nat))
  deriving DecidableEq, Repr

/-- Bytes of an array. -/
def runBytes (l : List (Nat × Nat)) : Nat := (l.map (·.2)).foldl (· + ·) 0

/-- The entries of a partition's job: its shards and persistent objects, in the order of the object table (log entry 66). -/
def ckEntries (m : Mod) (p : Nat) : List CkEnt :=
  (partOf m p).objects.filterMap (fun o => match o.shard with
    | some i =>
      let s := shardOf m i
      some { id := o.id, kind := 1, algo := s.algo, wcFmt := s.wcFmt, gen := s.gen.toNat, size := s.elements
             arrays := (shardArrays s).map (arrayRuns s) }
    | none =>
      if o.persistent then some { id := o.id, kind := 2, algo := 0, wcFmt := 0, gen := 0, size := o.bytes
                                  arrays := [[(o.firstPage * 0x200000, o.bytes)]] }
      else none)

/-- The offsets at which arrays begin, from an offset on: each at a multiple of 256. -/
def arrayOffsets : Nat → List (List (Nat × Nat)) → List Nat
  | _, [] => []
  | at_, a :: l => up256 at_ :: arrayOffsets (up256 at_ + runBytes a) l

/-- The offset after the data of a list of arrays. -/
def arraysEnd : Nat → List (List (Nat × Nat)) → Nat
  | at_, [] => at_
  | at_, a :: l => arraysEnd (up256 at_ + runBytes a) l

/-- Read the bytes of runs. -/
def readRuns : List (Nat × Nat) → Bool × List Byte × Mod → Bool × List Byte × Mod
  | [], s => s
  | r :: l, (bad, b, m) => let y := readDram m r.1 r.2; readRuns l (bad || y.1, b ++ y.2.1, y.2.2)

/-- Read arrays one after another, each padded to begin at a multiple of 256. -/
def readArrays : List (List (Nat × Nat)) → Bool × List Byte × Mod → Bool × List Byte × Mod
  | [], s => s
  | a :: l, (bad, b, m) => readArrays l (readRuns a (bad, b ++ List.replicate (up256 b.length - b.length) 0, m))

/-- The entry words of an image, with the offset of each entry's data. -/
def entryBytes (at_ : Nat) : List CkEnt → List Byte
  | [] => []
  | e :: l =>
    leBytes 8 e.id ++ [BitVec.ofNat 8 e.kind, BitVec.ofNat 8 e.algo, BitVec.ofNat 8 e.wcFmt, 0] ++ leBytes 4 e.gen ++ leBytes 8 e.size ++
      leBytes 8 (up256 at_) ++ entryBytes (arraysEnd at_ e.arrays) l

/-- The header of an image (table Checkpoint header). -/
def ckHeader (x : Part) (entries total : Nat) : List Byte :=
  leBytes 4 0x4B434C37 ++ leBytes 2 1 ++ [0, 0] ++ leBytes 4 entries ++ leBytes 4 x.stepNum.toNat ++ leBytes 4 x.superstep.toNat ++
    leBytes 4 x.lossMean.toNat ++ [BitVec.ofNat 8 x.lossSamples] ++ List.replicate 7 0 ++ leBytes 8 total ++
    (x.hash ++ List.replicate (48 - x.hash.length) 0) ++ List.replicate 168 0

/-- The length of the image of a partition's job, digest included. -/
def imageBytes (m : Mod) (p : Nat) : Nat :=
  let es := ckEntries m p
  arraysEnd (256 + 32 * es.length) (es.flatMap (·.arrays)) + 48

/-- The image of a partition's job now (R442): whether a word of it is uncorrectable, its bytes, the module. -/
def ckImage (m : Mod) (p : Nat) : Bool × List Byte × Mod :=
  let es := ckEntries m p
  let head := ckHeader (partOf m p) es.length (imageBytes m p) ++ entryBytes (256 + 32 * es.length) es
  let r := readArrays (es.flatMap (·.arrays)) (false, head, m)
  (r.1, r.2.1 ++ sha384 r.2.1, r.2.2)

/-! ## CKPT_SAVE (R429, R441) -/

/-- Are the operands that name a remote place out of range? -/
def badRemote (f : Frame) : Bool := decide (9999 < bits (arg f 4) 13 0) || decide (50 < bits (arg f 4) 21 16) || arg f 7 == 0

/-- CKPT_SAVE (R441): a save is armed for the commit of step s. A step that has been committed, or one too far off (R55), is
BAD_ARGUMENT. -/
def execCkptSave (f : Frame) (s : State) : Ans :=
  execCommand f 0x0306 false (fun m =>
    let p := argPart f
    let x := partOf m p
    let t := BitVec.ofNat 48 (arg48 f 2)
    checked [(!plainOk f [(0, 7), (1, all32), (2, all32), (3, 0xFFFF), (4, 0x3F3FFF), (5, all32), (6, 0xFFFF), (7, all32), (8, 0xFFFF)],
        stBadCommand),
      (!jobLive x, stNoJob), (x.ckpt.isSome, stInProgress), (tickPast m t, stTickPast), (tickFar m t, stTickFar),
      (badRemote f || decide (2 ^ 30 < (BitVec.ofNat 32 (arg f 1) - x.stepNum).toNat), stBadArgument)] m
      (done (modPart p (fun x => { x with ckpt := some {
        step := BitVec.ofNat 32 (arg f 1), resume := t, dest := bits (arg f 4) 13 0, port := bits (arg f 4) 21 16, addr := arg48 f 5
        capacity := arg f 7 * 4096, tag := bits (arg f 8) 15 0, seq := f.seq, opcode := 0x0306, running := false, due := false } }) m))) s

/-- A packet that Gondola sends for a checkpoint; it names no tile (log entry 67). -/
def ckPacket (m : Mod) (k : CkptArm) (off n : Nat) (payload : List W32) : DmaPkt :=
  { destModule := BitVec.ofNat 16 k.dest, srcModule := BitVec.ofNat 16 m.moduleNum, srcTile := 0x1FFF, jobTag := BitVec.ofNat 16 k.tag
    addr := BitVec.ofNat 48 (k.addr + off), length := BitVec.ofNat 32 n, signal := 0, mode := 0, hops := 0, payload, crcOk := true }

/-- The image leaves by PUT packets in ACKED mode (R381, R441). -/
def sendImage (k : CkptArm) (ws : List W32) (m : Mod) : Mod :=
  (List.range ((ws.length + 1023) / 1024)).foldl (fun m i =>
    let pay := (ws.drop (1024 * i)).take 1024
    sendDma k.port opPut (ckPacket m k (4096 * i) (4 * pay.length) pay) m) m

/-- The first tick of a schedule that is still to come. -/
def firstTick (x : Part) : Option (BitVec 48) :=
  (x.sched.filter (fun e => !e.done)).foldl (fun a e => match a with
    | none => some e.tick
    | some t => some (if 2 ^ 47 ≤ (e.tick - t).toNat then e.tick else t)) none

/-- Every later tick of the job moves by Δ (R441 step 3). -/
def moveForCkpt (k : CkptArm) (x : Part) : Part :=
  match firstTick x with
  | some t => shiftSchedule (shiftTo t k.resume) x
  | none => x

/-- The tiles go on at cycle 0 of the next tick (R441 step 4), unless a clock event holds them. -/
def releaseCkpt (p : Nat) (m : Mod) : Mod :=
  let m := modPart p (fun x => { x with ckpt := none, heldForCkpt := false }) m
  let at_ := cycleOfTick m (m.tick + 1) - (partOf m p).lag
  (tilesOfPart m p).foldl (fun m t =>
    if clockHeld m t then m
    else if (tdOf m t).st = .waiting && (tdOf m t).wait.kind == .tick then releaseAt at_ t m
    else modTd t (fun d => { d with nextIssue := Nat.max d.nextIssue at_ }) m) m

/-- A save ends with COMMAND_DONE. -/
def endSave (p status : Nat) (k : CkptArm) (m : Mod) : Mod := commandDone k.opcode k.seq p status (releaseCkpt p m)

/-- CHECKPOINT_START (R40, R441): at the boundary after the commit, at the tick after it or the first tick that follows. A save that
cannot be sent ends at once: with REMOTE where the link is not UP, with BAD_ARGUMENT where the image exceeds the capacity, the port is not
the partition's or a word of the image is uncorrectable (log entry 66). -/
def execCheckpointStart (p : PartId) (s : State) : Ans :=
  onMod (fun m =>
    let p := p.val
    let x := partOf m p
    match x.ckpt with
    | none => m
    | some k =>
      if m.power.active || x.jstate ≠ .running || x.stepFailed || !k.due || k.running || !x.heldForCkpt ||
          !tickReached m (boundaryTick m p (x.commitTick + 1)).1 then m
      else
        let late := (boundaryTick m p (x.commitTick + 1)).2
        let m := modPart p (fun x => moveForCkpt k { x with lateEvents := if late then satAdd 32 x.lateEvents 1 else x.lateEvents }) m
        let img := ckImage m p
        if k.capacity < imageBytes m p || !portIn m p k.port then endSave p stBadArgument k m
        else if (portOf m k.port).state ≠ .up then endSave p stRemote k m
        else if img.1 then endSave p stBadArgument k img.2.2
        else sendImage k (bytesWords img.2.1) (modPart p (fun x => { x with ckpt := some { k with running := true } }) img.2.2)) s

/-- CKPT_SAVE_COMPLETE (R441): every packet is answered, or the remote window refused one. -/
def execCkptSaveComplete (p : PartId) (remoteOk : Bool) (s : State) : Ans :=
  onMod (fun m =>
    match (partOf m p.val).ckpt with
    | some k => if k.running && !m.power.active then endSave p.val (if remoteOk then stOk else stRemote) k m else m
    | none => m) s

/-! ## CKPT_RESTORE (R443) -/

/-- An entry of an image that matches one of the loaded job: its GEN and the offset of its data. -/
def findEntry (img : List Byte) (n : Nat) (e : CkEnt) : Option (Nat × Nat) :=
  (List.range n).findSome? (fun i =>
    let at_ := 256 + 32 * i
    if leAt img at_ 8 = e.id then
      if leAt img (at_ + 8) 1 = e.kind && leAt img (at_ + 9) 1 == e.algo && leAt img (at_ + 10) 1 == e.wcFmt && leAt img (at_ + 16) 8 == e.size
      then some (leAt img (at_ + 12) 4, leAt img (at_ + 24) 8) else none
    else none)

/-- Is an image sound (R442): MAGIC, VERSION, its length, its digest? -/
def imageOk (img : List Byte) : Bool :=
  let total := leAt img 32 8
  leAt img 0 4 == 0x4B434C37 && leAt img 4 2 == 1 && decide (304 ≤ total) && decide (total ≤ img.length) &&
    decide (256 + 32 * leAt img 8 4 + 48 ≤ total) &&
    sha384 (img.take (total - 48)) == (img.drop (total - 48)).take 48

/-- The entries of the loaded job with what the image gives for each; none where one is missing, does not match or lies outside. -/
def matchEntries (m : Mod) (p : Nat) (img : List Byte) : Option (List (Obj × Nat × Nat)) :=
  let total := leAt img 32 8
  let objs := (partOf m p).objects.filter (fun o => o.shard.isSome || o.persistent)
  let found := (objs.zip (ckEntries m p)).map (fun x =>
    ((findEntry img (leAt img 8 4) x.2).filter (fun y => arraysEnd y.2 x.2.arrays + 48 ≤ total)).map (fun y => (x.1, y.1, y.2)))
  if found.all (·.isSome) then some (found.filterMap id) else none

/-- Write bytes of DRAM. -/
def writeDram (a : Nat) (data : List Byte) (m : Mod) : Mod := (memPieces a data.length).foldl (memWritePiece data) m

/-- Write an array from an offset of the image into its runs. -/
def writeRuns (img : List Byte) : Nat → List (Nat × Nat) → Mod → Mod
  | _, [], m => m
  | off, r :: l, m => writeRuns img (off + r.2) l (writeDram r.1 ((img.drop off).take r.2) m)

/-- Write the arrays of an entry. -/
def writeArrays (img : List Byte) : Nat → List (List (Nat × Nat)) → Mod → Mod
  | _, [], m => m
  | off, a :: l, m => writeArrays img (up256 off + runBytes a) l (writeRuns img (up256 off) a m)

/-- Restore one object or shard. -/
def restoreObj (img : List Byte) (m : Mod) (x : Obj × Nat × Nat) : Mod :=
  match x.1.shard with
  | some i =>
    let m := modShard i (fun s => { s with gen := BitVec.ofNat 32 x.2.1, staged := false }) m
    let s := shardOf m i
    writeArrays img x.2.2 ((shardArrays s).map (arrayRuns s)) m
  | none => writeArrays img x.2.2 [[(x.1.firstPage * 0x200000, x.1.bytes)]] m

/-- The image is read by GET packets (R443). -/
def sendGets (k : CkptArm) (units : Nat) (m : Mod) : Mod :=
  (List.range units).foldl (fun m i => sendDma k.port opGet (ckPacket m k (4096 * i) 4096 []) m) m

/-- The image fits: it is written (R443, R409). -/
def restoreAll (p : Nat) (img : List Byte) (l : List (Obj × Nat × Nat)) (m : Mod) : Mod :=
  modPart p (fun x => { x with
    stepNum := BitVec.ofNat 32 (leAt img 12 4), superstep := BitVec.ofNat 32 (leAt img 16 4), stepFirst := BitVec.ofNat 32 (leAt img 16 4)
    lossMean := BitVec.ofNat 32 (leAt img 20 4), lossSamples := leAt img 24 1, restoreRequired := false }) (l.foldl (restoreObj img) m)

/-- CKPT_RESTORE (R443): `image` is what the remote module returns, none if its window refuses or does not answer. An image that does
not fit leaves the job unloaded. -/
def execCkptRestore (f : Frame) (image : Option (List Byte)) (s : State) : Ans :=
  execCommandChip f 0x0307 true (fun ch m =>
    let p := argPart f
    let q := bits (arg f 4) 21 16
    let k : CkptArm := { step := 0, resume := 0, dest := bits (arg f 4) 13 0, port := q, addr := arg48 f 5, capacity := 0
                         tag := bits (arg f 8) 15 0, seq := f.seq, opcode := 0x0307, running := false, due := false }
    checked [(!plainOk f [(0, 7), (4, 0x3F3FFF), (5, all32), (6, 0xFFFF), (7, all32), (8, 0xFFFF)], stBadCommand),
      ((partOf m p).jstate != .loaded, stPartState), (badRemote f || !portIn m p q, stBadArgument), ((portOf m q).state != .up, stLinkDown)] m
      (match image with
        | none => { status := stRemote, m := sendGets k (arg f 7) m, undo := .restore p, most := 1024 * arg f 7 }
        | some img =>
          let img := img.take (4096 * arg f 7)
          let m := sendGets k (arg f 7) m
          match if imageOk img then matchEntries m p img else none with
          | none => { refuse stCkpt (unloadJob ch p m) with most := 1024 * arg f 7 }
          | some l => { status := stOk, m := restoreAll p img l m, undo := .restore p, most := 1024 * arg f 7 })) s

end Sys2Proof.Machine
end

