-- ==== Sys2Proof/Machine/Atgen.lean ====
section
/-! DEFINITION. Atgen: certificates, firmware images, configuration records, boot verification, quotes (16 R445 to R461). -/

namespace Sys2Proof.Machine

/-! ## Certificates (R447, R450; log entry 72) -/

/-- One DER element: its tag, its contents, what follows it. Lengths have their shortest form and at most two bytes. -/
def derOne (l : List Byte) : Option (Nat × List Byte × List Byte) :=
  match l with
  | t :: n :: r =>
    let cut (n : Nat) (r : List Byte) : Option (Nat × List Byte × List Byte) :=
      if r.length < n then none else some (t.toNat, r.take n, r.drop n)
    if n.toNat < 128 then cut n.toNat r
    else match n.toNat, r with
      | 0x81, a :: r => if a.toNat < 128 then none else cut a.toNat r
      | 0x82, a :: b :: r => if a.toNat = 0 then none else cut (256 * a.toNat + b.toNat) r
      | _, _ => none
  | _ => none

/-- The DER elements that a byte string holds one after the other. -/
def derAll : Nat → List Byte → Option (List (Nat × List Byte))
  | _, [] => some []
  | 0, _ => none
  | f + 1, l =>
    match derOne l with
    | some (t, c, r) => (derAll f r).map (fun x => (t, c) :: x)
    | none => none

/-- The elements of a constructed element of a tag. -/
def derIn (tag : Nat) (e : Nat × List Byte) : Option (List (Nat × List Byte)) :=
  if e.1 = tag then derAll 64 e.2 else none

/-- A whole number of DER that is not negative. -/
def derNat (e : Nat × List Byte) : Option Nat :=
  match e.2 with
  | a :: _ => if e.1 = 2 && decide (a.toNat < 128) then some (beNat e.2) else none
  | [] => none

/-- Contents of the algorithm identifier of ecdsa-with-SHA384. -/
def algSignature : List Byte := [0x06, 0x08, 0x2A, 0x86, 0x48, 0xCE, 0x3D, 0x04, 0x03, 0x03]
/-- Contents of the algorithm identifier of a public key on brainpoolP384r1. -/
def algKey : List Byte :=
  [0x06, 0x07, 0x2A, 0x86, 0x48, 0xCE, 0x3D, 0x02, 0x01, 0x06, 0x09, 0x2B, 0x24, 0x03, 0x03, 0x02, 0x08, 0x01, 0x01, 0x0B]
/-- The object identifier of the attribute serialNumber. -/
def oidSerial : List Byte := [0x55, 0x04, 0x05]

/-- What Atgen reads of a certificate (R447): the signed part, the names, the public key, the serialNumber attribute of the subject, the
signature. -/
structure Cert where
  signed : List Byte
  issuer : List Byte
  subject : List Byte
  key : List Byte
  serial : Option (List Byte)
  r : Nat
  s : Nat
  deriving DecidableEq, Repr

/-- The serialNumber attribute of a name. -/
def nameSerial (name : List Byte) : Option (List Byte) :=
  (((derAll 64 name).getD []).flatMap (fun set => ((derIn 0x31 set).getD []).filterMap (fun a =>
    match derIn 0x30 a with
    | some [(6, o), (_, v)] => if o = oidSerial then some v else none
    | _ => none))).head?

/-- The public key of a subjectPublicKeyInfo. -/
def keyInfo (e : Nat × List Byte) : Option (List Byte) :=
  match derIn 0x30 e with
  | some [(0x30, a), (3, k)] => if a = algKey && nth 1 k 0 == 0 then some (k.drop 1) else none
  | _ => none

/-- r and s of a signature value. -/
def sigValue (e : Nat × List Byte) : Option (Nat × Nat) :=
  match e with
  | (3, z :: l) =>
    if z ≠ 0 then none
    else match derAll 2 l with
      | some [q] =>
        (match derIn 0x30 q with
        | some [a, b] => (match derNat a, derNat b with
          | some r, some s => some (r, s)
          | _, _ => none)
        | _ => none)
      | _ => none
  | _ => none

/-- Read a certificate (R447): X.509 version 3, at most 2,048 bytes. -/
def readCert (l : List Byte) : Option Cert :=
  if 2048 < l.length then none
  else match derOne l with
    | some (0x30, body, []) =>
      (match derOne body with
      | some (0x30, tbs, rest) =>
        (match derAll 3 rest, derAll 16 tbs with
        | some [(0x30, alg), sig], some (v :: _ :: (0x30, alg2) :: (0x30, issuer) :: _ :: (0x30, subject) :: spki :: _) =>
          (match sigValue sig, keyInfo spki with
          | some (r, s), some key =>
            if v = (0xA0, [0x02, 0x01, 0x02]) && alg == algSignature && alg2 == algSignature then
              some { signed := body.take (body.length - rest.length), issuer, subject, key, serial := nameSerial subject, r, s }
            else none
          | _, _ => none)
        | _, _ => none)
      | _ => none)
    | _ => none

/-- Is a certificate issued and signed by another one's subject? -/
def certUnder (c root : Cert) : Bool := c.issuer == root.subject && ecdsaVerify root.key c.signed c.r c.s

/-- Upper-case hexadecimal digits of bytes, in ASCII. -/
def hexDigits (l : List Byte) : List Byte :=
  let digit (n : Nat) : Byte := BitVec.ofNat 8 (if n < 10 then 48 + n else 55 + n)
  l.flatMap (fun b => [digit (b.toNat / 16), digit (b.toNat % 16)])

/-- A certificate on the carrier flash (R449). -/
def flashCert (a : Atgen) (i : Nat) : Option Cert := readCert (mget [] a.certs i)

/-! ## Firmware images (R451, R452) -/

/-- A little-endian field of an image. -/
def imgField (l : List Byte) (at_ n : Nat) : Nat := leNat ((l.drop at_).take n)
/-- Certificate 3 as an image carries it. -/
def imgCert (l : List Byte) : List Byte := (l.drop 256).take (imgField l 24 2)
/-- What the measurement and the signature cover (R451). -/
def imgSigned (l : List Byte) : List Byte := l.take 128 ++ imgCert l ++ l.drop (256 + imgField l 24 2)

/-- Check 1 of R452: MAGIC, FORMAT, reserved fields, lengths, stepping. -/
def imgForm (ch : Chip) (l : List Byte) : Bool :=
  let payload := imgField l 16 4
  let cert := imgField l 24 2
  decide (256 ≤ l.length) && imgField l 0 4 == 0x4D574647 && imgField l 4 2 == 1 && decide (imgField l 6 2 ≤ 1) &&
    decide (imgField l 12 4 ≤ 63) && decide (4 ≤ payload) && decide (payload ≤ 16777216) && payload % 4 == 0 &&
    decide (imgField l 20 4 < 4) && bit (imgField l 20 4) (steppingNo ch.stepping - 1) &&
    decide (1 ≤ cert) && decide (cert ≤ 2048) && l.length == 256 + cert + payload &&
    ((l.drop 26).take 102).all (· == 0) && ((l.drop 224).take 32).all (· == 0)

/-- Does Atgen accept an image (R452)? -/
def imgAccepted (ch : Chip) (a : Atgen) (l : List Byte) : Bool :=
  imgForm ch l &&
    (match readCert (imgCert l), flashCert a 5 with
    | some c, some root =>
      c.issuer == root.subject && keyId root.key == a.fwRootId && ecdsaVerify root.key c.signed c.r c.s &&
        verifyBytes c.key (imgSigned l) ((l.drop 128).take 96) && decide (a.floor ≤ imgField l 12 4)
    | _, _ => false)

/-! ## Configuration records (R453) -/

/-- Is a record well formed: version, length of its body? -/
def recordForm (l : List Byte) : Bool :=
  decide (168 ≤ l.length) && imgField l 2 2 == 1 && decide (imgField l 4 4 ≤ 65536) && l.length == 168 + imgField l 4 4

/-- Is a record valid, under a certificate 4 that has been verified (R453)? -/
def recordValid (a : Atgen) (c4 : Cert) (l : List Byte) : Bool :=
  recordForm l && (l.drop 8).take 16 == a.serial && (l.drop 24).take 48 == keyId a.ikPub &&
    verifyBytes c4.key (l.take (l.length - 96)) (l.drop (l.length - 96))

/-- The configuration measurement, if each of the five types appears exactly once and every record is valid (R453). -/
def configMeasurement (a : Atgen) : Option (List Byte) :=
  match flashCert a 4, flashCert a 2 with
  | some c4, some root =>
    let of (t : Nat) : List (List Byte) := a.records.filter (fun l => imgField l 0 2 == t)
    if certUnder c4 root && a.records.all (recordValid a c4) && [1, 2, 3, 4, 5].all (fun t => (of t).length == 1) then
      some (sha384 ([1, 2, 3, 4, 5].flatMap (fun t => (of t).flatten)))
    else none
  | _, _ => none

/-! ## Boot verification (R454) -/

/-- Step 1: the key store (log entry 73: the key pair fits, the identifiers and the floor have their form). -/
def keyStoreOk (a : Atgen) : Bool :=
  decide (0 < a.ikPriv) && decide (a.ikPriv < curveN) && publicKey a.ikPriv == a.ikPub && a.deviceRootId.length == 48 &&
    a.fwRootId.length == 48 && decide (a.floor ≤ 63)

/-- Step 2: certificates 2, 1 and 0. -/
def identityOk (a : Atgen) : Bool :=
  match flashCert a 0, flashCert a 1, flashCert a 2 with
  | some c0, some c1, some c2 =>
    certUnder c2 c2 && keyId c2.key == a.deviceRootId && certUnder c1 c2 && certUnder c0 c1 && c0.key == a.ikPub &&
      c0.serial == some (hexDigits a.serial)
  | _, _, _ => false

/-- The image of a slot. -/
def slotImage (a : Atgen) (b : Bool) : List Byte := if b then a.slotB else a.slotA

/-- Step 3: the slot whose image is accepted, the active one first. -/
def bootSlot (ch : Chip) (a : Atgen) : Option Bool :=
  if imgAccepted ch a (slotImage a a.activeB) then some a.activeB
  else if imgAccepted ch a (slotImage a (!a.activeB)) then some (!a.activeB)
  else none

/-- Boot verification (R454): the values of the Atgen registers are set anew; in recovery the running SVN and version read 0 (R456). -/
def atgenBoot (ch : Chip) (a : Atgen) : Atgen :=
  let a := { a with
    runningSvn := 0, runningVersion := 0, raiseFloor := false, staged := false, fallback := false, bootB := a.activeB, bootResult := 0
    fwMeasure := [], configMeasure := [] }
  if !keyStoreOk a then { a with bootResult := 1 }
  else if !identityOk a then { a with bootResult := 2 }
  else match bootSlot ch a with
    | none => { a with bootResult := 3, bootB := !a.activeB, fallback := true }
    | some b =>
      let a := { a with bootB := b, fallback := b != a.activeB }
      match configMeasurement a with
      | none => { a with bootResult := 4 }
      | some c =>
        let l := slotImage a b
        { a with
          runningSvn := imgField l 12 4, runningVersion := BitVec.ofNat 32 (imgField l 8 4), raiseFloor := imgField l 6 2 == 1
          fwMeasure := sha384 (imgSigned l), configMeasure := c }

/-- SVN_FLOOR_RAISE (R455): once the boot is complete, the floor rises to the SVN of a running image that asks for it. -/
def execSvnFloorRaise (s : State) : Ans :=
  onMod (fun m =>
    if m.bringup == .ready && m.atgen.raiseFloor && decide (m.atgen.floor < m.atgen.runningSvn) then
      { m with atgen := { m.atgen with floor := m.atgen.runningSvn } }
    else m) s

/-! ## Commands (R449, R457 to R459) -/

/-- CERT_READ (R449): certificate 3 is that of the running image; in recovery none runs. -/
def execCertRead (f : Frame) (s : State) : Ans :=
  execCommand f 0x0602 false (fun m =>
    let i := arg f 0
    checked [(!plainOk f [(0, 15)], stBadCommand), (decide (5 < i) || (i == 3 && m.atgen.bootResult != 0), stBadArgument)] m
      { status := stOk, data := if i = 3 then imgCert (slotImage m.atgen m.atgen.bootB) else mget [] m.atgen.certs i, m }) s

/-- Store an accepted image in the slot that did not boot, read it back, check it again, mark the slot active (R457). -/
def installImage (ch : Chip) (l : List Byte) (m : Mod) : Answer :=
  let a := m.atgen
  if !imgAccepted ch a l then refuse stDenied m
  else
    let b := !a.bootB
    let stored := if b then { a with slotB := l } else { a with slotA := l }
    let a' := if imgAccepted ch stored (slotImage stored b) then { stored with activeB := b, staged := true } else stored
    { status := stOk, m := { m with atgen := a' }, undo := .fw a.slotA a.slotB a.activeB a.staged }

/-- FW_INSTALL (R452, R457): refused while a job runs. -/
def execFwInstall (f : Frame) (s : State) : Ans :=
  execCommandChip f 0x0603 true (fun ch m =>
    let a := arg48 f 1
    let n := arg f 3
    checked [(!plainOk f [(1, all32), (2, 0xFFFF), (3, all32)], stBadCommand), (anyPart m jobRuns, stJobRunning),
      (decide (dramEnd < a + n) || (0 < n && (pagesOfBytes a n).any (fun k => !isMapped (pageOf m k))), stUnmapped)] m
      (let r := readDram m a n
       let most := (n + 3) / 4
       if r.1 then { refuse stUncorrectable r.2.2 with most } else { installImage ch r.2.1 r.2.2 with most })) s

/-- The signed bytes of a quote that do not come from its sample (R458; table Quote layout). -/
def quoteOf (ch : Chip) (nonce : List Byte) (m : Mod) : Quote :=
  let a := m.atgen
  { head := leBytes 4 0x51544B37 ++ leBytes 2 1 ++ leBytes 2 848 ++ a.serial ++
      [BitVec.ofNat 8 (steppingNo ch.stepping), BitVec.ofNat 8 (steppingNo ch.stepping)] ++ leBytes 2 m.moduleNum ++
      leBytes 4 a.runningVersion.toNat ++ [BitVec.ofNat 8 a.runningSvn, BitVec.ofNat 8 a.floor, 0, 0] ++ leBytes 4 a.quoteCount
    tail := nonce ++ a.fwMeasure ++ a.configMeasure ++ keyId a.ikPub }

/-- QUOTE (R458, R459): 848 bytes, answered at the end of the tick that begins next (log entry 107). -/
def execQuote (f : Frame) (s : State) : Ans :=
  execCommandChip f 0x0601 false (fun ch m =>
    checked [(!plainOk f ((List.range 12).map (fun i => (i, all32))), stBadCommand)] m
      (let m := { m with atgen := { m.atgen with quoteCount := satAdd 32 m.atgen.quoteCount 1 } }
       { status := stOk, w := [848], hold := true
         m := { m with box := { m.box with quote := some (quoteOf ch (wordsBytes (f.w.take 12)) m) } } })) s

end Sys2Proof.Machine
end

