-- ==== Sys2Proof/Machine/Power.lean ====
section
/-! DEFINITION. Ballast, the power policy, the samples and the emergency stop (17 R462 to R481; 19 R516). -/

namespace Sys2Proof.Machine

/-- A POWER event (R481). -/
def powerEvent (cause : Nat) (m : Mod) : Mod := if gondolaRuns m then hostEvent 0x08 0xFF 0xFFFF cause 0 m else m

/-! ## Policy (R472 to R474) -/

/-- The floor of a half in W; the policy holds units of 4 W. -/
def floorW (q : Policy) (h : Nat) : Nat := 4 * mget 0 q.floors h
/-- The sum of the floors in W. -/
def floorSum (q : Policy) : Nat := (List.range 8).foldl (fun a h => a + floorW q h) 0

/-- The policy of the masked halves is changed, and the module ceilings (R472). -/
def withPolicy (q : Policy) (mask : Nat) (slow : Bool) (pCeil iCeil floor : Nat) : Policy :=
  { pCeil, iCeil
    clockCeil := maskOf (indices 8 (fun h => if bit mask h then slow else bit q.clockCeil h))
    floors := (maskBits 8 mask).foldl (fun a h => mset 0 a h (floor / 4)) q.floors }

/-- POLICY_CONFLICT (R473). -/
def policyConflict (q : Policy) : Bool :=
  let total := floorSum q
  (total != 0 && decide (Nat.min q.pCeil (q.iCeil * 38) < total + 1928)) ||
    (List.range 8).any (fun h => decide ((if bit q.clockCeil h then 340 else 640) < floorW q h))

/-- The first period start at least 64 ticks after a tick (R474). -/
def policyStart (t : BitVec 48) : BitVec 48 := BitVec.ofNat 48 ((t.toNat + 64 + 1023) / 1024 * 1024)

/-- POWER_SET (R472 to R474): checked against the policy in force; it replaces one that is pending. -/
def execPowerSet (f : Frame) (s : State) : Ans :=
  execCommand f 0x0501 false (fun m =>
    let mask := arg f 1
    let pc := arg f 3
    let ic := arg f 4
    let fl := arg f 5
    let q := withPolicy m.power.policy mask (bit (arg f 2) 0) pc ic fl
    checked [(!plainOk f [(1, 0xFF), (2, 1), (3, all32), (4, all32), (5, all32)], stBadCommand),
      (mask == 0 || decide (pc < 1000) || decide (6000 < pc) || decide (ic < 20) || decide (150 < ic) || decide (640 < fl) || fl % 4 != 0,
        stBadArgument),
      (policyConflict q, stPolicy)] m
      (done { m with power := { m.power with pending := some q, policyTick := policyStart m.tick } })) s

/-- The pending policy takes effect at its tick. -/
def takePolicy (m : Mod) : Mod :=
  match m.power.pending with
  | some q =>
    if firmwareRuns m && tickReached m m.power.policyTick then
      powerEvent 0x07 { m with power := { m.power with policy := q, pending := none } }
    else m
  | none => m

/-- POLICY_TAKES_EFFECT (R474, R481). -/
def execPolicyTakesEffect (s : State) : Ans := onMod takePolicy s

/-! ## The period of Ballast (R469, R471, R476) -/

/-- The budget B of R469 in hundredths of a watt, from the lowest voltage of the period in 10 mV. -/
def budget100 (q : Policy) (vMin : Nat) : Nat := Nat.min (100 * q.pCeil) (q.iCeil * Nat.max 3800 vMin)

/-- The base draw: the mean draw outside the halves plus 5 %, rounded up (R469), from the sum of `n` samples. -/
def baseDraw (sum n : Nat) : Nat := (105 * sum + 100 * n - 1) / (100 * n)

/-- The allotment of a half in whole watts (R469, R476; rounded down, log entry 74). -/
def allotment (q : Policy) (h100 : Int) (demand : List Nat) (hot : Bool) (h : Nat) : Nat :=
  let total := floorSum q
  let need (k : Nat) : Nat := nth 0 demand k - floorW q k
  let needs := (List.range 8).foldl (fun a k => a + need k) 0
  let free := (h100 - 100 * (total : Int)).toNat
  let a := if h100 < 100 * (total : Int) then floorW q h
    else if needs = 0 then floorW q h + free / 800
    else floorW q h + free * need h / (100 * needs)
  if hot then Nat.min 340 a else a

/-- What the samples of the period before the current tick add up to; nothing where there were none. -/
def lastPeriod (m : Mod) : PeriodAcc :=
  let mine (a : PeriodAcc) : Bool := a.no + 1 == m.tick.toNat / 1024
  if mine m.power.acc then m.power.acc else if mine m.power.accOld then m.power.accOld else {}

/-- Mean of a sum over n samples, rounded down (log entry 74); 0 of none. -/
def meanDown (sum n : Nat) : Nat := sum / n

/-- One period of Ballast, begun at cycle 0 of a tick that is a multiple of 1,024, from the samples of the period before (R469, R471, R476). A
period without a sample is taken at 38 V and with no draw (log entry 139). -/
def ballastPeriod (m : Mod) : Mod :=
  if !firmwareRuns m || m.tick.toNat % 1024 ≠ 0 || m.phase ≠ 0 then m
  else
    let t := lastPeriod m
    let above := decide (budget100 m.power.policy t.vMin * t.count < 100 * t.sumW)
    let m := if above then powerEvent 0x06 { m with power := { m.power with exceeded := satAdd 16 m.power.exceeded 1 } } else m
    let m := takePolicy m
    let q := m.power.policy
    let demand := (List.range 8).map (fun h => meanDown (nth 0 t.halves h) t.count)
    let h100 : Int := (budget100 q t.vMin : Int) - 100 * (baseDraw t.outside t.count : Int)
    (List.range 8).foldl (fun m h => modHalf h (fun x =>
      let hot := x.hot && !x.cool
      let c := nth (0, 0) t.compute h
      { x with
        computeW := if c.2 = 0 then none else some (meanDown c.1 c.2), hot := hot, cool := hot, allotW := allotment q h100 demand hot h }) m) m

/-- BALLAST_PERIOD (R469): of the period that starts at a tick. -/
def execBallastPeriod (start : BitVec 48) (s : State) : Ans := onMod (fun m => if m.tick = start then ballastPeriod m else m) s

/-! ## Samples and the emergency stop (R475 to R478) -/

/-- A trip (R477): the clocks of the tile and fabric domains stop. A condition met during a stop must clear too before the restart. -/
def trip (cause : Nat) (m : Mod) : Mod :=
  let m := { m with power := { m.power with met := m.power.met ||| (1 <<< cause) } }
  if m.power.active then m
  else powerEvent cause { noteSet 0xD068 58 [] m with power := { m.power with
    cause := cause, active := true, valid := true, stopFrom := m.lost, phase := m.phase, stopPhase := m.phase, tick := m.tick, stops := satAdd 16 m.power.stops 1 } }

/-- Length of a run of samples. -/
def run (c : Bool) (n : Nat) : Nat := if c then n + 1 else 0

/-- Since when a condition has held without a break. -/
def since (c : Bool) (t : BitVec 48) (old : Option (BitVec 48)) : Option (BitVec 48) :=
  if c then (match old with
    | some u => some u
    | none => some t)
  else none

/-- Mean of one quantity of the samples, rounded down (log entry 74). -/
def meanOf (l : List (BitVec 48 × PowerTelemetry)) (f : PowerTelemetry → Nat) : Nat :=
  Nat.min 65535 (meanDown (l.foldl (fun a e => a + f e.2) 0) l.length)

/-- Is a half in a compute phase at 800 MHz (R464, R470)? -/
def computesFull (m : Mod) (h : Nat) : Bool :=
  (halfSt m h).clk == .full && !m.power.active &&
    (match partOfHalf m h with
    | some p => (partOf m p).jstate == .running && (partOf m p).xphase == .compute
    | none => false)

/-- Add a sample to the sums of a period. -/
def addSample (m : Mod) (t : PowerTelemetry) (a : PeriodAcc) : PeriodAcc :=
  { a with
    count := a.count + 1, vMin := if a.count = 0 then t.tenMilliVolt else Nat.min a.vMin t.tenMilliVolt
    sumW := a.sumW + t.watt, outside := a.outside + t.outsideW
    halves := (List.range 8).map (fun h => nth 0 a.halves h + nth 0 t.halfW h)
    compute := (List.range 8).map (fun h =>
      let c := nth (0, 0) a.compute h
      if computesFull m h then (c.1 + nth 0 t.halfW h, c.2 + 1) else c) }

/-- The sums with a sample of the present period; with the first one the sums of the period before are set aside. -/
def accumulate (m : Mod) (t : PowerTelemetry) (p : Power) : Power :=
  let n := m.tick.toNat / 1024
  let p := if p.acc.no = n then p else { p with acc := { no := n }, accOld := p.acc }
  { p with acc := addSample m t p.acc }

/-- A power sample: means of the last 64 ticks, sums of the period, energy, runs (R469, R475, R480). -/
def recordSample (t : PowerTelemetry) (m : Mod) : Mod :=
  let p := accumulate m t m.power
  let l := p.samples.filter (fun e => decide ((m.tick - e.1).toNat < 64)) ++ [(m.tick, t)]
  let v := t.tenMilliVolt; let i := t.deciAmp; let w := t.watt
  let m := { m with power := { p with
    samples := l, pin := meanOf l (·.watt), iin := meanOf l (·.deciAmp), vin := meanOf l (·.tenMilliVolt)
    energyUJ := p.energyUJ + w
    overI := run (decide (1800 < i)) p.overI, overI10 := run (decide (1500 < i)) p.overI10
    overP := run (decide (7200 < w)) p.overP, overP10 := run (decide (6000 < w)) p.overP10
    badV := run (decide (v < 3800) || decide (6000 < v)) p.badV
    clearI := since (decide (i < 1500)) m.tick p.clearI, clearP := since (decide (w < 6000)) m.tick p.clearP
    clearV := since (decide (4000 ≤ v) && decide (v ≤ 5800)) m.tick p.clearV } }
  (List.range 8).foldl (fun m h => modHalf h (fun x => { x with meanW := meanOf l (fun y => nth 0 y.halfW h) }) m) m

/-- POWER_SAMPLE (R475, R477): samples come every 1 µs, so 10 ms are 10,000 of them. -/
def execPowerSample (tenMilliVolt deciAmp : Nat) (draw : PowerDraw) (s : State) : Ans :=
  onModIf (powerOk draw) (fun m =>
    if !m.powered then m
    else
      let m := recordSample { draw with tenMilliVolt, deciAmp } m
      let m := if 4 ≤ m.power.overI || 10000 < m.power.overI10 then trip 1 m else m
      let m := if 4 ≤ m.power.overP || 10000 < m.power.overP10 then trip 2 m else m
      if 4 ≤ m.power.badV then trip 4 m else m) s

/-- The thermal limit of a half (R476): above 95 °C it is active; a sample of 90 °C or more breaks its cooling. -/
def thermalLimit (h t : Nat) (m : Mod) : Mod :=
  if 95 < t then
    let m := if (halfSt m h).hot then m else powerEvent 0x08 m
    modHalf h (fun x => { x with hot := true, cool := false, allotW := Nat.min 340 x.allotW }) m
  else if 90 ≤ t then modHalf h (fun x => { x with cool := false }) m
  else m

/-- THERMAL_SAMPLE (R475, R476). -/
def execThermalSample (tele : ThermalTelemetry) (s : State) : Ans :=
  onModIf (thermalOk tele) (fun m =>
    if !m.powered then m
    else
      let die := tele.dieHalf.foldl Nat.max 0
      let m := { m with power := { m.power with
        dieHalf := tele.dieHalf, dieMax := Nat.min 255 die, stackMax := Nat.min 255 tele.stackMax
        inlet := Nat.min 255 tele.inlet, outlet := Nat.min 255 tele.outlet } }
      let m := (List.range 8).foldl (fun m h => thermalLimit h (nth 0 tele.dieHalf h) m) m
      if 105 < die || 95 < tele.stackMax then trip 3 m else m) s

/-- Has a condition held for 64 consecutive ticks? -/
def heldLong (m : Mod) (x : Option (BitVec 48)) : Bool :=
  match x with
  | some t => decide (64 ≤ (m.tick - t).toNat)
  | none => false

/-- Has the condition of a cause cleared (table Emergency trips)? -/
def tripCleared (m : Mod) (cause : Nat) : Bool :=
  match cause with
  | 1 => heldLong m m.power.clearI
  | 2 => heldLong m m.power.clearP
  | 3 => decide (m.power.dieMax < 95) && decide (m.power.stackMax < 85)
  | _ => heldLong m m.power.clearV

/-- The waits of the units that an emergency stop pauses resume unchanged (R301): their requests come later by the stop's stack cycles. -/
def resumeWaits (d : Nat) (m : Mod) : Mod :=
  let late (r : Req) : Req := if r.rank = 1 || r.rank = 3 then r else { r with presentAt := r.presentAt + d, arrived := r.arrived + d }
  { m with stk := mmapVals {} (fun _ (s : Stack) =>
      { s with chans := mmapVals {} (fun _ (c : Chan) => { c with reqs := c.reqs.map late }) s.chans }) m.stk }

/-- The clocks restart at cycle PHASE of the first tick that follows: of the one that begins now, or of the next (R478). -/
def restartClocks (m : Mod) : Mod :=
  let m := if m.phase = 0 then m else nextTick m
  let m := advance (m.power.stopPhase - m.phase) m
  let m := resumeWaits (standing m * 5 / 4) m
  powerEvent 0x05 { m with power := { m.power with
    active := false, met := 0, restartNow := m.now, stopTicks := satAdd 32 m.power.stopTicks (m.tick - m.power.tick).toNat } }

/-- EMERGENCY_RESTART (R478, R479): what waited arrives, then the ABANDONs, FAULTs and kills held are carried out; a sync that closed
before the stop and was not ready in it is reported (R42, R49). -/
def execEmergencyRestart (s : State) : Ans :=
  if !s.m.power.active || !([1, 2, 3, 4].all (fun c => !bit s.m.power.met c || tripCleared s.m c)) then .next s
  else
    let m := restartClocks s.m
    let m := deliverAll m
    let syms := m.power.heldSyms
    let kills := m.power.heldKills
    let m := { m with power := { m.power with heldSyms := [], heldKills := [] } }
    let m := syms.foldl (fun m e => abandonStep e.2.1 e.2.2.seq e.2.2.arg (m.role != roleMaster) (BitVec.ofNat 48 e.1) m) m
    let m := kills.foldl (fun m p => killNow s.chip p m) m
    let m := dueResets s.chip (readyAll m)
    .next { s with m := if kills.isEmpty then m else finishCommand (endsDue s.chip m) }

/-! ## The telemetry pair (R516) -/

/-- The telemetry map. -/
def telemetryMap (m : Mod) : List Byte :=
  leBytes 8 (powerStatus m).toNat ++ leBytes 8 (thermalStatus m).toNat ++
    [BitVec.ofNat 8 (packN [(0, b2n m.power.active), (1, b2n (m.bringup == .ready))])]

/-- TELEMETRY_READ (R516): the module answers its own 7-bit address from the end of phase GONDOLA on, and no other, the general call among
them. Of the bytes written the first is the offset, and each further one is refused with NACK; a read without one has offset 0 (log entry
156). -/
def execTelemetryRead (first : TelStart) (count : Nat) (s : State) : Ans :=
  onModIf (decide (first.offset < 256)) (fun m =>
    if !firmwareRuns m || first.addr.toNat ≠ 0x60 + m.position then m
    else
      let o := if first.written = 0 then 0 else first.offset
      emit (.telemetry (first.written - 1) ((List.range count).map (fun i => nth 0 (telemetryMap m) (o + i)))) m) s

end Sys2Proof.Machine
end

