-- ==== Sys2Proof/Machine/Resets.lean ====
section
/-! DEFINITION. Cold and warm reset, power-on and bring-up (18 R482 to R492; 19 R514, R515). -/

namespace Sys2Proof.Machine

/-- A module that resets holds no barrier line low (R489). -/
def releaseLine (m : Mod) : Mod := if m.bridleEnable && m.lineOn && !m.released then emit (.barrier true) m else m

/-- TICK_OUT of a module that resets (R489, R510): the through-path of positions 1 and 2 works on; any other is low. -/
def stopTick (path : Bool) (m : Mod) : Mod :=
  if path || m.tickOutHigh = 0 then m else emit (.tickOut false) { m with tickOutHigh := 0 }

/-- What a cold reset leaves (R492): every field at its reset value but the key store, the carrier flash and the levels of the input pins.
DRAM then holds arbitrary data, which nothing reads: MAP fills every page with zeros (R276; log entry 75). An assertion of HALT that
lasts is one that Gondola qualifies anew (log entry 75). -/
def coldState (last : Nat) (powered : Bool) (m : Mod) : Mod :=
  let m := stopTick (powered && m.position != 0) (releaseLine m)
  { native := m.native, atgen := { m.atgen with quoteCount := 0 }, box := { halt := m.box.halt, halts := b2n m.box.halt }, haltRaw := m.haltRaw, resetNPin := m.resetNPin
    tickInHigh := m.tickInHigh - srcNow m, tickOutHigh := m.tickOutHigh - srcNow m, resetLast := last, powered, free := m.free, out := m.out }

/-- A firmware image that is being installed when the module loses its power or is reset (R457): whether its slot has been marked active
and, if not, how much of the image stands in the slot are free values. Until the mark the running slot stays active and the staged image
unused. -/
def cutInstall (m : Mod) : Mod :=
  match m.box.running with
  | some (_, .fw a b act staged) =>
    let f := takeFree m
    let g := takeFree f.2
    if Config.unstated f.1 % 2 = 1 then g.2
    else
      let part (old new : List Byte) : List Byte :=
        let k := Config.unstated g.1 % (new.length + 1)
        if old = new then old else new.take k ++ old.drop k
      { g.2 with atgen := { m.atgen with slotA := part a m.atgen.slotA, slotB := part b m.atgen.slotB, activeB := act, staged } }
  | _ => m

/-- What a warm reset keeps beside that (R490, R492): the straps, DRAM, and the counters counted since cold reset. An emergency stop that is
in progress goes on (log entry 75). -/
def warmState (m : Mod) : Mod :=
  { coldState 2 m.powered m with
    atgen := m.atgen, position := m.position, masterStrap := m.masterStrap, dram := m.dram, ecc := m.ecc, pagesDone := m.pagesDone
    warmResets := satAdd 16 m.warmResets 1, tileResets := m.tileResets
    parts := (List.range 8).foldl (fun a p => mset {} a p { scrubs := (partOf m p).scrubs }) []
    power := { m.power with
      stopTicks := if m.power.active then satAdd 32 m.power.stopTicks (m.tick - m.power.tick).toNat else m.power.stopTicks
      policy := {}, pending := none, policyTick := 0, valid := false, cause := 0, phase := 0, tick := 0, exceeded := 0, samples := [], acc := {}, accOld := {}, pin := 0, iin := 0, vin := 0
      clearI := none, clearP := none, clearV := none, restartNow := 0, heldSyms := [], heldKills := [], heldResets := [] } }

/-- The phases after RAILS (R454, R456, R487, R490, R491): boot verification, Gondola, stacks. A HALT that is asserted takes effect once Gondola
runs (R514). -/
def bringUp (ch : Chip) (stacksOk : Nat) (m : Mod) : Mod :=
  let m := { m with atgen := atgenBoot ch m.atgen, bringup := .gondola }
  let m := if m.box.halt then haltNow ch 0 m else m
  if m.atgen.bootResult ≠ 0 then m
  else { m with stacksOk, bringup := if stacksOk = 2 ^ 32 - 1 then .ready else .stackFail }

/-- The end of phase RAILS of a cold reset: the straps are read (R515), and the through-path of the Bridle chain works (R489); RESET_N may
hold the sequence there (R487). -/
def endRails (ch : Chip) (env : BootEnv) (held : Bool) (m : Mod) : Mod :=
  let m := { m with heldAtRails := held, position := env.pos.toNat, masterStrap := env.masterStrap }
  if held then m else bringUp ch env.stacksOk.toNat m

/-- POWER_ON (R482, R487, R490, R515). A module that has not lost its power (R488) does not begin again. -/
def execPowerOn (env : BootEnv) (s : State) : Ans :=
  onChip (fun ch m =>
    if m.powered then m
    else endRails ch env env.resetNLow { coldState 0 true m with resetNPin := !env.resetNLow }) s

/-- POWER_LOSS (R488): the module enters cold reset and holds there. -/
def execPowerLoss (s : State) : Ans := onMod (fun m => coldState 0 false (cutInstall m)) s

/-- RESET_N (R482, R487, R514). -/
def execResetN (lowNs : Nat) (env : BootEnv) (s : State) : Ans :=
  onChip (fun ch m =>
    let r := pulseCounts 1000 10000 lowNs m
    let m := { r.2 with resetNPin := !env.resetNLow }
    if !r.1 || !m.powered then m else endRails ch env env.resetNLow (coldState 1 true (cutInstall m))) s

/-- RESET_N_RELEASE (R487): a sequence held at the end of RAILS continues. -/
def execResetNRelease (env : BootEnv) (s : State) : Ans :=
  onChip (fun ch m =>
    let m := { m with resetNPin := true }
    if m.heldAtRails then endRails ch env false m else m) s

/-- WARM_RESET (R483): a WARM write is accepted only while no job is loaded. The row has no RESPONSE of its own: its 100 µs run from the
end of the command that runs, else from now (log entry 75). -/
def execWarmReset (s : State) : Ans := onMod (fun m => let m := warmWrite m; if m.box.running.isSome then m else warmAnswered m) s

/-- Have 100 µs passed since the RESPONSE to the WARM write (R483)? -/
def warmDue (m : Mod) : Bool :=
  match m.box.warmFrom with
  | some c => decide (c + 80000 ≤ srcNow m)
  | none => false

/-- WARM_RESET_BEGIN (R483, R490, R492): the stacks recalibrate, Atgen boots again. -/
def execWarmResetBegin (env : BootEnv) (s : State) : Ans :=
  onChip (fun ch m => if warmDue m then bringUp ch env.stacksOk.toNat (warmState (cutInstall m)) else m) s

end Sys2Proof.Machine
end

