-- ==== Sys2Proof/Machine/Scalar.lean ====
section
/-! DEFINITION. The S slot: scalar arithmetic, predicates, loads and stores, control flow, time and CSRs (03, 04). -/

namespace Sys2Proof.Machine

/-- NOP, and a slot word of an unlisted opcode (R64, R67). A listed opcode is another command's: such a word is ill formed. -/
def execNop (j : Issue) (slot : Slot) (op : BitVec 6) (body : BitVec 22) (s : State) : Ans :=
  onModIf (nopOk slot op) (issueSlot { slot, op := op.toNat, illegal := op != 0, ok := body == 0 } noOwn (fun _ m => m) j body) s

/-- sd = f(sa, sb) (R103, R104). -/
def scalarRR (op lat : Nat) (f : W32 → W32 → W32) (j : Issue) (b : BitVec 22) : State → Ans :=
  issueS (sRR op lat b) noOwn (fun e d => { d := setS (fRd b) (f (getS e.base (fRa b)) (getS e.base (fRb b))) d }) j b

/-- sd = f(sa, immediate) (R105). -/
def scalarRI (ins : SlotIns) (f : W32 → W32) (j : Issue) (b : BitVec 22) : State → Ans :=
  issueS ins noOwn (fun e d => { d := setS (fRd b) (f (getS e.base (fRa b))) d }) j b

/-- Shift amount: b[4:0] (R104). -/
def shAmt (b : W32) : Nat := b.toNat % 32

/-- Integer multiply, high half, signed (R103). -/
def mulHS (a b : W32) : W32 := BitVec.ofInt 32 (a.toInt * b.toInt / (2 ^ 32 : Nat))
/-- Integer multiply, high half, unsigned (R103). -/
def mulHU (a b : W32) : W32 := BitVec.ofNat 32 (a.toNat * b.toNat / 2 ^ 32)
/-- Signed minimum and maximum, unsigned minimum and maximum (R103). -/
def minS (a b : W32) : W32 := if a.slt b then a else b
def maxS (a b : W32) : W32 := if a.slt b then b else a
def minU (a b : W32) : W32 := if a.ult b then a else b
def maxU (a b : W32) : W32 := if a.ult b then b else a

/-- ADD (R103). -/
def execAdd (j : Issue) (b : BitVec 22) (s : State) : Ans := scalarRR 0x01 1 (· + ·) j b s
/-- SUB (R103). -/
def execSub (j : Issue) (b : BitVec 22) (s : State) : Ans := scalarRR 0x02 1 (· - ·) j b s
/-- AND (R103). -/
def execAnd (j : Issue) (b : BitVec 22) (s : State) : Ans := scalarRR 0x03 1 (· &&& ·) j b s
/-- OR (R103). -/
def execOr (j : Issue) (b : BitVec 22) (s : State) : Ans := scalarRR 0x04 1 (· ||| ·) j b s
/-- XOR (R103). -/
def execXor (j : Issue) (b : BitVec 22) (s : State) : Ans := scalarRR 0x05 1 (· ^^^ ·) j b s
/-- SHL (R104). -/
def execShl (j : Issue) (b : BitVec 22) (s : State) : Ans := scalarRR 0x06 1 (fun x y => x <<< shAmt y) j b s
/-- SHR (R104). -/
def execShr (j : Issue) (b : BitVec 22) (s : State) : Ans := scalarRR 0x07 1 (fun x y => x >>> shAmt y) j b s
/-- SRA (R104). -/
def execSra (j : Issue) (b : BitVec 22) (s : State) : Ans := scalarRR 0x08 1 (fun x y => x.sshiftRight (shAmt y)) j b s
/-- MUL (R103). -/
def execMul (j : Issue) (b : BitVec 22) (s : State) : Ans := scalarRR 0x09 3 (· * ·) j b s
/-- MULHS (R103). -/
def execMulhs (j : Issue) (b : BitVec 22) (s : State) : Ans := scalarRR 0x0A 3 mulHS j b s
/-- MULHU (R103). -/
def execMulhu (j : Issue) (b : BitVec 22) (s : State) : Ans := scalarRR 0x0B 3 mulHU j b s
/-- MIN (R103). -/
def execMin (j : Issue) (b : BitVec 22) (s : State) : Ans := scalarRR 0x0C 1 minS j b s
/-- MAX (R103). -/
def execMax (j : Issue) (b : BitVec 22) (s : State) : Ans := scalarRR 0x0D 1 maxS j b s
/-- MINU (R103). -/
def execMinu (j : Issue) (b : BitVec 22) (s : State) : Ans := scalarRR 0x0E 1 minU j b s
/-- MAXU (R103). -/
def execMaxu (j : Issue) (b : BitVec 22) (s : State) : Ans := scalarRR 0x0F 1 maxU j b s
/-- ADDI (R105). -/
def execAddi (j : Issue) (b : BitVec 22) (s : State) : Ans := scalarRI (sRI 0x10 b) (· + fSimm b) j b s
/-- ANDI (R105). -/
def execAndi (j : Issue) (b : BitVec 22) (s : State) : Ans := scalarRI (sRI 0x11 b) (· &&& fSimm b) j b s
/-- ORI (R105). -/
def execOri (j : Issue) (b : BitVec 22) (s : State) : Ans := scalarRI (sRI 0x12 b) (· ||| fSimm b) j b s
/-- XORI (R105). -/
def execXori (j : Issue) (b : BitVec 22) (s : State) : Ans := scalarRI (sRI 0x13 b) (· ^^^ fSimm b) j b s
/-- SHLI (R104). -/
def execShli (j : Issue) (b : BitVec 22) (s : State) : Ans := scalarRI (sShI 0x14 b) (· <<< (fImm b % 32)) j b s
/-- SHRI (R104). -/
def execShri (j : Issue) (b : BitVec 22) (s : State) : Ans := scalarRI (sShI 0x15 b) (· >>> (fImm b % 32)) j b s
/-- SRAI (R104). -/
def execSrai (j : Issue) (b : BitVec 22) (s : State) : Ans := scalarRI (sShI 0x16 b) (·.sshiftRight (fImm b % 32)) j b s

/-- LIL (R67): sd = IMM16, zero-extended. -/
def execLil (j : Issue) (b : BitVec 22) (s : State) : Ans :=
  issueS (sLI 0x17 false b) noOwn (fun _ d => { d := setS (fRd b) (BitVec.ofNat 32 (bits b.toNat 15 0)) d }) j b s
/-- LIH (R67): sd[31:16] = IMM16, sd[15:0] kept. -/
def execLih (j : Issue) (b : BitVec 22) (s : State) : Ans :=
  issueS (sLI 0x18 true b) noOwn (fun e d =>
    { d := setS (fRd b) (BitVec.ofNat 32 (bits b.toNat 15 0 * 2 ^ 16 + (getS e.base (fRd b)).toNat % 2 ^ 16)) d }) j b s
/-- CMP (R106): an integer condition into all 32 bits of pd (R59). -/
def execCmp (j : Issue) (b : BitVec 22) (s : State) : Ans :=
  issueS (sCmp b) noOwn (fun e d =>
    { d := setP (fRd b) (spread (cond (fFn b) (getS e.base (fRa b)) (getS e.base (fRb b)))) d }) j b s
/-- PLOGIC (R59). -/
def execPlogic (j : Issue) (b : BitVec 22) (s : State) : Ans :=
  issueS (sPlogic b) noOwn (fun e d =>
    { d := setP (fRd b) (predOp (fFn b) (getP e.base (fRa b)) (getP e.base (fRb b))) d }) j b s

/-- LD (R75, R190): the word as it was before the bundle (R73). -/
def execLd (j : Issue) (b : BitVec 22) (s : State) : Ans :=
  issueS (sLd b) noOwn (fun e d =>
    let a := effAddr e.base b 4
    match addrTrap 0 a 4 [a] with
    | some x => { d, traps := [x] }
    | none =>
      let fails := spFails e.base [a]
      if fails = [] then { d := setS (fRd b) (spWord e.base a) d }
      else { d, traps := parityTraps 0 portSR fails }) j b s
/-- ST (R75). -/
def execSt (j : Issue) (b : BitVec 22) (s : State) : Ans :=
  issueS (sSt b) noOwn (fun e d =>
    let a := effAddr e.base b 4
    match addrTrap 0 a 4 [a] with
    | some x => { d, traps := [x] }
    | none => { d := spPut a (getS e.base (fRd b)) d, stores := [(a, rankSW)] }) j b s

/-- BR (R77): two bubbles when executed (R76). -/
def execBr (j : Issue) (b : BitVec 22) (s : State) : Ans :=
  issueS (sBT 0x28 [] b) noOwn (fun _ d => { d, nextPc := some (fTarget b), bubbles := 2 }) j b s
/-- CALL (R77): s31 = PC of this bundle + 1. -/
def execCall (j : Issue) (b : BitVec 22) (s : State) : Ans :=
  issueS (sBT 0x29 [kS 31] b) noOwn (fun e d =>
    { d := setS 31 (BitVec.ofNat 32 (e.base.pc + 1)) d, nextPc := some (fTarget b), bubbles := 2 }) j b s
/-- JR (R77): sa[31:12] nonzero raises RESERVED_FIELD. -/
def execJr (j : Issue) (b : BitVec 22) (s : State) : Ans :=
  issueS (sJr b)
    (fun e => if (getS e.base (fRa b)).toNat < 4096 then none else some (1, trapReservedField, slotWord 0x2A j b))
    (fun e d => { d, nextPc := some ((getS e.base (fRa b)).toNat % 4096), bubbles := 2 }) j b s

/-- What LOOP checks as it issues (R80): END above its own index and below the active level's END, and a free level. Where both conditions
hold ILLEGAL_BUNDLE comes first, and a LOOP that its predicate disables raises neither: R80 says nothing of either (DESIGN CHOICE, log
entry 147). -/
def loopCheck (b : BitVec 22) (e : SlotEnv) : Option (Nat × Nat × Nat) :=
  if fEnd b ≤ e.base.pc then some (0, trapIllegalBundle, 0)
  else match e.base.loops with
    | [] => none
    | l :: r =>
      if l.last ≤ fEnd b then some (0, trapIllegalBundle, 0)
      else if r ≠ [] then some (1, trapLoopDepth, 0) else none

/-- LOOP (R79): count 0 skips the body, with two bubbles; any other count pushes a level. -/
def execLoop (j : Issue) (b : BitVec 22) (s : State) : Ans :=
  issueS (sLoop b) (loopCheck b) (fun e d =>
    let n := (getS e.base (bits b.toNat 21 17)).toNat
    if n = 0 then { d, nextPc := some (fEnd b + 1), bubbles := 2 }
    else { d := { d with loops := { start := e.base.pc + 1, last := fEnd b, remain := n } :: d.loops } }) j b s

/-- TIME (R89): the value is taken in the issue cycle, when the bundle is complete. -/
def execTime (j : Issue) (b : BitVec 22) (s : State) : Ans :=
  issueS (sTime b) noOwn (fun _ d => { d, late := [.time (fFn b) (fRd b)] }) j b s
/-- CSRR (R95): 32 bits of a CSR, in the issue cycle. -/
def execCsrr (j : Issue) (b : BitVec 22) (s : State) : Ans :=
  issueS (sCsrr b) noOwn (fun _ d => { d, late := [.csr (fImm b) (fRd b)] }) j b s
/-- CSRW (R95): bits [31:0] of the CSR, bits [63:32] cleared. -/
def execCsrw (j : Issue) (b : BitVec 22) (s : State) : Ans :=
  issueS (sCsrw b) noOwn (fun e d =>
    let k := fImm b % 2048
    let v := (getS e.base (fRa b)).toNat
    if k = 0x018 then { d, late := [.control v] }
    else { d := { d with scr := mset 0 d.scr (k - 0x01C) (BitVec.ofNat 64 v) } }) j b s

/-- BREAK (R93): traps when BREAK_ENABLE is 1, else no operation. -/
def execBrk (j : Issue) (b : BitVec 22) (s : State) : Ans :=
  issueS (sBare 0x3E false b) (fun e => if e.base.breakEnable then some (1, trapBreak, 0) else none) (fun _ d => { d }) j b s
/-- EXIT (R82): no further bundle issues; TILE_ENDED follows once the issued instructions have completed. -/
def execExit (j : Issue) (b : BitVec 22) (s : State) : Ans :=
  issueS (sBare 0x3F true b) noOwn (fun _ d => { d, exit := true }) j b s

end Sys2Proof.Machine
end

