-- ==== Sys2Proof/Machine/VecFp.lean ====
section
/-! DEFINITION. The V slot: FP32 lanes, special functions, reductions and VCVT, with their counters (04, 05). -/

namespace Sys2Proof.Machine

/-- A lane-wise FP32 instruction: each enabled lane gives a result and its class; the classes feed the counters. -/
def fpLanes (ins : SlotIns) (f : TileData → Nat → W32 × Kind) (j : Issue) (b : BitVec 22) : State → Ans :=
  issueV ins (fun e d =>
    let rs := (maskBits 32 e.mask.toNat).map (fun i => (i, f e.base i))
    let d := rs.foldl (fun d x => setL (fRd b) x.1 x.2.1 d) d
    { d := countKinds e.cycle e.sup e.base.pc ins.op (rs.map (fun x => (x.1, x.2.2))) d }) j b

/-- Two operands. -/
def fpRR (op : Nat) (f : W32 → W32 → W32) (j : Issue) (b : BitVec 22) : State → Ans :=
  fpLanes (vRR op 4 b) (fun t i =>
    let x := getL t (fRa b) i
    let y := getL t (fRb b) i
    (f x y, classify [x, y] (f x y) false)) j b

/-- VFADD (R107). -/
def execVfadd (j : Issue) (b : BitVec 22) (s : State) : Ans := fpRR 0x10 fAdd j b s
/-- VFSUB (R107). -/
def execVfsub (j : Issue) (b : BitVec 22) (s : State) : Ans := fpRR 0x11 fSub j b s
/-- VFMUL (R109). -/
def execVfmul (j : Issue) (b : BitVec 22) (s : State) : Ans := fpRR 0x12 fMul j b s
/-- VFMA (R110, R111): vd = va × vb + vd. -/
def execVfma (j : Issue) (b : BitVec 22) (s : State) : Ans :=
  fpLanes (vRRacc 0x13 4 b) (fun t i =>
    let x := getL t (fRa b) i
    let y := getL t (fRb b) i
    let c := getL t (fRd b) i
    (fFma x y c, classify [x, y, c] (fFma x y c) false)) j b s
/-- VFMIN (R112). -/
def execVfmin (j : Issue) (b : BitVec 22) (s : State) : Ans := fpRR 0x14 fMin j b s
/-- VFMAX (R112). -/
def execVfmax (j : Issue) (b : BitVec 22) (s : State) : Ans := fpRR 0x15 fMax j b s

/-- One operand; a zero operand of VRCP, VRSQ and VLOG2 divides by zero (R118). -/
def fpUn (op : Nat) (zdiv : Bool) (f : W32 → W32) (j : Issue) (b : BitVec 22) : State → Ans :=
  fpLanes (vUn op 8 b) (fun t i =>
    let x := getL t (fRa b) i
    (f x, classify [x] (f x) (zdiv && f32IsZero x))) j b

/-- VRCP (R113, R114). -/
def execVrcp (j : Issue) (b : BitVec 22) (s : State) : Ans := fpUn 0x1B true fRcp j b s
/-- VRSQ (R113, R114). -/
def execVrsq (j : Issue) (b : BitVec 22) (s : State) : Ans := fpUn 0x1C true fRsq j b s
/-- VEXP2 (R113, R114). -/
def execVexp2 (j : Issue) (b : BitVec 22) (s : State) : Ans := fpUn 0x1D false fExp2 j b s
/-- VLOG2 (R113, R114). -/
def execVlog2 (j : Issue) (b : BitVec 22) (s : State) : Ans := fpUn 0x1E true fLog2 j b s

/-- A reduction of the contributing lanes (R116, R117): FN 0 exact sum, 1 maximum, 2 minimum, 3 integer sum. -/
def reduceLanes (fn : Nat) (xs : List W32) : W32 :=
  match fn with
  | 0 => sumVals (xs.map f32Val)
  | 1 => if xs.any f32IsNan then f32Nan else (xs.drop 1).foldl fMax (nth 0 xs 0)
  | 2 => if xs.any f32IsNan then f32Nan else (xs.drop 1).foldl fMin (nth 0 xs 0)
  | _ => xs.foldl (· + ·) 0

/-- VRED (R115 to R117): one result, in the enabled lanes; it counts as one result, of lane 0. -/
def execVred (j : Issue) (b : BitVec 22) (s : State) : Ans :=
  issueV (vRed b) (fun e d =>
    let xs := (maskBits 32 e.mask.toNat).map (getL e.base (fRa b))
    let r := reduceLanes (fFn b) xs
    let d := setV (fRd b) e.mask (fun _ => r) d
    { d := if fFn b = 3 then d else countKinds e.cycle e.sup e.base.pc 0x28 [(0, classify xs r false)] d }) j b s

/-- The form of VCVT: RB zero, a defined FN; it reads va and the old vd (R135, R137). -/
def vCvt (b : BitVec 22) : SlotIns :=
  { slot := .v, op := 0x1A, ok := fRb b == 0 && cvtOk (fFn b), srcs := [kV (fRa b), kV (fRd b)], dests := [kV (fRd b)], lat := 4 }

/-- VCVT (R135 to R141), with both sets of counters. -/
def execVcvt (j : Issue) (b : BitVec 22) (s : State) : Ans :=
  issueV (vCvt b) (fun e d =>
    match cvtOf (fFn b % 32) with
    | none => { d }
    | some (c, _, n) =>
      let r := cvtRun c (fFn b / 32) (getV e.base (fRa b)) (getV e.base (fRd b)) (maskBits 32 e.mask.toNat)
      let vd := leWords 32 r.1
      let d := setV (fRd b) (BitVec.allOnes 32) (fun i => nth 0 vd i) d
      let d := countConvs n (r.2.map (·.2)) d
      { d := countKinds e.cycle e.sup e.base.pc 0x1A (r.2.map (fun x => (x.1, x.2.kind))) d }) j b s

end Sys2Proof.Machine
end

