-- ==== Sys2Proof/Machine/VecInt.lean ====
section
/-! DEFINITION. The V slot: integer lanes, comparisons, select, shuffle, broadcast and extract (03, 04). -/

namespace Sys2Proof.Machine

/-- vd lane i = f(va lane i, vb lane i) in the enabled lanes (R59, R103). -/
def vecRR (op lat : Nat) (f : W32 → W32 → W32) (j : Issue) (b : BitVec 22) : State → Ans :=
  issueV (vRR op lat b) (fun e d =>
    { d := setV (fRd b) e.mask (fun i => f (getL e.base (fRa b) i) (getL e.base (fRb b) i)) d }) j b

/-- VADD (R103). -/
def execVadd (j : Issue) (b : BitVec 22) (s : State) : Ans := vecRR 0x01 2 (· + ·) j b s
/-- VSUB (R103). -/
def execVsub (j : Issue) (b : BitVec 22) (s : State) : Ans := vecRR 0x02 2 (· - ·) j b s
/-- VAND (R103). -/
def execVand (j : Issue) (b : BitVec 22) (s : State) : Ans := vecRR 0x03 2 (· &&& ·) j b s
/-- VOR (R103). -/
def execVor (j : Issue) (b : BitVec 22) (s : State) : Ans := vecRR 0x04 2 (· ||| ·) j b s
/-- VXOR (R103). -/
def execVxor (j : Issue) (b : BitVec 22) (s : State) : Ans := vecRR 0x05 2 (· ^^^ ·) j b s
/-- VSHL (R104). -/
def execVshl (j : Issue) (b : BitVec 22) (s : State) : Ans := vecRR 0x06 2 (fun x y => x <<< shAmt y) j b s
/-- VSHR (R104). -/
def execVshr (j : Issue) (b : BitVec 22) (s : State) : Ans := vecRR 0x07 2 (fun x y => x >>> shAmt y) j b s
/-- VSRA (R104). -/
def execVsra (j : Issue) (b : BitVec 22) (s : State) : Ans := vecRR 0x08 2 (fun x y => x.sshiftRight (shAmt y)) j b s
/-- VMUL (R103). -/
def execVmul (j : Issue) (b : BitVec 22) (s : State) : Ans := vecRR 0x09 4 (· * ·) j b s

/-- VCMP (R106): bit i of pd in the enabled lanes. -/
def execVcmp (j : Issue) (b : BitVec 22) (s : State) : Ans :=
  issueV (vCmp b) (fun e d =>
    let hit := maskOf (indices 32 (fun i => cond (fFn b) (getL e.base (fRa b) i) (getL e.base (fRb b) i)))
    { d := setP (fRd b) ((getP e.base (fRd b) &&& ~~~e.mask) ||| (BitVec.ofNat 32 hit &&& e.mask)) d }) j b s
/-- VSEL (R67). -/
def execVsel (j : Issue) (b : BitVec 22) (s : State) : Ans :=
  issueV (vSel b) (fun e d =>
    { d := setV (fRd b) e.mask (fun i =>
        if (getP e.base (fFn b % 8)).getLsbD i then getL e.base (fRa b) i else getL e.base (fRb b) i) d }) j b s
/-- VBCAST (R102). -/
def execVbcast (j : Issue) (b : BitVec 22) (s : State) : Ans :=
  issueV (vBcast b) (fun e d => { d := setV (fRd b) e.mask (fun _ => getS e.base (fRa b)) d }) j b s
/-- VEXTR (R59): one lane into a scalar, enabled by that lane's bit. -/
def execVextr (j : Issue) (b : BitVec 22) (s : State) : Ans :=
  issueV (vExtr b) (fun e d =>
    if e.mask.getLsbD (fFn b % 32) then { d := setS (fRd b) (getL e.base (fRa b) (fFn b % 32)) d } else { d }) j b s
/-- VSHUF (R67): lane (vb lane i mod 32) of va. -/
def execVshuf (j : Issue) (b : BitVec 22) (s : State) : Ans :=
  issueV (vRR 0x2B 2 b) (fun e d =>
    { d := setV (fRd b) e.mask (fun i => getL e.base (fRa b) ((getL e.base (fRb b) i).toNat % 32)) d }) j b s

end Sys2Proof.Machine
end

