-- ==== Sys2Proof/Machine/VecMem.lean ====
section
/-! DEFINITION. The V slot: line and column loads and stores (R73, R75, R190). -/

namespace Sys2Proof.Machine

/-- Load words (given lane by lane) into the enabled lanes, checking their parity (R190). -/
def loadLanes (b : BitVec 22) (e : SlotEnv) (a : Nat) (words : List Nat) (d : TileData) : SlotRes :=
  match addrTrap 1 a 128 words with
  | some x => { d, traps := [x] }
  | none =>
    let fails := spFails e.base ((maskBits 32 e.mask.toNat).map (nth 0 words))
    if fails = [] then { d := setV (fRd b) e.mask (fun i => spWord e.base (nth 0 words i)) d }
    else { d, traps := parityTraps 1 portVR fails }

/-- Store the enabled lanes to words. -/
def storeLanes (b : BitVec 22) (e : SlotEnv) (a : Nat) (words : List Nat) (d : TileData) : SlotRes :=
  match addrTrap 1 a 128 words with
  | some x => { d, traps := [x] }
  | none =>
    { d := (maskBits 32 e.mask.toNat).foldl (fun d i => spPut (nth 0 words i) (getL e.base (fRd b) i) d) d
      stores := (maskBits 32 e.mask.toNat).map (fun i => (nth 0 words i, rankVW)) }

/-- VLD (R75, R105). -/
def execVld (j : Issue) (b : BitVec 22) (s : State) : Ans :=
  issueV (vLd b) (fun e d => let a := effAddr e.base b 128; loadLanes b e a (lineWords a) d) j b s
/-- VST (R75, R105). -/
def execVst (j : Issue) (b : BitVec 22) (s : State) : Ans :=
  issueV (vSt b) (fun e d => let a := effAddr e.base b 128; storeLanes b e a (lineWords a) d) j b s
/-- VLDC (R75): column IMM12 of the block at sa. -/
def execVldc (j : Issue) (b : BitVec 22) (s : State) : Ans :=
  issueV (vLdc b) (fun e d => let a := (getS e.base (fRa b)).toNat; loadLanes b e a (columnWords a (fImm b)) d) j b s
/-- VSTC (R75): column IMM12 of the block at sa. -/
def execVstc (j : Issue) (b : BitVec 22) (s : State) : Ans :=
  issueV (vStc b) (fun e d => let a := (getS e.base (fRa b)).toNat; storeLanes b e a (columnWords a (fImm b)) d) j b s

end Sys2Proof.Machine
end

