-- ==== Sys2Proof/Machine/Dispatch.lean ====
section
/-! DEFINITION. One arm per command: each is one direct call of its meaning. -/

namespace Sys2Proof.Machine

def exec (i : Instr) (s : State) : Host.Outcome State Fault Refusal :=
  match i with
  | .nop j slot op body => Sys2Proof.Machine.execNop j slot op body s
  | .add j body => Sys2Proof.Machine.execAdd j body s
  | .sub j body => Sys2Proof.Machine.execSub j body s
  | .and j body => Sys2Proof.Machine.execAnd j body s
  | .or j body => Sys2Proof.Machine.execOr j body s
  | .xor j body => Sys2Proof.Machine.execXor j body s
  | .shl j body => Sys2Proof.Machine.execShl j body s
  | .shr j body => Sys2Proof.Machine.execShr j body s
  | .sra j body => Sys2Proof.Machine.execSra j body s
  | .mul j body => Sys2Proof.Machine.execMul j body s
  | .mulhs j body => Sys2Proof.Machine.execMulhs j body s
  | .mulhu j body => Sys2Proof.Machine.execMulhu j body s
  | .min j body => Sys2Proof.Machine.execMin j body s
  | .max j body => Sys2Proof.Machine.execMax j body s
  | .minu j body => Sys2Proof.Machine.execMinu j body s
  | .maxu j body => Sys2Proof.Machine.execMaxu j body s
  | .addi j body => Sys2Proof.Machine.execAddi j body s
  | .andi j body => Sys2Proof.Machine.execAndi j body s
  | .ori j body => Sys2Proof.Machine.execOri j body s
  | .xori j body => Sys2Proof.Machine.execXori j body s
  | .shli j body => Sys2Proof.Machine.execShli j body s
  | .shri j body => Sys2Proof.Machine.execShri j body s
  | .srai j body => Sys2Proof.Machine.execSrai j body s
  | .lil j body => Sys2Proof.Machine.execLil j body s
  | .lih j body => Sys2Proof.Machine.execLih j body s
  | .cmp j body => Sys2Proof.Machine.execCmp j body s
  | .plogic j body => Sys2Proof.Machine.execPlogic j body s
  | .ld j body => Sys2Proof.Machine.execLd j body s
  | .st j body => Sys2Proof.Machine.execSt j body s
  | .br j body => Sys2Proof.Machine.execBr j body s
  | .call j body => Sys2Proof.Machine.execCall j body s
  | .jr j body => Sys2Proof.Machine.execJr j body s
  | .loop j body => Sys2Proof.Machine.execLoop j body s
  | .time j body => Sys2Proof.Machine.execTime j body s
  | .csrr j body => Sys2Proof.Machine.execCsrr j body s
  | .csrw j body => Sys2Proof.Machine.execCsrw j body s
  | .brk j body => Sys2Proof.Machine.execBrk j body s
  | .exit j body => Sys2Proof.Machine.execExit j body s
  | .vadd j body => Sys2Proof.Machine.execVadd j body s
  | .vsub j body => Sys2Proof.Machine.execVsub j body s
  | .vand j body => Sys2Proof.Machine.execVand j body s
  | .vor j body => Sys2Proof.Machine.execVor j body s
  | .vxor j body => Sys2Proof.Machine.execVxor j body s
  | .vshl j body => Sys2Proof.Machine.execVshl j body s
  | .vshr j body => Sys2Proof.Machine.execVshr j body s
  | .vsra j body => Sys2Proof.Machine.execVsra j body s
  | .vmul j body => Sys2Proof.Machine.execVmul j body s
  | .vfadd j body => Sys2Proof.Machine.execVfadd j body s
  | .vfsub j body => Sys2Proof.Machine.execVfsub j body s
  | .vfmul j body => Sys2Proof.Machine.execVfmul j body s
  | .vfma j body => Sys2Proof.Machine.execVfma j body s
  | .vfmin j body => Sys2Proof.Machine.execVfmin j body s
  | .vfmax j body => Sys2Proof.Machine.execVfmax j body s
  | .vcmp j body => Sys2Proof.Machine.execVcmp j body s
  | .vsel j body => Sys2Proof.Machine.execVsel j body s
  | .vcvt j body => Sys2Proof.Machine.execVcvt j body s
  | .vrcp j body => Sys2Proof.Machine.execVrcp j body s
  | .vrsq j body => Sys2Proof.Machine.execVrsq j body s
  | .vexp2 j body => Sys2Proof.Machine.execVexp2 j body s
  | .vlog2 j body => Sys2Proof.Machine.execVlog2 j body s
  | .vld j body => Sys2Proof.Machine.execVld j body s
  | .vst j body => Sys2Proof.Machine.execVst j body s
  | .vldc j body => Sys2Proof.Machine.execVldc j body s
  | .vstc j body => Sys2Proof.Machine.execVstc j body s
  | .vred j body => Sys2Proof.Machine.execVred j body s
  | .vbcast j body => Sys2Proof.Machine.execVbcast j body s
  | .vextr j body => Sys2Proof.Machine.execVextr j body s
  | .vshuf j body => Sys2Proof.Machine.execVshuf j body s
  | .mldw j body => Sys2Proof.Machine.execMldw j body s
  | .mrun j body => Sys2Proof.Machine.execMrun j body s
  | .mzero j body => Sys2Proof.Machine.execMzero j body s
  | .mdrain j body => Sys2Proof.Machine.execMdrain j body s
  | .mwgb j body => Sys2Proof.Machine.execMwgb j body s
  | .mrunStart t => Sys2Proof.Machine.execMrunStart t s
  | .mldwStart t => Sys2Proof.Machine.execMldwStart t s
  | .mdrainStart t => Sys2Proof.Machine.execMdrainStart t s
  | .mwgbStart t => Sys2Proof.Machine.execMwgbStart t s
  | .mzeroStart t => Sys2Proof.Machine.execMzeroStart t s
  | .rowCommit t v => Sys2Proof.Machine.execRowCommit t v s
  | .weightBufferReady t buf => Sys2Proof.Machine.execWeightBufferReady t buf s
  | .drainLand t => Sys2Proof.Machine.execDrainLand t s
  | .xsend j body => Sys2Proof.Machine.execXsend j body s
  | .xrecv j body => Sys2Proof.Machine.execXrecv j body s
  | .qissue j body => Sys2Proof.Machine.execQissue j body s
  | .waitq j body => Sys2Proof.Machine.execWaitq j body s
  | .qpoll j body => Sys2Proof.Machine.execQpoll j body s
  | .copen j body => Sys2Proof.Machine.execCopen j body s
  | .cclose j body => Sys2Proof.Machine.execCclose j body s
  | .csend j body => Sys2Proof.Machine.execCsend j body s
  | .csendnb j body => Sys2Proof.Machine.execCsendnb j body s
  | .crecv j body => Sys2Proof.Machine.execCrecv j body s
  | .crecvnb j body => Sys2Proof.Machine.execCrecvnb j body s
  | .sync j body => Sys2Proof.Machine.execSync j body s
  | .barrive j body => Sys2Proof.Machine.execBarrive j body s
  | .bwait j body => Sys2Proof.Machine.execBwait j body s
  | .dma j body => Sys2Proof.Machine.execDma j body s
  | .swait j body => Sys2Proof.Machine.execSwait j body s
  | .tileEnded t => Sys2Proof.Machine.execTileEnded t s
  | .waitRelease t => Sys2Proof.Machine.execWaitRelease t s
  | .waitTimeout t => Sys2Proof.Machine.execWaitTimeout t s
  | .tileGo t => Sys2Proof.Machine.execTileGo t s
  | .tileStop t byGondola => Sys2Proof.Machine.execTileStop t byGondola s
  | .counterClear t => Sys2Proof.Machine.execCounterClear t s
  | .nfClear t => Sys2Proof.Machine.execNfClear t s
  | .cvClear t => Sys2Proof.Machine.execCvClear t s
  | .regionConfigWrite t g v => Sys2Proof.Machine.execRegionConfigWrite t g v s
  | .mirrorReread t g => Sys2Proof.Machine.execMirrorReread t g s
  | .registerWrite addr v => Sys2Proof.Machine.execRegisterWrite addr v s
  | .tickCounterAdvance => Sys2Proof.Machine.execTickCounterAdvance s
  | .tickEdge lowBits => Sys2Proof.Machine.execTickEdge lowBits s
  | .tickLost => Sys2Proof.Machine.execTickLost s
  | .holdoverExpiry => Sys2Proof.Machine.execHoldoverExpiry s
  | .clockReturn h => Sys2Proof.Machine.execClockReturn h s
  | .clockSwitchComplete h => Sys2Proof.Machine.execClockSwitchComplete h s
  | .decision what => Sys2Proof.Machine.execDecision what s
  | .exchangePhaseStart p => Sys2Proof.Machine.execExchangePhaseStart p s
  | .superstepBoundary p => Sys2Proof.Machine.execSuperstepBoundary p s
  | .commit p => Sys2Proof.Machine.execCommit p s
  | .checkpointStart p => Sys2Proof.Machine.execCheckpointStart p s
  | .ckptSaveComplete p remoteOk => Sys2Proof.Machine.execCkptSaveComplete p remoteOk s
  | .clockEvent p => Sys2Proof.Machine.execClockEvent p s
  | .optionalDecision p => Sys2Proof.Machine.execOptionalDecision p s
  | .beatLanding p k => Sys2Proof.Machine.execBeatLanding p k s
  | .inboundBeat q transfer tag data => Sys2Proof.Machine.execInboundBeat q transfer tag data s
  | .heldBeatForward q => Sys2Proof.Machine.execHeldBeatForward q s
  | .exchangeStall p => Sys2Proof.Machine.execExchangeStall p s
  | .stallLimit p => Sys2Proof.Machine.execStallLimit p s
  | .openRequest src => Sys2Proof.Machine.execOpenRequest src s
  | .copenReply src => Sys2Proof.Machine.execCopenReply src s
  | .copenTimeout t h => Sys2Proof.Machine.execCopenTimeout t h s
  | .closeNotice src => Sys2Proof.Machine.execCloseNotice src s
  | .closeAck src => Sys2Proof.Machine.execCloseAck src s
  | .creditReturn src => Sys2Proof.Machine.execCreditReturn src s
  | .dropNotice src => Sys2Proof.Machine.execDropNotice src s
  | .opqLanding src => Sys2Proof.Machine.execOpqLanding src s
  | .ringRecordLanding src => Sys2Proof.Machine.execRingRecordLanding src s
  | .sendTimeout t => Sys2Proof.Machine.execSendTimeout t s
  | .recvTimeout t => Sys2Proof.Machine.execRecvTimeout t s
  | .barrierArrival b => Sys2Proof.Machine.execBarrierArrival b s
  | .barrierLimitExpiry b => Sys2Proof.Machine.execBarrierLimitExpiry b s
  | .dmaCompletion t => Sys2Proof.Machine.execDmaCompletion t s
  | .putData q pkt => Sys2Proof.Machine.execPutData q pkt s
  | .getRequest q pkt => Sys2Proof.Machine.execGetRequest q pkt s
  | .getData q pkt => Sys2Proof.Machine.execGetData q pkt s
  | .dmaAck q pkt => Sys2Proof.Machine.execDmaAck q pkt s
  | .deny q pkt => Sys2Proof.Machine.execDeny q pkt s
  | .streamReadData t k => Sys2Proof.Machine.execStreamReadData t k s
  | .streamWriteAck t k => Sys2Proof.Machine.execStreamWriteAck t k s
  | .stackRequest src => Sys2Proof.Machine.execStackRequest src s
  | .channelGrant n ch => Sys2Proof.Machine.execChannelGrant n ch s
  | .backoffExpiry n ch k => Sys2Proof.Machine.execBackoffExpiry n ch k s
  | .maintenanceWindow n ch passDone => Sys2Proof.Machine.execMaintenanceWindow n ch passDone s
  | .zeroFillComplete k => Sys2Proof.Machine.execZeroFillComplete k s
  | .moveFlip page => Sys2Proof.Machine.execMoveFlip page s
  | .frameRelease k => Sys2Proof.Machine.execFrameRelease k s
  | .reelActivate p => Sys2Proof.Machine.execReelActivate p s
  | .nmuStart p => Sys2Proof.Machine.execNmuStart p s
  | .shardComplete j => Sys2Proof.Machine.execShardComplete j s
  | .contributionBeat e k => Sys2Proof.Machine.execContributionBeat e k s
  | .reductionPacket q jobTag epoch payload => Sys2Proof.Machine.execReductionPacket q jobTag epoch payload s
  | .chainBlock e k => Sys2Proof.Machine.execChainBlock e k s
  | .blockSum e => Sys2Proof.Machine.execBlockSum e s
  | .delivery e => Sys2Proof.Machine.execDelivery e s
  | .barrierLineRelease => Sys2Proof.Machine.execBarrierLineRelease s
  | .barrierLineSample high => Sys2Proof.Machine.execBarrierLineSample high s
  | .bridleTimeout => Sys2Proof.Machine.execBridleTimeout s
  | .linkBeat q fec hdr body => Sys2Proof.Machine.execLinkBeat q fec hdr body s
  | .linkAckTimer q => Sys2Proof.Machine.execLinkAckTimer q s
  | .ack q seq => Sys2Proof.Machine.execAck q seq s
  | .nak q seq => Sys2Proof.Machine.execNak q seq s
  | .tick q arg => Sys2Proof.Machine.execTick q arg s
  | .ready q sym => Sys2Proof.Machine.execReady q sym s
  | .go q sym => Sys2Proof.Machine.execGo q sym s
  | .slip q sym => Sys2Proof.Machine.execSlip q sym s
  | .fault q sym => Sys2Proof.Machine.execFault q sym s
  | .fail q sym => Sys2Proof.Machine.execFail q sym s
  | .abandon q sym => Sys2Proof.Machine.execAbandon q sym s
  | .echoReq q stamp => Sys2Proof.Machine.execEchoReq q stamp s
  | .echoReply q roundTrip16 turnaround16 => Sys2Proof.Machine.execEchoReply q roundTrip16 turnaround16 s
  | .alignmentRecord q number offset16 loaded => Sys2Proof.Machine.execAlignmentRecord q number offset16 loaded s
  | .alignmentReport q delay => Sys2Proof.Machine.execAlignmentReport q delay s
  | .stepFault p => Sys2Proof.Machine.execStepFault p s
  | .abandonBroadcast p => Sys2Proof.Machine.execAbandonBroadcast p s
  | .lateAbandon p => Sys2Proof.Machine.execLateAbandon p s
  | .abandonLost p => Sys2Proof.Machine.execAbandonLost p s
  | .abandonDrainComplete p => Sys2Proof.Machine.execAbandonDrainComplete p s
  | .restart p => Sys2Proof.Machine.execRestart p s
  | .scrubComplete p => Sys2Proof.Machine.execScrubComplete p s
  | .identify f => Sys2Proof.Machine.execIdentify f s
  | .setModuleNum f => Sys2Proof.Machine.execSetModuleNum f s
  | .roleConfirm f => Sys2Proof.Machine.execRoleConfirm f s
  | .setTickTree f => Sys2Proof.Machine.execSetTickTree f s
  | .linkTrain f => Sys2Proof.Machine.execLinkTrain f s
  | .linkTrainComplete upMask => Sys2Proof.Machine.execLinkTrainComplete upMask s
  | .tickSync f => Sys2Proof.Machine.execTickSync f s
  | .tickSyncComplete upHops upDelay => Sys2Proof.Machine.execTickSyncComplete upHops upDelay s
  | .partSet f => Sys2Proof.Machine.execPartSet f s
  | .partPorts f => Sys2Proof.Machine.execPartPorts f s
  | .setQuota f => Sys2Proof.Machine.execSetQuota f s
  | .map f => Sys2Proof.Machine.execMap f s
  | .move f => Sys2Proof.Machine.execMove f s
  | .unmap f => Sys2Proof.Machine.execUnmap f s
  | .memRead f => Sys2Proof.Machine.execMemRead f s
  | .memWrite f => Sys2Proof.Machine.execMemWrite f s
  | .winTile f => Sys2Proof.Machine.execWinTile f s
  | .winDram f => Sys2Proof.Machine.execWinDram f s
  | .load f => Sys2Proof.Machine.execLoad f s
  | .jobStart f => Sys2Proof.Machine.execJobStart f s
  | .jobStartTick p => Sys2Proof.Machine.execJobStartTick p s
  | .jobKill f => Sys2Proof.Machine.execJobKill f s
  | .jobStatus f => Sys2Proof.Machine.execJobStatus f s
  | .scrub f => Sys2Proof.Machine.execScrub f s
  | .ckptSave f => Sys2Proof.Machine.execCkptSave f s
  | .ckptRestore f image => Sys2Proof.Machine.execCkptRestore f image s
  | .regRead f => Sys2Proof.Machine.execRegRead f s
  | .regWrite f => Sys2Proof.Machine.execRegWrite f s
  | .powerSet f => Sys2Proof.Machine.execPowerSet f s
  | .quote f => Sys2Proof.Machine.execQuote f s
  | .certRead f => Sys2Proof.Machine.execCertRead f s
  | .fwInstall f => Sys2Proof.Machine.execFwInstall f s
  | .statusRead crcOk => Sys2Proof.Machine.execStatusRead crcOk s
  | .halt lowNs wordsDone => Sys2Proof.Machine.execHalt lowNs wordsDone s
  | .svnFloorRaise => Sys2Proof.Machine.execSvnFloorRaise s
  | .ballastPeriod start => Sys2Proof.Machine.execBallastPeriod start s
  | .policyTakesEffect => Sys2Proof.Machine.execPolicyTakesEffect s
  | .powerSample tenMilliVolt deciAmp draw => Sys2Proof.Machine.execPowerSample tenMilliVolt deciAmp draw s
  | .thermalSample tele => Sys2Proof.Machine.execThermalSample tele s
  | .emergencyRestart => Sys2Proof.Machine.execEmergencyRestart s
  | .powerOn env => Sys2Proof.Machine.execPowerOn env s
  | .powerLoss => Sys2Proof.Machine.execPowerLoss s
  | .resetN lowNs env => Sys2Proof.Machine.execResetN lowNs env s
  | .warmReset => Sys2Proof.Machine.execWarmReset s
  | .warmResetBegin env => Sys2Proof.Machine.execWarmResetBegin env s
  | .tileReset t => Sys2Proof.Machine.execTileReset t s
  | .telemetryRead first count => Sys2Proof.Machine.execTelemetryRead first count s
  | .collectionPass => Sys2Proof.Machine.execCollectionPass s
  | .collectionPassComplete => Sys2Proof.Machine.execCollectionPassComplete s
  | .haltRelease highNs => Sys2Proof.Machine.execHaltRelease highNs s
  | .resetNRelease env => Sys2Proof.Machine.execResetNRelease env s
  | .kitelineDown => Sys2Proof.Machine.execKitelineDown s
  | .kitelineUp => Sys2Proof.Machine.execKitelineUp s

end Sys2Proof.Machine
end

