-- ==== Sys2Proof/Safety.lean ====
section
/-! DEFINITION. The terms claims use: what a command gives, when a slot instruction issues without a trap, the values the rules state. -/

namespace Sys2Proof.Machine

/-- Command c, run in state s, answers a next state in which only the module has changed, and P holds of the module then. -/
def Gives (c : Instr) (s : State) (P : Mod → Prop) : Prop := ∃ m' : Mod, exec c s = .next { s with m := m' } ∧ P m'

/-- May a bundle begin or go on with a slot (R62, R69, R72, R78, R96)? Without a bundle in progress its fetch raises no trap; in one, the slots
so far come before this one, none of them is held up, and none has one of its destinations. -/
def bundleTakes (q : Slot) (dests : List Nat) (x : Tile) : Bool :=
  match x.bundle with
  | none => (fetchTrap x.d).isNone
  | some b => b.slots.all (fun p => decide (slotNo p < slotNo q)) && !b.blocked && dests.all (fun k => !b.dests.contains k)

/-- No compiled beat of a tile is still to be read (R218). -/
def noBeatToRead (t : Nat) (m : Mod) : Bool :=
  (List.range 8).all (fun p => (partOf m p).beats.all (fun b => match b.src with
    | .scratch u _ => u != t
    | .wgb u _ _ => u != t
    | .read => true))

/-- A slot instruction with these source and destination registers issues: its tile's core runs, the bundle takes it, and no register it
names waits for an X-slot result (R70), no trap of an earlier bundle is still to come (R90, R187), and no compiled beat still to be read finds a
parity error (R190). -/
def slotReady (q : Slot) (j : Issue) (srcs dests : List Nat) (m : Mod) : Bool :=
  let x := tileOf m j.tile.val
  coreRuns m j.tile.val && bundleTakes q (realDests dests) x && !waitsForX (bundleBase x) (kP j.pred.toNat :: srcs ++ dests) &&
    x.d.faultsDue.isEmpty && ((bundleBase x).spBad.isEmpty || noBeatToRead j.tile.val m)

/-- Does the predicate of an S-, M- or X-slot instruction enable it (R59, R65)? -/
def slotEnabled (j : Issue) (m : Mod) : Bool := (execMask (bundleBase (tileOf m j.tile.val)) j).getLsbD 0

/-- Does the predicate of a V-slot instruction enable a lane (R59, R65)? -/
def laneEnabled (j : Issue) (m : Mod) (i : Nat) : Bool := (execMask (bundleBase (tileOf m j.tile.val)) j).getLsbD i

/-- What R103 and R104 say a scalar register-register instruction computes: its fields and the function of sa and sb. -/
def scalarRule (c : Instr) : Option (Issue × BitVec 22 × (W32 → W32 → W32)) :=
  match c with
  | .add j b => some (j, b, fun x y => BitVec.ofNat 32 (x.toNat + y.toNat))
  | .sub j b => some (j, b, fun x y => BitVec.ofInt 32 ((x.toNat : Int) - y.toNat))
  | .and j b => some (j, b, fun x y => x &&& y)
  | .or j b => some (j, b, fun x y => x ||| y)
  | .xor j b => some (j, b, fun x y => x ^^^ y)
  | .shl j b => some (j, b, fun x y => x <<< (y.toNat % 32))
  | .shr j b => some (j, b, fun x y => x >>> (y.toNat % 32))
  | .sra j b => some (j, b, fun x y => x.sshiftRight (y.toNat % 32))
  | .mul j b => some (j, b, fun x y => BitVec.ofNat 32 (x.toNat * y.toNat))
  | .mulhs j b => some (j, b, fun x y => ((x.signExtend 64) * (y.signExtend 64)).extractLsb' 32 32)
  | .mulhu j b => some (j, b, fun x y => ((x.zeroExtend 64) * (y.zeroExtend 64)).extractLsb' 32 32)
  | .min j b => some (j, b, fun x y => if x.toInt ≤ y.toInt then x else y)
  | .max j b => some (j, b, fun x y => if x.toInt ≤ y.toInt then y else x)
  | .minu j b => some (j, b, fun x y => if x.toNat ≤ y.toNat then x else y)
  | .maxu j b => some (j, b, fun x y => if x.toNat ≤ y.toNat then y else x)
  | _ => none

/-- What R104 and R105 say a scalar register-immediate instruction computes: its fields and the function of sa. -/
def scalarImmRule (c : Instr) : Option (Issue × BitVec 22 × (W32 → W32)) :=
  match c with
  | .addi j b => some (j, b, fun x => BitVec.ofInt 32 (x.toInt + (BitVec.ofNat 12 (bits b.toNat 11 0)).toInt))
  | .andi j b => some (j, b, fun x => x &&& (BitVec.ofNat 12 (bits b.toNat 11 0)).signExtend 32)
  | .ori j b => some (j, b, fun x => x ||| (BitVec.ofNat 12 (bits b.toNat 11 0)).signExtend 32)
  | .xori j b => some (j, b, fun x => x ^^^ (BitVec.ofNat 12 (bits b.toNat 11 0)).signExtend 32)
  | .shli j b => some (j, b, fun x => x <<< bits b.toNat 4 0)
  | .shri j b => some (j, b, fun x => x >>> bits b.toNat 4 0)
  | .srai j b => some (j, b, fun x => x.sshiftRight (bits b.toNat 4 0))
  | _ => none

/-- Is an instruction one of the three shifts by an immediate, whose IMM12[11:5] must be zero (R66, R104)? -/
def isShiftImm (c : Instr) : Bool :=
  match c with
  | .shli .. | .shri .. | .srai .. => true
  | _ => false

/-- What R103 and R104 say an integer V-slot instruction computes in a lane: its fields and the function of va and vb. -/
def vectorIntRule (c : Instr) : Option (Issue × BitVec 22 × (W32 → W32 → W32)) :=
  match c with
  | .vadd j b => some (j, b, fun x y => BitVec.ofNat 32 (x.toNat + y.toNat))
  | .vsub j b => some (j, b, fun x y => BitVec.ofInt 32 ((x.toNat : Int) - y.toNat))
  | .vand j b => some (j, b, fun x y => x &&& y)
  | .vor j b => some (j, b, fun x y => x ||| y)
  | .vxor j b => some (j, b, fun x y => x ^^^ y)
  | .vshl j b => some (j, b, fun x y => x <<< (y.toNat % 32))
  | .vshr j b => some (j, b, fun x y => x >>> (y.toNat % 32))
  | .vsra j b => some (j, b, fun x y => x.sshiftRight (y.toNat % 32))
  | .vmul j b => some (j, b, fun x y => BitVec.ofNat 32 (x.toNat * y.toNat))
  | _ => none

/-- What R107 to R112 say an FP32 V-slot instruction computes in a lane from va, vb and the old vd; the last component says whether vd is a
source. -/
def vectorFpRule (c : Instr) : Option (Issue × BitVec 22 × (W32 → W32 → W32 → W32) × Bool) :=
  match c with
  | .vfadd j b => some (j, b, fun x y _ => sumVals [f32Val x, f32Val y], false)
  | .vfsub j b => some (j, b, fun x y _ => sumVals [f32Val x, f32Val (y ^^^ 0x80000000)], false)
  | .vfmul j b => some (j, b, fun x y _ => f32OfVal (mulVal (f32Val x) (f32Val y)), false)
  | .vfma j b => some (j, b, fun x y z => sumVals [mulVal (f32Val x) (f32Val y), f32Val z], true)
  | .vfmin j b => some (j, b, fun x y _ => if f32IsNan x || f32IsNan y then f32Nan else if f32Ord x ≤ f32Ord y then x else y, false)
  | .vfmax j b => some (j, b, fun x y _ => if f32IsNan x || f32IsNan y then f32Nan else if f32Ord x < f32Ord y then y else x, false)
  | _ => none

/-- What R113 and R114 say a special-function instruction computes in a lane. -/
def vectorFnRule (c : Instr) : Option (Issue × BitVec 22 × (W32 → W32)) :=
  match c with
  | .vrcp j b => some (j, b, fRcp)
  | .vrsq j b => some (j, b, fRsq)
  | .vexp2 j b => some (j, b, fExp2)
  | .vlog2 j b => some (j, b, fLog2)
  | _ => none

/-- The data of the tile a slot instruction is issued on. -/
abbrev tdJ (j : Issue) (m : Mod) : TileData := tdOf m j.tile.val

/-- The conditions of CMP (R106, codes 0x00 to 0x05) as comparisons of integers. -/
def compareRule (fn : Nat) (x y : W32) : Bool :=
  match fn with
  | 0 => decide (x.toNat = y.toNat)
  | 1 => decide (x.toNat ≠ y.toNat)
  | 2 => decide (x.toInt < y.toInt)
  | 3 => decide (y.toInt ≤ x.toInt)
  | 4 => decide (x.toNat < y.toNat)
  | _ => decide (y.toNat ≤ x.toNat)

/-- The predicate operations of PLOGIC bit by bit (03 Predicate operation encoding). -/
def predicateRule (fn : Nat) (x y : W32) (i : Nat) : Bool :=
  match fn with
  | 0 => x.getLsbD i && y.getLsbD i
  | 1 => x.getLsbD i || y.getLsbD i
  | 2 => x.getLsbD i != y.getLsbD i
  | 3 => x.getLsbD i && !y.getLsbD i
  | 4 => decide (x ≠ 0)
  | 5 => decide (x = BitVec.allOnes 32)
  | 6 => true
  | _ => false


/-- The cycle in which a bundle of one slot instruction issues (R70, R71). -/
def soloCycle (e : SlotIns) (j : Issue) (m : Mod) : Nat :=
  issueCycle m j.tile.val (noteSlot e j { base := tdJ j m, earliest := (tdJ j m).nextIssue })

/-- What TIME returns for a selector in a cycle of a tile (R89, table Time selectors). -/
def timeRule (m : Mod) (t c fn : Nat) : W32 :=
  match fn with
  | 0 => BitVec.ofNat 32 (tileTick m t c).1.toNat
  | 1 => (tdOf m t).latch.zeroExtend 32
  | 2 => BitVec.ofNat 32 (tileTick m t c).2
  | 3 => ((partOfTile m t).map (fun p => (partOf m p).superstep)).getD 0
  | 4 => ((partOfTile m t).map (fun p => (partOf m p).stepNum)).getD 0
  | _ => BitVec.ofNat 32 (((partOfTile m t).map (fun p => (partOf m p).stepAttempt)).getD 0)

/-- A CSR access traps its tile: CSR_ACCESS, the S slot, TRAP_INFO the index, TRAP_PC the bundle; no register changes (R90, R92, R95). -/
def csrTrapped (j : Issue) (k : Nat) (m m' : Mod) : Prop :=
  (tdJ j m').st = .trapped ∧ (tdJ j m').trap.cause = 0x07 ∧ (tdJ j m').trap.info = k ∧ (tdJ j m').trap.slots = 1 ∧
  (tdJ j m').trap.pc = (tdJ j m).pc ∧ ∀ r, getS (tdJ j m') r = getS (tdJ j m) r

/-- Every table that a LOAD may change is in its canonical form. -/
def tablesCanonical (x : Tables) : Prop :=
  mwf {} x.tiles = true ∧ mwf {} x.parts = true ∧ mwf {} x.ports = true ∧ mwf {} x.engines = true ∧ mwf {} x.pool = true ∧
  mwf 0 x.cgroups = true ∧ mwf {} x.bars = true ∧ mwf {} x.dir = true ∧ mwf {} x.shards = true ∧ mwf 0 x.fwd = true ∧
  mwf 0 x.dram = true ∧ mwf 0 x.ecc = true

/-- Every table of the module is, and so are those that an abort of the LOAD that runs would put back (R427). -/
def modCanonical (m : Mod) : Prop :=
  tablesCanonical (tablesOf m) ∧ mwf {} m.stk = true ∧ mwf {} m.dwins = true ∧ mwf {} m.halves = true ∧
  ∀ r p b, m.box.running = some (r, .load p b) → tablesCanonical b


/-- What the slots of that tile's bundle read. -/
abbrev baseJ (j : Issue) (m : Mod) : TileData := bundleBase (tileOf m j.tile.val)

/-- A tile has trapped (R90, R92): cause, TRAP_INFO, SLOT and TRAP_PC as given; its bundle is given up or over. -/
def trappedBy (j : Issue) (cause info slots pc : Nat) (m' : Mod) : Prop :=
  (tdJ j m').st = .trapped ∧ (tdJ j m').trap.cause = cause ∧ (tdJ j m').trap.info = info ∧ (tdJ j m').trap.slots = slots ∧
  (tdJ j m').trap.pc = pc ∧ (tdJ j m').trap.valid = true ∧ (tileOf m' j.tile.val).bundle = none

/-- Registers and scratchpad of a tile are as they stood before the bundle. -/
def asBefore (j : Issue) (m m' : Mod) : Prop :=
  (∀ r, getS (tdJ j m') r = getS (baseJ j m) r) ∧ (∀ r i, getL (tdJ j m') r i = getL (baseJ j m) r i) ∧
  (∀ r, getP (tdJ j m') r = getP (baseJ j m) r) ∧ ∀ x, spWord (tdJ j m') x = spWord (baseJ j m) x

/-- An issue trap is taken: nothing of its bundle has executed, and the partition of the tile has one more cause (R90, R92). -/
def issueTrapped (j : Issue) (cause info slots pc : Nat) (m m' : Mod) : Prop :=
  trappedBy j cause info slots pc m' ∧ asBefore j m m' ∧
  ∀ p, partOfTile m j.tile.val = some p → (partOf m' p).causes.length = (partOf m p).causes.length + 1

/-- A slot instruction comes to its checks: as `slotReady` says, with no X-slot result pending. -/
def checksNow (q : Slot) (j : Issue) (m : Mod) : Prop := slotReady q j [] [] m = true ∧ (baseJ j m).xpend = []

/-- The listed opcodes of a slot, from NOP on (R67). -/
def listedRule (q : Slot) : List Nat :=
  match q with
  | .s => [0x00, 0x01, 0x02, 0x03, 0x04, 0x05, 0x06, 0x07, 0x08, 0x09, 0x0A, 0x0B, 0x0C, 0x0D, 0x0E, 0x0F, 0x10, 0x11, 0x12, 0x13, 0x14, 0x15,
           0x16, 0x17, 0x18, 0x19, 0x1A, 0x20, 0x21, 0x28, 0x29, 0x2A, 0x2B, 0x30, 0x31, 0x32, 0x3E, 0x3F]
  | .v => [0x00, 0x01, 0x02, 0x03, 0x04, 0x05, 0x06, 0x07, 0x08, 0x09, 0x10, 0x11, 0x12, 0x13, 0x14, 0x15, 0x18, 0x19, 0x1A, 0x1B, 0x1C, 0x1D,
           0x1E, 0x20, 0x21, 0x22, 0x23, 0x28, 0x29, 0x2A, 0x2B]
  | .m => [0x00, 0x01, 0x02, 0x03, 0x04, 0x05]
  | .x => [0x00, 0x01, 0x02, 0x08, 0x09, 0x0A, 0x10, 0x11, 0x12, 0x13, 0x14, 0x15, 0x18, 0x19, 0x1A, 0x20, 0x21]

/-- A slot word from its fields (R64), as TRAP_INFO holds it. -/
def wordRule (op : BitVec 6) (j : Issue) (b : BitVec 22) : Nat :=
  op.toNat * 2 ^ 26 + j.pred.toNat * 2 ^ 23 + (if j.pneg then 2 ^ 22 else 0) + b.toNat

/-- Instructions with a reserved field or FN in use (R64, R66, R67, R135): their BODY. -/
def reservedRule (c : Instr) (b : BitVec 22) : Prop :=
  (∃ j f, (scalarRule c = some (j, b, f) ∨ vectorIntRule c = some (j, b, f)) ∧ fFn b ≠ 0) ∨
  (∃ j f acc, vectorFpRule c = some (j, b, f, acc) ∧ fFn b ≠ 0) ∨
  (∃ j f, vectorFnRule c = some (j, b, f) ∧ (fRb b ≠ 0 ∨ fFn b ≠ 0)) ∨
  (∃ j f, scalarImmRule c = some (j, b, f) ∧ isShiftImm c = true ∧ bits b.toNat 11 5 ≠ 0) ∨
  (b ≠ 0 ∧ ∃ j, c = .brk j b ∨ c = .exit j b ∨ c = .sync j b ∨ ∃ q, c = .nop j q 0 b) ∨
  (∃ j, c = .cmp j b ∧ 5 < fFn b ∨ c = .vcmp j b ∧ (fFn b = 6 ∨ fFn b = 7 ∨ 0xC < fFn b) ∨ c = .vred j b ∧ 3 < fFn b) ∨
  (∃ j, (c = .lil j b ∨ c = .lih j b) ∧ bits b.toNat 16 16 = 1 ∨ (c = .br j b ∨ c = .call j b) ∧ bits b.toNat 9 0 ≠ 0)

/-- Branches, LOOP and EXIT with their reserved fields zero (R72). -/
def flowRule (c : Instr) (j : Issue) : Prop :=
  ∃ b, (c = .br j b ∨ c = .call j b) ∧ bits b.toNat 9 0 = 0 ∨ c = .loop j b ∧ bits b.toNat 4 0 = 0 ∨
    c = .jr j b ∧ fRd b = 0 ∧ fRb b = 0 ∧ fFn b = 0 ∨ c = .exit j 0

/-- An M-slot instruction has raised MATRIX_FAULT with a fault code and enters no queue (R178). -/
def matrixTrapped (j : Issue) (op code : Nat) (m m' : Mod) : Prop :=
  trappedBy j 0x14 (op * 256 + code) 4 (tdJ j m).pc m' ∧ (tdJ j m').mq = (tdJ j m).mq

/-- The class of an array format (R154, R155). -/
def classRule (fmt : Nat) : Nat :=
  if fmt = 1 ∨ fmt = 2 then 1 else if fmt = 8 then 3 else if fmt = 0xA then 4 else if 3 ≤ fmt ∧ fmt ≤ 9 then 2 else 0

/-- The fault code of an MLDW (R159, R160, R178), the lowest first; 0 for none. -/
def mldwCode (ra rb : Nat) : Nat :=
  let f := bits ra 31 28
  if bits ra 27 20 ≠ 0 ∨ 0xA < f then 1
  else if bits ra 19 0 % 32 ≠ 0 ∨ 0x100000 < bits ra 19 0 + 32 * (if f = 1 ∨ f = 2 then 64 else 32) ∨
      (5 ≤ f ∧ f ≤ 9 ∧ 0x100000 < rb + if f = 8 then 64 else 32) then 4
  else if f = 0 then 5 else 0

/-- The fault code of an MRUN of n vectors (R155, R156, R158, R160, R161, R178). -/
def mrunCode (d : TileData) (ra : Nat) (rb : W32) (n buf : Nat) (tr : Bool) : Nat :=
  let f := bits ra 31 28
  if bit ra 27 = true ∨ 0xA < f then 1
  else if f ≠ 0 ∧ ∃ a ∈ List.range 4, mget 0 d.wIssued (2 * a + buf) ≠ 0 ∧
      classRule (mget 0 d.wIssued (2 * a + buf) - 1) ≠ classRule f then 2
  else if 128 < bits ra 26 20 + (if f = 8 ∧ tr = true then 2 else 1) * n then 3
  else if bits ra 19 0 % 32 ≠ 0 ∨ 0x100000 < bits ra 19 0 + 32 * ((if f = 1 ∨ f = 2 then 2 else 1) * (n - 1) + 32) ∨
      (5 ≤ f ∧ f ≤ 9 ∧ 0x100000 < rb.toNat + if f = 8 ∧ tr = false then 2 * n else n) then 4
  else if f = 0 then 5
  else if f = 0xA ∧ (rb.toNat < 0x00800000 ∨ 0x7F800000 ≤ rb.toNat) then 7 else 0

/-- The fault code of an MDRAIN of n rows (R161 to R163, R178). -/
def mdrainCode (ra rb n : Nat) (stag : Bool) : Nat :=
  let f := bits ra 31 28
  let row := if f = 0 then 128 else if f = 1 ∨ f = 2 then 64 else if f = 7 then 24 else if f = 8 then 16 else 32
  if bit ra 27 = true ∨ 0xA < f then 1
  else if 128 < bits ra 26 20 + n then 3
  else if bits ra 19 0 % 32 ≠ 0 ∨
      0x100000 < bits ra 19 0 + (if stag then 32 * ((if f = 1 ∨ f = 2 then 2 else 1) * (n - 1) + 32) else n * row) ∨
      (5 ≤ f ∧ f ≤ 9 ∧ 0x100000 < rb + n) then 4
  else if f = 0xA ∨ (stag = true ∧ (f = 8 ∨ f = 0)) then 5 else 0

/-- The fault code of an MWGB of n rows (R160, R161, R164, R178). -/
def mwgbCode (d : TileData) (ra n : Nat) : Nat :=
  if bits ra 31 27 ≠ 0 ∨ bits ra 19 6 ≠ 0 then 1
  else if 128 < bits ra 26 20 + n then 3
  else if (if d.wgbExact then 23 else 47) < bits ra 5 0 then 6 else 0

/-- A tile has trapped with EXCHANGE_FAULT at its XSEND or XRECV (R235 to R237): the fault code in TRAP_INFO with the tag and the exchange cycle;
no receive is armed and XO is not taken. -/
def exchTrapped (j : Issue) (p tag code c : Nat) (m m' : Mod) : Prop :=
  trappedBy j 0x13 (lowBits 20 ((c : Int) - (partOf m p).e0) * 2 ^ 20 + tag * 2 ^ 16 + code) 8 (tdJ j m).pc m' ∧
  (tdJ j m').xchFaults = satAdd 16 (tdJ j m).xchFaults 1 ∧ (tdJ j m').armed = (tdJ j m).armed ∧ (tdJ j m').xoFree = (tdJ j m).xoFree ∧
  (partOf m' p).exchFaults = satAdd 32 (partOf m p).exchFaults 1

/-- The fault code of an XRECV of n beats (R217, R221, R235): OUT_OF_PHASE, RANGE, ARM_ERROR; 0 for none. -/
def xrecvCode (x : Part) (d : TileData) (ra n c : Nat) : Nat :=
  if inPhase x c = false then 5
  else if bits ra 27 20 ≠ 0 ∨ bits ra 5 0 ≠ 0 ∨ 0x100000 < bits ra 19 0 + 64 * n then 7
  else if bits ra 31 28 ∈ armedTags c d ∨ 4 ≤ (armedTags c d).length then 3 else 0

/-- The fault code of an XSEND's destination (R217, R235): RANGE for its reserved bits, BAD_ROUTE. -/
def xdestCode (m : Mod) (p rb : Nat) : Nat :=
  let kind := bits rb 31 30
  if (kind = 0 ∧ bits rb 29 13 ≠ 0) ∨ (kind = 1 ∧ bits rb 29 10 ≠ 0) ∨ (2 ≤ kind ∧ bits rb 29 22 ≠ 0) then 7
  else if (kind = 0 ∧ 5119 < bits rb 12 0) ∨ (kind = 1 ∧ bit (mget 0 (partOf m p).groups (bits rb 9 0)).toNat 31 = false) ∨
      (2 ≤ kind ∧ (50 < bits rb 21 16 ∨ (portOf m (bits rb 21 16)).assigned = false ∨ (portOf m (bits rb 21 16)).part ≠ p)) ∨
      (kind = 3 ∧ bits rb 11 10 = 3) then 6 else 0

/-- The fault code of an XSEND (R217, R218, R235, R341): OUT_OF_PHASE, RANGE, that of its destination, XO_BUSY. -/
def xsendCode (m : Mod) (p : Nat) (d : TileData) (ra rb n c : Nat) : Nat :=
  if inPhase (partOf m p) c = false then 5
  else if xSourceOk d ra rb n = false then 7
  else if xdestCode m p rb ≠ 0 then xdestCode m p rb
  else if c < d.xoFree then 4 else 0

/-- A value in steps of the smallest subnormal number of FP32, 2^-149, of a magnitude with M mantissa bits and a bias (R125, R126). Codes above
the largest finite one go on with the grid (R134). -/
def unitVal (mant bias code : Nat) : Nat :=
  (if code / 2 ^ mant = 0 then code else (2 ^ mant + code % 2 ^ mant) * 2 ^ (code / 2 ^ mant - 1)) * 2 ^ (150 - bias - mant)

/-- The value of an FP32 word that is no NaN, in steps of 2^-149; an infinity lies beyond every finite one. -/
def f32Units (x : W32) : Int :=
  if x.getLsbD 31 then -(unitVal 23 127 (x.toNat % 2 ^ 31) : Int) else (unitVal 23 127 (x.toNat % 2 ^ 31) : Int)

/-- The floating conditions of VCMP (R106): values are compared, and a NaN is unordered. -/
def compareFloatRule (fn : Nat) (x y : W32) : Bool :=
  let un := decide (0x7F800000 < x.toNat % 2 ^ 31 ∨ 0x7F800000 < y.toNat % 2 ^ 31)
  match fn with
  | 0x8 => !un && decide (f32Units x = f32Units y)
  | 0x9 => !(!un && decide (f32Units x = f32Units y))
  | 0xA => !un && decide (f32Units x < f32Units y)
  | 0xB => !un && decide (f32Units x ≤ f32Units y)
  | _ => un

/-- The grid value of c lies nearest to x, and of two that do c is even (R100, R134, R138). -/
def Nearest (grid : Nat → Nat) (x c : Nat) : Prop :=
  (∀ d, (grid c - x) + (x - grid c) ≤ (grid d - x) + (x - grid d)) ∧
  ((∃ d, d ≠ c ∧ (grid d - x) + (x - grid d) = (grid c - x) + (x - grid c)) → c % 2 = 0)

/-- The exact sum of FP32 words, rounded once, with the special cases of R116 and the sign of a zero of R108. -/
def sumRule (xs : List W32) (r : W32) : Prop :=
  if (∃ x ∈ xs, 0x7F800000 < x.toNat % 2 ^ 31) ∨ (0x7F800000 ∈ xs ∧ 0xFF800000 ∈ xs) then r = 0x7FC00000
  else if 0x7F800000 ∈ xs then r = 0x7F800000
  else if 0xFF800000 ∈ xs then r = 0xFF800000
  else
    let sum : Int := xs.foldl (fun a x => a + f32Units x) 0
    if sum = 0 then r = if ∀ x ∈ xs, x = 0x80000000 then 0x80000000 else 0
    else ∃ c, Nearest (unitVal 23 127) sum.natAbs c ∧ r.toNat = Nat.min c 0x7F800000 + if sum < 0 then 2 ^ 31 else 0

/-- The result of a VRED over the contributing lanes (R115 to R117). -/
def reduceRule (fn : Nat) (xs : List W32) (r : W32) : Prop :=
  match fn with
  | 0 => sumRule xs r
  | 1 => if ∃ x ∈ xs, 0x7F800000 < x.toNat % 2 ^ 31 then r = 0x7FC00000 else r ∈ xs ∧ ∀ x ∈ xs, f32Ord x ≤ f32Ord r
  | 2 => if ∃ x ∈ xs, 0x7F800000 < x.toNat % 2 ^ 31 then r = 0x7FC00000 else r ∈ xs ∧ ∀ x ∈ xs, f32Ord r ≤ f32Ord x
  | _ => r = BitVec.ofNat 32 (xs.foldl (fun a x => a + x.toNat) 0)

/-- A floating-point element layout by its number in the table Array format encoding (R125, R155): width, mantissa bits, bias, largest finite
magnitude. FP16, BF16, E4M3 (3 and 5), E5M2 (4 and 6), E2M3, E2M1. -/
def layoutRule (fmt : Nat) : Nat × Nat × Nat × Nat :=
  match fmt with
  | 1 => (16, 10, 15, 0x7BFF)
  | 2 => (16, 7, 127, 0x7F7F)
  | 3 => (8, 3, 7, 0x7E)
  | 5 => (8, 3, 7, 0x7E)
  | 4 => (8, 2, 15, 0x7B)
  | 6 => (8, 2, 15, 0x7B)
  | 7 => (6, 3, 1, 0x1F)
  | _ => (4, 1, 1, 0x7)

/-- Width of an element; MXINT8 and INT8 have 8 bits. -/
def widthRule (fmt : Nat) : Nat := if fmt = 9 ∨ fmt = 0xA then 8 else (layoutRule fmt).1

/-- Is an element code an infinity of its format (R125)? -/
def infRule (fmt code : Nat) : Bool :=
  fmt ≠ 3 && fmt ≠ 5 && code % 2 ^ ((layoutRule fmt).1 - 1) == (layoutRule fmt).2.2.2 + 1

/-- Is an element code a NaN of its format (R125)? -/
def nanRule (fmt code : Nat) : Bool := decide ((layoutRule fmt).2.2.2 < code % 2 ^ ((layoutRule fmt).1 - 1)) && !infRule fmt code

/-- Magnitude and sign of an integer element, in steps of 2^-149 (R129): MXINT8 counts steps of 2^-6. -/
def intUnits (fmt code : Nat) : Nat := (if code < 128 then code else 256 - code) * 2 ^ (if fmt = 9 then 143 else 149)

/-- Byte of a rounded integer that is limited to -127 to 127 (R129, R134, R138). -/
def limitRule (neg : Bool) (q : Nat) : Nat := (if neg then 256 - Nat.min q 127 else Nat.min q 127) % 256

/-- A narrowing conversion of VCVT (R138): CODE 0 to 4. -/
def narrowRule (code : Nat) (x : W32) (r : Nat) : Prop :=
  let mag := x.toNat % 2 ^ 31
  let l := layoutRule (code + 1)
  let sign := if x.getLsbD 31 then 2 ^ (widthRule (if code = 4 then 9 else code + 1) - 1) else 0
  if code = 4 then
    if 0x7F800000 < mag then r = 0
    else if mag = 0x7F800000 then r = if x.getLsbD 31 then 129 else 127
    else ∃ q, Nearest (fun q => q * 2 ^ 149) (unitVal 23 127 mag) q ∧ r = limitRule (x.getLsbD 31) q
  else if 0x7F800000 < mag then r = (if code = 0 then 0x7E00 else if code = 1 then 0x7FC0 else if code = 2 then 0x7F else 0x7E)
  else if mag = 0x7F800000 then r = if code = 2 then 0x7F else l.2.2.2 + 1 + sign
  else ∃ c, Nearest (unitVal l.2.1 l.2.2.1) (unitVal 23 127 mag) c ∧
    r = (if c ≤ l.2.2.2 then c else if l.1 = 16 then l.2.2.2 + 1 else l.2.2.2) + sign

/-- A widening conversion of VCVT (R139): CODE 8 to 0xC. It is exact. -/
def widenRule (code elem : Nat) (r : W32) : Prop :=
  let fmt := if code = 0xC then 0xA else code - 7
  if code = 0xC then r.getLsbD 31 = decide (128 ≤ elem) ∧ unitVal 23 127 (r.toNat % 2 ^ 31) = intUnits fmt elem
  else if nanRule fmt elem then r = 0x7FC00000
  else
    r.getLsbD 31 = elem.testBit (widthRule fmt - 1) ∧
    if infRule fmt elem then r.toNat % 2 ^ 31 = 0x7F800000
    else unitVal 23 127 (r.toNat % 2 ^ 31) = unitVal (layoutRule fmt).2.1 (layoutRule fmt).2.2.1 (elem % 2 ^ (widthRule fmt - 1))

/-- EMAX of an MX element type (R133). -/
def emaxRule (fmt : Nat) : Int := if fmt = 5 then 8 else if fmt = 6 then 15 else if fmt = 9 then 0 else 2

/-- The scale byte of an encoded block (R133). -/
def scaleRule (fmt : Nat) (xs : List W32) (scale : Nat) : Prop :=
  if ∃ x ∈ xs, 0x7F800000 ≤ x.toNat % 2 ^ 31 then scale = 0xFF
  else
    let amax := xs.foldl (fun a x => Nat.max a (x.toNat % 2 ^ 31)) 0
    if amax = 0 then scale = 0
    else ∃ k : Nat, 2 ^ k ≤ unitVal 23 127 amax ∧ unitVal 23 127 amax < 2 ^ (k + 1) ∧
      (scale : Int) = min (max ((k : Int) - 149 - emaxRule fmt) (-127)) 127 + 127

/-- An element of an encoded block (R133, R134): the value over the scale, rounded on the grid of the element type. -/
def encodeRule (fmt scale : Nat) (x : W32) (r : Nat) : Prop :=
  let l := layoutRule fmt
  if scale = 0xFF then r = 0
  else if fmt = 9 then ∃ q, Nearest (fun q => q * 2 ^ (149 + scale)) (unitVal 23 127 (x.toNat % 2 ^ 31) * 2 ^ 133) q ∧ r = limitRule (x.getLsbD 31) q
  else ∃ c, Nearest (fun c => unitVal l.2.1 l.2.2.1 c * 2 ^ scale) (unitVal 23 127 (x.toNat % 2 ^ 31) * 2 ^ 127) c ∧
    r = Nat.min c l.2.2.2 + if x.getLsbD 31 then 2 ^ (l.1 - 1) else 0

/-- A decoded element (R140): its value times the scale, rounded once to FP32. -/
def decodeRule (fmt scale elem : Nat) (r : W32) : Prop :=
  let neg := if fmt = 9 then decide (128 ≤ elem) else elem.testBit (widthRule fmt - 1)
  let units := if fmt = 9 then intUnits 9 elem else unitVal (layoutRule fmt).2.1 (layoutRule fmt).2.2.1 (elem % 2 ^ (widthRule fmt - 1))
  if scale = 0xFF ∨ (fmt ≠ 9 ∧ nanRule fmt elem = true) then r = 0x7FC00000
  else if fmt ≠ 9 ∧ infRule fmt elem = true then r.toNat = 0x7F800000 + if neg then 2 ^ 31 else 0
  else ∃ c, Nearest (fun c => unitVal 23 127 c * 2 ^ 127) (units * 2 ^ scale) c ∧ r.toNat = Nat.min c 0x7F800000 + if neg then 2 ^ 31 else 0

/-- Bit p of a vector register as one string, lane 0 least significant (R132, R136). -/
def stringBit (d : TileData) (r p : Nat) : Bool := (getL d r (p / 32)).getLsbD (p % 32)

/-- The field of w bits at bit p of that string. -/
def stringField (d : TileData) (r w p : Nat) : Nat :=
  (List.range w).foldl (fun a k => a + if stringBit d r (p + k) then 2 ^ k else 0) 0

/-- Does the table Conversion codes list CODE with PART (R135)? -/
def cvtListed (code part : Nat) : Bool :=
  (decide (code ≤ 1) || code == 8 || code == 9) && decide (part ≤ 1) ||
  (decide (2 ≤ code ∧ code ≤ 4) || decide (0xA ≤ code ∧ code ≤ 0xC)) && decide (part ≤ 3) ||
  (decide (0x10 ≤ code ∧ code ≤ 0x14) || decide (0x18 ≤ code ∧ code ≤ 0x1C)) && part == 0

/-- Does the bundle in progress read neither TIME nor a CSR? -/
def noLate (j : Issue) (m : Mod) : Bool :=
  match (tileOf m j.tile.val).bundle with
  | none => true
  | some b => b.late.isEmpty

/-- A tile that begins a bundle free of what could end it otherwise: no bundle in progress, no single step, no compiled beat to read. -/
def plainTile (j : Issue) (m : Mod) : Bool :=
  (tileOf m j.tile.val).bundle.isNone && !(tdJ j m).oneBundle && noBeatToRead j.tile.val m

/-- An M-slot instruction has joined the queue, or will when its bundle ends (R160, R170). -/
def queuedM (j : Issue) (op : MOp) (m m' : Mod) : Prop :=
  if j.more then (tileOf m' j.tile.val).bundle.map (fun b => b.mop) = some (some op)
  else ∃ c, (tdJ j m').mq = (tdJ j m).mq ++ [{ op, issued := c, pc := (baseJ j m).pc }]

/-- A status word of a channel or barrier instruction (R244): CODE in bits 15 to 0, VALUE above. -/
def codeOf (w : W32) : Nat := w.toNat % 65536

/-- A port is UP and assigned to a partition. -/
def portTo (p q : Nat) (m : Mod) : Prop := (portOf m q).state = .up ∧ (portOf m q).assigned = true ∧ (portOf m q).part = p

/-- A beat of a class with this body is at a port: it waits there for the link, or has taken it (R375, R376). -/
def beatAtPort (q cls : Nat) (first : Bool) (body : List W32) (m : Mod) : Prop :=
  (∃ w ∈ (portOf m q).waiting, w.cls = cls ∧ w.first = first ∧ w.body = body) ∨
  ∃ hdr : W64, Out.link q hdr body ∈ m.out ∧ bits hdr.toNat 63 61 = cls ∧ bit hdr.toNat 44 = first

/-- A channel packet is at a port: it waits there for the link, or has left. -/
def chanAtPort (q : Nat) (pkt : ChanPkt) (m : Mod) : Prop :=
  (∃ w ∈ (portOf m q).waiting, w.chan = some pkt) ∨ Out.chan q pkt ∈ m.out

/-- The way of a copy of beat k of an XSEND that issues in cycle c (R209, R218). -/
def xsendPath (p t c k : Nat) (d : BeatDst) (m : Mod) : Path :=
  ⟨(partOf m p).beatNo + k, 0, t, (dstUnit d).1, (dstUnit d).2, c + 5 + k, none, false⟩

/-- No beat of a partition has collided, and none in flight takes a link of a way in the same cycle (R222). -/
def freeWay (p : Nat) (w : Path) (m : Mod) : Prop :=
  ∀ v ∈ (partOf m p).paths, v.cut = none ∧ ∀ l ∈ pathLinks (partOf m p).profile w, l ∉ pathLinks (partOf m p).profile v

/-- Where beat k of an XSEND comes from (R217, R218, R340): the scratchpad, or the WGB with SRC of a contribution. -/
def xsendSrc (t ra rb k : Nat) : BeatSrc :=
  if xSrc rb = 0 then .scratch t (bits ra 19 0 + 64 * k) else .wgb t (bits ra 19 0 + 64 * k) (xSrc rb == 2)

/-- A copy of beat k of an XSEND is under way (R209, R218, R342): the first has been read by the end of the bundle, the others wait for their
cycle. -/
def beatSent (p t c ra rb k : Nat) (d : BeatDst) (m m' : Mod) : Prop :=
  if k = 0 ∧ (dstUnit d).1 = 2 then
    ∃ x ∈ m'.contribs, x.engine = (dstUnit d).2 ∧ x.part = p ∧ x.job = bits rb 15 12 ∧ x.entry = bits rb 9 0 ∧ x.beat = 0
  else
    ∃ y ∈ (partOf m' p).beats, y.dst = d ∧ y.tag = bits ra 31 28 ∧ y.transfer = k ∧ y.lost = false ∧ y.readAt = c + 2 + k ∧
      y.arrive = c + 5 + k + travel (partOf m p).profile 0 t (dstUnit d).1 (dstUnit d).2 ∧
      if k = 0 then y.src = .read ∧ y.data = (readBeat (xsendSrc t ra rb 0) (c + 2) (tdOf m t) (tdOf m t)).1
      else y.src = xsendSrc t ra rb k


/-- The data of a tile. -/
abbrev tdT (t : TileId) (m : Mod) : TileData := tdOf m t.val

/-- The head of a tile's M queue, whose clock runs. -/
def headM (t : TileId) (m : Mod) (op : MOp) (issued : Nat) (rest : List MEntry) : Prop :=
  (∃ pc, (tdT t m).mq = { op, issued, pc } :: rest) ∧ clockRuns m t.val = true

/-- The scratchpad of a tile passes its parity checks, and no trap is still to come. -/
def quietM (d : TileData) : Prop := d.spBad = [] ∧ d.faultsDue = []

/-- The w bits from bit lo on of the scratchpad bytes from an address, as a number. -/
def spField (d : TileData) (a lo w : Nat) : Nat :=
  (List.range w).foldl (fun s k => s + if (spWord d (a + (lo + k) / 8)).getLsbD (8 * ((a + (lo + k) / 8) % 4) + (lo + k) % 8) then 2 ^ k else 0) 0

/-- Element i of vector t of a stream at an address (R154, R156, R157). -/
def streamRule (d : TileData) (fmt : Nat) (tr : Bool) (addr t i : Nat) : Nat :=
  let beat (pos : Nat) : Nat := addr + 32 * ((if fmt = 1 ∨ fmt = 2 then 2 else 1) * t + pos)
  if fmt = 8 ∧ tr = false then spField d (beat (i / 2)) (8 * (i / 2) + 4 * (i % 2)) 4
  else if fmt = 8 then spField d (beat i) (8 * i) 4
  else if fmt = 7 then spField d (beat i) (6 * i) 6
  else if fmt = 1 ∨ fmt = 2 then spField d (beat i) (16 * (i / 2)) 16
  else spField d (beat i) (8 * i) 8

/-- W[k][j] of a weight image at an address (R159). -/
def imageRule (d : TileData) (fmt img k j : Nat) : Nat :=
  if fmt = 8 then spField d (img + 32 * (k / 2)) (8 * j + 4 * (k % 2)) 4
  else if fmt = 7 then spField d (img + 32 * k) (6 * j) 6
  else if fmt = 1 ∨ fmt = 2 then spField d (img + 64 * k) (16 * j) 16
  else spField d (img + 32 * k) (8 * j) 8

/-- The value of an element code of an array format (R126, R129). -/
def codeVal (fmt code : Nat) : FVal :=
  if fmt = 0 ∨ 0xA < fmt then .fin false 0 0
  else if fmt = 9 ∨ fmt = 0xA then
    .fin (decide (128 ≤ code % 256)) (if code % 256 < 128 then code % 256 else 256 - code % 256) (if fmt = 9 then -6 else 0)
  else
    let mant := (layoutRule fmt).2.1
    let low : Int := 1 - (layoutRule fmt).2.2.1 - mant
    let neg := code.testBit ((layoutRule fmt).1 - 1)
    let mag := code % 2 ^ ((layoutRule fmt).1 - 1)
    if infRule fmt code then .inf neg
    else if nanRule fmt code then .nan
    else if mag / 2 ^ mant = 0 then .fin neg mag low else .fin neg (2 ^ mant + mag % 2 ^ mant) (low + (mag / 2 ^ mant : Nat) - 1)

/-- A value times an E8M0 scale (R128, R168); a plain format has none. -/
def scaledRule (fmt scale : Nat) (v : FVal) : FVal :=
  if fmt < 5 ∨ 9 < fmt then v
  else if scale = 0xFF then .nan
  else match v with
    | .fin s m e => .fin s m (e + scale - 127)
    | x => x

/-- W[k][j] of a weight buffer with its scale (R155, R159): +0 where nothing has been loaded. -/
def weightRule (w : WBuf) (k j : Nat) : FVal :=
  match w.fmt with
  | none => .fin false 0 0
  | some g => scaledRule g (mget 0 w.scales (32 * (k / 32) + j)) (codeVal g (mget 0 w.elems (32 * k + j)))

/-- Output o of a vector (R153, R154, R158, R166 to R168): the exact sum of its products, an INT8 product times the product scale, and the old
element, rounded once. -/
def dotRule (fmt : Nat) (tr : Bool) (scale : W32) (vec sc : List Nat) (w : WBuf) (o : Nat) (old : W32) : W32 :=
  sumVals ((List.range (if fmt = 8 ∧ tr = false then 64 else 32)).map (fun k =>
    let p := mulVal (scaledRule fmt (nth 0 sc (k / 32)) (codeVal fmt (nth 0 vec k))) (if tr then weightRule w o k else weightRule w k o)
    if fmt = 0xA then mulVal p (f32Val scale) else p) ++ [f32Val old])

/-- Is the M unit of a tile clear for a start that reads these bytes: no drain has still to write them? -/
def bytesLanded (d : TileData) (lo n : Nat) : Bool := n == 0 || !landingPending d lo (lo + n - 1)


/-- A packet of one of the kinds arrives by a row, with no earlier one of its connection still to come (R251): the k-th in flight within the
module, or one at a port that carries its job and whose module this is (R386), and the cycle of its arrival. -/
def arrives (src : PktFrom) (kinds : List PktKind) (m : Mod) (pkt : ChanPkt) (c : Nat) : Prop :=
  fromOk kinds src = true ∧ kinds.contains pkt.kind = true ∧ m.power.active = false ∧
  match src with
  | .flight k => nth? m.flight k = some { pkt, at_ := c } ∧ (∀ p, partOfTag m pkt.jobTag.toNat = some p → fabricHeld m p = false) ∧
      (m.flight.take k).all (fun y => !sameWay y.pkt pkt) = true
  | .port q x => x = pkt ∧ c = m.now ∧ portTakes m q.val pkt.jobTag = true ∧ fabricHeld m (portOf m q.val).part = false ∧
      isHere m (pktDest pkt) = true ∧ m.flight.all (fun y => !sameWay y.pkt pkt) = true

/-- A symbol goes out on every downstream port that is UP (R383). -/
def sentDown (type : Nat) (tag : BitVec 16) (seq arg : W32) (m m' : Mod) : Prop :=
  ∀ q, q ∈ downPorts m → symOpen m q = true → Out.sym q type tag seq arg ∈ m'.out

/-- No accepted edge lies less than half a tick before an instant, by serial-number arithmetic (R33, R54). -/
def edgeApart (at_ : Int) (m : Mod) : Prop :=
  ∀ l, m.lastEdge = some l → ¬(0 ≤ sinceInstant (l : Int) at_ ∧ sinceInstant (l : Int) at_ < 5120)

/-- An edge at an instant, in sixteenths of a cycle, is an accepted one: within 16 cycles of tick n, whose low bits it carries if any, and
no sooner than half a tick after the last accepted edge (R33). -/
def edgeFits (at_ : Int) (low : Option (BitVec 16)) (m : Mod) : Prop :=
  (∃ n : Int, at_ - 10240 * n ≤ 256 ∧ 10240 * n - at_ ≤ 256 ∧ (low = none ∨ low = some (BitVec.ofInt 16 n))) ∧ edgeApart at_ m

/-- The module holds its lock or has it back, and notes the edge. -/
def edgeTaken (at_ : Int) (m m' : Mod) : Prop :=
  m'.lastEdge = some (at_ % instantWrap).toNat ∧ m'.lock = (if m.lock = .holdover then .locked else m.lock) ∧ m'.phaseErr = m.phaseErr

/-- Nothing is in the M units and stream engines of a partition's tiles. -/
def enginesIdle (p : Nat) (m : Mod) : Prop :=
  ∀ t, t ∈ tilesOfPart m p → mIdle (tdOf m t) = true ∧ streamReq m t = none ∧ (tdOf m t).queues = []

/-- The DMA and reduction engines of a partition are idle, its halves run at 800 MHz, and no bundle of its tiles is in progress. -/
def dmasQuiet (p : Nat) (m : Mod) : Prop := endReady p m = true ∧ ∀ t, t ∈ tilesOfPart m p → (tileOf m t).bundle = none

/-- Nothing waits on the links but what a port's second decode delays: no stop holds the module, nothing that a stop held is left, no beat
waits for a slot or comes from a router, no other port delays one. -/
def linksQuiet (q : Nat) (m : Mod) : Prop :=
  m.power.active = false ∧ m.stopped = [] ∧ (∀ x, x ∈ m.parts → x.2.beats = [] ∧ x.2.xphase = .compute ∧ x.2.ending = none) ∧
  (∀ x, x ∈ m.ports → x.2.waiting = [] ∧ x.2.resend = [] ∧ x.2.remote = [] ∧ (x.1 ≠ q → x.2.delayed = [])) ∧ m.ports.Pairwise (fun x y => x.1 ≠ y.1)

/-- A partition runs a step that has not failed, and no emergency stop holds the module. -/
def stepRuns (p : Nat) (m : Mod) : Prop :=
  (partOf m p).jstate = .running ∧ (partOf m p).stepFailed = false ∧ m.power.active = false


/-- A DMA packet that is well formed, passes its CRC, comes to a port that carries its job while the fabric runs, and is for this module. -/
def dmaHere (data : Bool) (q : PortId) (k : DmaPkt) (m : Mod) : Prop :=
  dmaPktOk data k = true ∧ k.crcOk = true ∧ dmaHeaderOk k = true ∧ fabricHeld m (portOf m q.val).part = false ∧
  portTakes m q.val k.jobTag = true ∧ isHere m k.destModule.toNat = true

/-- Words that land through DW lie in the scratchpad of a tile from a byte address upward, but for those that yield to a write of the same
cycle (R185), and every other word is as before. -/
def wordsLand (t a : Nat) (l : List W32) (m m' : Mod) : Prop :=
  ∀ w, spWord (tdOf m' t) (4 * w) =
    if a / 4 ≤ w ∧ w < a / 4 + l.length ∧ spYields (tdOf m t) rankDW (nowOf m t) (4 * w) = false then nth 0 l (w - a / 4)
    else spWord (tdOf m t) (4 * w)

/-- The boundary of a channel's next grant has come. -/
def turnDue (c : Chan) (m : Mod) : Prop := ∀ t, nextTurn m c = some t → t.at_ ≤ stackNow m

/-- A tile waits for nothing. -/
def notWaiting (t : Nat) (m : Mod) : Prop := (tdOf m t).st ≠ .waiting


/-- The COMMAND frame of a row that is a command of Gondola, its opcode (table Opcodes), and whether its class is D or L (R428). -/
def commandRow (c : Instr) : Option (Frame × Nat × Bool) :=
  match c with
  | .identify f => some (f, 0x0001, false)
  | .setModuleNum f => some (f, 0x0002, false)
  | .roleConfirm f => some (f, 0x0003, false)
  | .setTickTree f => some (f, 0x0004, false)
  | .linkTrain f => some (f, 0x0005, false)
  | .tickSync f => some (f, 0x0006, false)
  | .partSet f => some (f, 0x0101, false)
  | .partPorts f => some (f, 0x0102, false)
  | .setQuota f => some (f, 0x0103, false)
  | .map f => some (f, 0x0104, false)
  | .move f => some (f, 0x0105, false)
  | .unmap f => some (f, 0x0106, false)
  | .memRead f => some (f, 0x0107, true)
  | .memWrite f => some (f, 0x0108, true)
  | .winTile f => some (f, 0x0201, false)
  | .winDram f => some (f, 0x0202, false)
  | .load f => some (f, 0x0301, true)
  | .jobStart f => some (f, 0x0302, false)
  | .jobKill f => some (f, 0x0303, false)
  | .jobStatus f => some (f, 0x0304, false)
  | .scrub f => some (f, 0x0305, false)
  | .ckptSave f => some (f, 0x0306, false)
  | .ckptRestore f _ => some (f, 0x0307, true)
  | .regRead f => some (f, 0x0401, true)
  | .regWrite f => some (f, 0x0402, true)
  | .powerSet f => some (f, 0x0501, false)
  | .quote f => some (f, 0x0601, false)
  | .certRead f => some (f, 0x0602, false)
  | .fwInstall f => some (f, 0x0603, true)
  | _ => none

/-- The module while a command that Gondola has accepted runs: only its mailbox differs (R421, R424). -/
def taken (f : Frame) (opcode : Nat) (m : Mod) : Mod :=
  { m with box := { m.box with st := .running, opcode := opcode, seq := f.seq, acceptedAt := srcNow m, stored := none } }

/-- What Gondola answers: the response that a command of class D or L has waiting, else the one that is stored. -/
def answerOf (m : Mod) : Option Resp :=
  match m.box.running with
  | some r => some r.1
  | none => m.box.stored

/-- Gondola in phase READY takes this COMMAND frame of a listed opcode and carries it out (R419 to R426): a whole argument block, a good CRC, no
HALT, the mailbox IDLE, no repetition. -/
def accepts (f : Frame) (opcode : Nat) (m : Mod) : Prop :=
  frameOk f = true ∧ f.ftype = 1 ∧ f.opcode = none ∧ f.w.length = 16 ∧ f.crcOk = true ∧ frameLength f ≤ 1048640 ∧ m.box.kiteUp = true ∧ m.bringup = .ready ∧
  m.box.halt = false ∧ m.box.st = .idle ∧ ∀ r, m.box.stored = some r → r.seq = f.seq → r.opcode ≠ opcode

/-- The command is answered with a status, result words and data (R420). -/
def answered (f : Frame) (opcode status : Nat) (w : List W32) (data : List Byte) (m' : Mod) : Prop :=
  answerOf m' = some { opcode := opcode, seq := f.seq, status := status, w := w ++ List.replicate (16 - w.length) 0, data := data }

/-- The command answers OK with these result words and data, and leaves the module `goal` but for the mailbox and what is sent. -/
def Carries (c : Instr) (f : Frame) (opcode : Nat) (s : State) (w : List W32) (data : List Byte) (goal : Mod) : Prop :=
  Gives c s (fun m' => answered f opcode 0 w data m' ∧ m' = { goal with box := m'.box, out := m'.out })

/-- Every partition but one is as before. -/
def otherParts (p : Nat) (m m' : Mod) : Prop := ∀ r, r ≠ p → partOf m' r = partOf m r

/-- The phase in which a bring-up ends (R456, R487, R491). -/
def bringUpEnd (answering : BitVec 32) (m : Mod) : Prop :=
  m.bringup = if m.atgen.bootResult ≠ 0 then .gondola else if answering = BitVec.allOnes 32 then .ready else .stackFail

end Sys2Proof.Machine
end

