-- ==== Sys2Proof/Certificates/Slice0/Obligations.lean ====
section
/-! DEFINITION. The statements for the provers. -/

open Sys2Proof Sys2Proof.Machine

/-- A step runs the command at the front of the queue. For every state whose queue holds command c in front, a step is exec of c on the
state with the rest of the queue. (00_scope) -/
def Obligations.StepRunsFront : Prop :=
  ∀ (c : Instr) (rest : List Instr) (s : State), s.pending = c :: rest → step s = exec c { s with pending := rest }

/-- A well-formed command answers a next state, an ill-formed one the fault illFormed. For every command and every state: a well-formed
command answers a next state in which only the module may have changed (the stepping and the queue of waiting commands stand as they
were), and an ill-formed command answers the fault illFormed. No command is refused. That an ill-formed command stops is the model's
choice (log entry 76). (R419, R381, R375) -/
def Obligations.EveryCommandAnswers : Prop :=
  ∀ (c : Instr) (s : State),
    (wellFormed c = true → ∃ m' : Mod, exec c s = .next { s with m := m' }) ∧
    (wellFormed c = false → exec c s = .fault .illFormed)

/-- Every slot word has one meaning, and every well-formed slot instruction one word. OP in bits 31 to 26, PRED in 25 to 23, PNEG in 22,
RD, RA, RB and FN or IMM12 from bit 21 down: words of ADD s3, s1, s2, of LD s4 at s5 - 4, of VFMA v1, v2, v3 under p2 inverted, of MZERO,
of XRECV and of an unlisted opcode decode to their instructions. For every slot, tile and 32-bit word: the instruction that the word
decodes to is well formed and encodes to that word in that slot. For every well-formed instruction of the four slots: it encodes to a word
of its slot that decodes to it, with every field. (R63, R64, R66, R67) -/
def Obligations.SlotWordsRoundTrip : Prop :=
  (∀ (q : Slot) (t : TileId) (more : Bool) (w : W32),
    wellFormed (decodeSlot q t more w) = true ∧ encodeSlot (decodeSlot q t more w) = some (q, w)) ∧
  (∀ (c : Instr) (q : Slot) (op : BitVec 6) (j : Issue) (b : BitVec 22), slotFields c = some (q, op, j, b) → wellFormed c = true →
    ∃ w : W32, encodeSlot c = some (q, w) ∧ decodeSlot q j.tile j.more w = c) ∧
  (∀ (t : TileId) (more : Bool),
    decodeSlot .s t more 0x04061100 = .add ⟨t, 0, false, more⟩ (BitVec.ofNat 22 (3 * 2 ^ 17 + 1 * 2 ^ 12 + 2 * 2 ^ 7)) ∧
    decodeSlot .s t more 0x80085FFF = .ld ⟨t, 0, false, more⟩ (BitVec.ofNat 22 (4 * 2 ^ 17 + 5 * 2 ^ 12 + 0xFFF)) ∧
    decodeSlot .v t more 0x4D422180 = .vfma ⟨t, 2, true, more⟩ (BitVec.ofNat 22 (1 * 2 ^ 17 + 2 * 2 ^ 12 + 3 * 2 ^ 7)) ∧
    decodeSlot .m t more 0x0C0083F0 = .mzero ⟨t, 0, false, more⟩ (BitVec.ofNat 22 (1 * 2 ^ 15 + 3 * 2 ^ 8 + 15 * 2 ^ 4)) ∧
    decodeSlot .x t more 0x08000000 = .xrecv ⟨t, 0, false, more⟩ 0 ∧
    decodeSlot .x t more 0xFC000000 = .nop ⟨t, 0, false, more⟩ .x 0x3F 0)

/-- Every step keeps every table of the module in its one canonical form. The tables of the module are those of its tiles, partitions,
ports, engines, endpoints, group members, barriers, pages, shards, forward entries, DRAM words and check marks, stacks, windows and
halves: keys rise strictly, and no entry equals what an unlisted key reads as, so equal contents are equal data. Every step from a state
in which all of them, and those that an abort of a running LOAD would put back, are so leaves them so. (R274, R276, R427) -/
def Obligations.TablesStayCanonical : Prop :=
  ∀ (s t : State), modCanonical s.m → step s = .next t → modCanonical t.m

/-- Scalar register instructions give the integer results of R103 and R104. ADD, SUB, AND, OR, XOR, SHL, SHR, SRA, MUL, MULHS, MULHU, MIN,
MAX, MINU and MAXU, issued as the first slot of a bundle with FN zero, answer a next state in which sd holds the result where the
predicate enables the instruction, s0 still reads 0, and every other scalar register reads as before. (R58, R103, R104) -/
def Obligations.ScalarResults : Prop :=
  ∀ (c : Instr) (j : Issue) (b : BitVec 22) (f : W32 → W32 → W32) (s : State), scalarRule c = some (j, b, f) →
    slotReady .s j [fRa b, fRb b] [fRd b] s.m = true → (tileOf s.m j.tile.val).bundle = none → fFn b = 0 →
    Gives c s (fun m' => ∀ r, getS (tdJ j m') r =
      if r = fRd b ∧ r ≠ 0 ∧ slotEnabled j s.m = true then f (getS (tdJ j s.m) (fRa b)) (getS (tdJ j s.m) (fRb b))
      else getS (tdJ j s.m) r)

/-- Scalar immediate instructions give the results of R104 and R105. ADDI, ANDI, ORI and XORI combine sa with the sign-extended IMM12;
SHLI, SHRI and SRAI, whose IMM12[11:5] is zero, shift sa by IMM12[4:0]. Issued as the first slot of a bundle they answer a next state with
the result in sd where enabled, and every other scalar register as before. (R104, R105) -/
def Obligations.ScalarImmediateResults : Prop :=
  ∀ (c : Instr) (j : Issue) (b : BitVec 22) (f : W32 → W32) (s : State), scalarImmRule c = some (j, b, f) →
    slotReady .s j [fRa b] [fRd b] s.m = true → (tileOf s.m j.tile.val).bundle = none →
    (isShiftImm c = true → bits b.toNat 11 5 = 0) →
    Gives c s (fun m' => ∀ r, getS (tdJ j m') r =
      if r = fRd b ∧ r ≠ 0 ∧ slotEnabled j s.m = true then f (getS (tdJ j s.m) (fRa b)) else getS (tdJ j s.m) r)

/-- LIL loads IMM16, LIH loads it into the upper half. LIL writes the zero-extended IMM16 to sd; LIH writes IMM16 to sd[31:16] and keeps
sd[15:0]; every other scalar register reads as before. BODY[16] must be zero. (R67) -/
def Obligations.LoadImmediateResults : Prop :=
  ∀ (j : Issue) (b : BitVec 22) (s : State), slotReady .s j [fRd b] [fRd b] s.m = true →
    (tileOf s.m j.tile.val).bundle = none → bits b.toNat 16 16 = 0 →
    Gives (.lil j b) s (fun m' => ∀ r, getS (tdJ j m') r =
      if r = fRd b ∧ r ≠ 0 ∧ slotEnabled j s.m = true then BitVec.ofNat 32 (bits b.toNat 15 0) else getS (tdJ j s.m) r) ∧
    Gives (.lih j b) s (fun m' => ∀ r, getS (tdJ j m') r =
      if r = fRd b ∧ r ≠ 0 ∧ slotEnabled j s.m = true then
        BitVec.ofNat 16 (bits b.toNat 15 0) ++ (getS (tdJ j s.m) r).extractLsb' 0 16
      else getS (tdJ j s.m) r)

/-- CMP and PLOGIC write predicates, p0 stays all ones. CMP writes its integer condition to all 32 bits of pd; PLOGIC computes its
operation bit by bit on pa and pb (ANY and ALL over the whole source, SET and CLEAR constants). Issued as the first slot of a bundle with
a defined FN they answer a next state with pd so written where enabled, p0 reading all ones, and every other predicate and every scalar
register as before. (R59, R106) -/
def Obligations.PredicateResults : Prop :=
  ∀ (j : Issue) (b : BitVec 22) (s : State), (tileOf s.m j.tile.val).bundle = none → fRd b < 8 →
    (slotReady .s j [fRa b, fRb b] [kP (fRd b)] s.m = true → fFn b ≤ 5 →
      Gives (.cmp j b) s (fun m' =>
        (∀ r, getP (tdJ j m') r =
          if r = fRd b ∧ r ≠ 0 ∧ slotEnabled j s.m = true then
            (if compareRule (fFn b) (getS (tdJ j s.m) (fRa b)) (getS (tdJ j s.m) (fRb b)) then BitVec.allOnes 32 else 0)
          else getP (tdJ j s.m) r) ∧
        ∀ r, getS (tdJ j m') r = getS (tdJ j s.m) r)) ∧
    (slotReady .s j [kP (fRa b), kP (fRb b)] [kP (fRd b)] s.m = true → fFn b ≤ 7 → fRa b < 8 → fRb b < 8 →
      (4 ≤ fFn b → fRb b = 0) → (6 ≤ fFn b → fRa b = 0) →
      Gives (.plogic j b) s (fun m' =>
        (∀ r i, i < 32 → (getP (tdJ j m') r).getLsbD i =
          if r = fRd b ∧ r ≠ 0 ∧ slotEnabled j s.m = true then
            predicateRule (fFn b) (getP (tdJ j s.m) (fRa b)) (getP (tdJ j s.m) (fRb b)) i
          else (getP (tdJ j s.m) r).getLsbD i) ∧
        ∀ r, getS (tdJ j m') r = getS (tdJ j s.m) r))

/-- LD reads and ST writes one aligned scratchpad word; a failed parity check traps at its stage. At an address a = sa + sign-extended
IMM12 x 4 mod 2^32 that is word aligned and below 1 MiB: LD, whose word passes its parity check, writes the word at a to sd and changes no
scratchpad word and no other scalar register; ST writes sd to the word at a and changes no other scratchpad word and no scalar register.
An LD, alone in its bundle, whose word fails its parity check writes no register and leaves SCRATCH_PARITY with the address a, SLOT the S
slot and port SR due three core cycles after its issue. A trap that is due by the cycle in which the next bundle would issue comes first:
the tile traps with its cause, TRAP_INFO, SLOT and TRAP_PC, and SP_PARITY counts its failed word and, if it held no error, records port
and address. (R75, R90, R105, R187, R190) -/
def Obligations.ScalarLoadStore : Prop :=
  ∀ (j : Issue) (b : BitVec 22) (s : State), (tileOf s.m j.tile.val).bundle = none →
    effAddr (tdJ j s.m) b 4 % 4 = 0 → effAddr (tdJ j s.m) b 4 < 0x100000 →
    (slotReady .s j [fRa b] [fRd b] s.m = true → (tdJ j s.m).spBad.contains (effAddr (tdJ j s.m) b 4 / 4) = false →
      Gives (.ld j b) s (fun m' =>
        (∀ r, getS (tdJ j m') r =
          if r = fRd b ∧ r ≠ 0 ∧ slotEnabled j s.m = true then spWord (tdJ j s.m) (effAddr (tdJ j s.m) b 4)
          else getS (tdJ j s.m) r) ∧
        ∀ x, spWord (tdJ j m') x = spWord (tdJ j s.m) x)) ∧
    (slotReady .s j [fRa b, fRd b] [] s.m = true →
      Gives (.st j b) s (fun m' =>
        (∀ x, spWord (tdJ j m') x =
          if x / 4 = effAddr (tdJ j s.m) b 4 / 4 ∧ slotEnabled j s.m = true then getS (tdJ j s.m) (fRd b)
          else spWord (tdJ j s.m) x) ∧
        ∀ r, getS (tdJ j m') r = getS (tdJ j s.m) r)) ∧
    (slotReady .s j [fRa b] [fRd b] s.m = true → slotEnabled j s.m = true → plainTile j s.m = true → j.more = false →
      (tdJ j s.m).spBad.contains (effAddr (tdJ j s.m) b 4 / 4) = true →
      Gives (.ld j b) s (fun m' => (tdJ j m').st = .running ∧ (∀ r, getS (tdJ j m') r = getS (tdJ j s.m) r) ∧
        (tdJ j m').faultsDue = [⟨(tdJ j s.m).pc, 1, 0x0A, effAddr (tdJ j s.m) b 4, soloCycle (sLd b) j s.m + 3 * coreK s.m j.tile.val, 0,
          [effAddr (tdJ j s.m) b 4]⟩])) ∧
    (∀ (c : Instr) (q : Slot) (op : BitVec 6) (b' : BitVec 22) (x : DueTrap) (a : Nat), slotFields c = some (q, op, j, b') → wellFormed c = true →
      coreRuns s.m j.tile.val = true → noBeatToRead j.tile.val s.m = true → (tdJ j s.m).faultsDue = [x] → x.cycle ≤ (tdJ j s.m).nextIssue →
      x.cause = 0x0A → x.words = [a] →
      Gives c s (fun m' => trappedBy j 0x0A x.info x.slots x.pc m' ∧ (tdJ j m').faultsDue = [] ∧
        (tdJ j m').spParity.count = satAdd 16 (tdJ j s.m).spParity.count 1 ∧ (tdJ j m').spParity.valid = true ∧
        ((tdJ j s.m).spParity.valid = false → (tdJ j m').spParity.a = x.port ∧ (tdJ j m').spParity.b = a / 4 * 4)))

/-- A misaligned or out-of-range scalar access traps the tile and moves no data. LD or ST alone in its bundle, enabled, on a tile without
compiled beats still to be read: an address that is not a multiple of 4 traps with MISALIGNED, an aligned one at or above 1 MiB with
SCRATCH_RANGE; the tile is TRAPPED, TRAP_INFO holds the address, SLOT the S slot, TRAP_PC the bundle, and no register and no scratchpad
word changes. (R75, R90, R92) -/
def Obligations.ScalarAccessTraps : Prop :=
  ∀ (j : Issue) (b : BitVec 22) (s : State) (c : Instr), (c = .ld j b ∧ slotReady .s j [fRa b] [fRd b] s.m = true ∨
      c = .st j b ∧ slotReady .s j [fRa b, fRd b] [] s.m = true) →
    (tileOf s.m j.tile.val).bundle = none → j.more = false → slotEnabled j s.m = true → noBeatToRead j.tile.val s.m = true →
    effAddr (tdJ j s.m) b 4 % 4 ≠ 0 ∨ 0x100000 ≤ effAddr (tdJ j s.m) b 4 →
    Gives c s (fun m' =>
      (tdJ j m').st = .trapped ∧
      (tdJ j m').trap.cause = (if effAddr (tdJ j s.m) b 4 % 4 ≠ 0 then 0x09 else 0x08) ∧
      (tdJ j m').trap.info = effAddr (tdJ j s.m) b 4 ∧
      (tdJ j m').trap.slots = 1 ∧ (tdJ j m').trap.pc = (tdJ j s.m).pc ∧
      (∀ r, getS (tdJ j m') r = getS (tdJ j s.m) r) ∧
      ∀ x, spWord (tdJ j m') x = spWord (tdJ j s.m) x)

/-- BR, CALL, JR, LOOP, EXIT, BREAK and NOP move the PC as R77 to R82 and R93 say. Alone in their bundle, with their reserved fields zero,
on a tile where no hardware loop ends at this bundle: BR, CALL and JR set the PC to their target where enabled, CALL also writes the
return index to s31; LOOP with a count pushes a level that runs from the next bundle to END, and with count 0 goes on behind END; EXIT
lets no further bundle issue; BREAK without BREAK_ENABLE and NOP do nothing else; otherwise the PC goes to the next bundle. JR holds a
target below 4,096; END lies behind this bundle and below the END of an active level. (R64, R77, R79, R80, R82, R93) -/
def Obligations.ControlFlow : Prop :=
  ∀ (j : Issue) (b : BitVec 22) (s : State), (tileOf s.m j.tile.val).bundle = none → j.more = false →
    (tdJ j s.m).oneBundle = false → endsLoop (tdJ j s.m) = false →
    (slotReady .s j [] [] s.m = true → bits b.toNat 9 0 = 0 →
      Gives (.br j b) s (fun m' => (tdJ j m').pc = if slotEnabled j s.m then bits b.toNat 21 10 else (tdJ j s.m).pc + 1)) ∧
    (slotReady .s j [] [kS 31] s.m = true → bits b.toNat 9 0 = 0 →
      Gives (.call j b) s (fun m' => (tdJ j m').pc = (if slotEnabled j s.m then bits b.toNat 21 10 else (tdJ j s.m).pc + 1) ∧
        ∀ r, getS (tdJ j m') r =
          if r = 31 ∧ slotEnabled j s.m = true then BitVec.ofNat 32 ((tdJ j s.m).pc + 1) else getS (tdJ j s.m) r)) ∧
    (slotReady .s j [fRa b] [] s.m = true → fRd b = 0 → fRb b = 0 → fFn b = 0 → (getS (tdJ j s.m) (fRa b)).toNat < 4096 →
      Gives (.jr j b) s (fun m' => (tdJ j m').pc =
        if slotEnabled j s.m then (getS (tdJ j s.m) (fRa b)).toNat else (tdJ j s.m).pc + 1)) ∧
    (slotReady .s j [fRd b] [] s.m = true → bits b.toNat 4 0 = 0 → (tdJ j s.m).pc < bits b.toNat 16 5 →
      ((tdJ j s.m).loops = [] ∨ ∃ l, (tdJ j s.m).loops = [l] ∧ bits b.toNat 16 5 < l.last) →
      Gives (.loop j b) s (fun m' =>
        if slotEnabled j s.m = true ∧ getS (tdJ j s.m) (fRd b) = 0 then
          (tdJ j m').pc = bits b.toNat 16 5 + 1 ∧ (tdJ j m').loops = (tdJ j s.m).loops
        else
          (tdJ j m').pc = (tdJ j s.m).pc + 1 ∧
          (tdJ j m').loops = if slotEnabled j s.m then
              { start := (tdJ j s.m).pc + 1, last := bits b.toNat 16 5, remain := (getS (tdJ j s.m) (fRd b)).toNat } ::
                (tdJ j s.m).loops
            else (tdJ j s.m).loops)) ∧
    (slotReady .s j [] [] s.m = true → b = 0 →
      Gives (.exit j b) s (fun m' => (tdJ j m').exiting = slotEnabled j s.m ∧ (tdJ j m').pc = (tdJ j s.m).pc + 1) ∧
      Gives (.nop j .s 0 b) s (fun m' => (tdJ j m').exiting = false ∧ (tdJ j m').pc = (tdJ j s.m).pc + 1 ∧
        ∀ r, getS (tdJ j m') r = getS (tdJ j s.m) r) ∧
      ((tdJ j s.m).breakEnable = false →
        Gives (.brk j b) s (fun m' => (tdJ j m').pc = (tdJ j s.m).pc + 1 ∧
          ∀ r, getS (tdJ j m') r = getS (tdJ j s.m) r)))

/-- BREAK and the issue traps stop a tile, and nothing of the bundle executes. An enabled BREAK on a tile whose BREAK_ENABLE is 1 puts the
tile in DEBUG_STOP with cause BREAK and TRAP_PC its bundle; its registers and scratchpad stand as they were. A fetch behind bundle 4,095
traps with PC_RANGE, a bundle with words of bad parity with IMEM_PARITY and a SLOT bit for each. In any slot, behind earlier slots too: an
unlisted opcode traps with ILLEGAL_OPCODE, a reserved field or FN in use with RESERVED_FIELD, TRAP_INFO the slot word and SLOT its slot,
whatever the predicate; a second slot with the same destination register, or a branch, LOOP or EXIT in the end bundle of an active loop,
with ILLEGAL_BUNDLE. An enabled JR whose target has bits above 11 traps with RESERVED_FIELD, an enabled LOOP whose END is not behind it or
not below the END of an active level with ILLEGAL_BUNDLE, one with two levels active with LOOP_DEPTH. The registers and the scratchpad are
as before the bundle, and the step of the partition has one more cause. The order of the checks is the model's choice where several hold
(log entries 20, 120, 147). (R62, R64, R66, R67, R72, R77, R78, R79, R80, R90, R92, R93) -/
def Obligations.BreakStops : Prop :=
  ∀ (j : Issue) (s : State),
    ((tileOf s.m j.tile.val).bundle = none → slotReady .s j [] [] s.m = true → slotEnabled j s.m = true →
      (tdJ j s.m).breakEnable = true →
      Gives (.brk j 0) s (fun m' => (tdJ j m').st = .debugStop ∧ (tdJ j m').trap.cause = 0x20 ∧
        (tdJ j m').trap.pc = (tdJ j s.m).pc ∧ (tileOf m' j.tile.val).bundle = none ∧
        (∀ r, getS (tdJ j m') r = getS (tdJ j s.m) r) ∧
        ∀ x, spWord (tdJ j m') x = spWord (tdJ j s.m) x)) ∧
    (∀ (c : Instr) (q : Slot) (op : BitVec 6) (b : BitVec 22) (pc : Nat), slotFields c = some (q, op, j, b) → pc = (baseJ j s.m).pc →
      (wellFormed c = true → coreRuns s.m j.tile.val = true → (tileOf s.m j.tile.val).bundle = none → (tdJ j s.m).faultsDue = [] →
        ((tdJ j s.m).spBad = [] ∨ noBeatToRead j.tile.val s.m = true) →
        (pc = 4096 → Gives c s (issueTrapped j 0x04 4096 0 4095 s.m)) ∧
        (pc ≤ 4095 → (∃ i, i < 4 ∧ (tdJ j s.m).imemBad.contains (4 * pc + i) = true) →
          Gives c s (issueTrapped j 0x05 pc
            ((List.range 4).foldl (fun a i => a + if (tdJ j s.m).imemBad.contains (4 * pc + i) then 2 ^ i else 0) 0) pc s.m))) ∧
      (checksNow q j s.m →
        (op.toNat ∉ listedRule q → Gives c s (issueTrapped j 0x01 (wordRule op j b) (2 ^ slotNo q) pc s.m)) ∧
        (reservedRule c b → Gives c s (issueTrapped j 0x03 (wordRule op j b) (2 ^ slotNo q) pc s.m)) ∧
        ((∃ d, (tileOf s.m j.tile.val).bundle = some d ∧ kS (fRd b) ∈ d.dests) → fRd b ≠ 0 → c = .vextr j b → fFn b < 32 → fRb b = 0 →
          Gives c s (issueTrapped j 0x02 0 0 pc s.m)) ∧
        (flowRule c j → (∃ l ∈ (baseJ j s.m).loops, l.last = pc) → Gives c s (issueTrapped j 0x02 0 0 pc s.m)) ∧
        (slotEnabled j s.m = true → (∀ l ∈ (baseJ j s.m).loops, l.last ≠ pc) →
          (c = .jr j b → fRd b = 0 → fRb b = 0 → fFn b = 0 → 4096 ≤ (getS (baseJ j s.m) (fRa b)).toNat →
            Gives c s (issueTrapped j 0x03 (wordRule op j b) 1 pc s.m)) ∧
          (c = .loop j b → bits b.toNat 4 0 = 0 →
            (bits b.toNat 16 5 ≤ pc ∨ (∃ l r, (baseJ j s.m).loops = l :: r ∧ l.last ≤ bits b.toNat 16 5) →
              Gives c s (issueTrapped j 0x02 0 0 pc s.m)) ∧
            (∀ l k, pc < bits b.toNat 16 5 → (baseJ j s.m).loops = [l, k] → bits b.toNat 16 5 < l.last →
              Gives c s (issueTrapped j 0x06 0 1 pc s.m))))))

/-- TIME and CSRR read, CSRW writes the special registers of a tile. Alone in their bundle: TIME writes to sd, as of its issue cycle, the
low 32 bits of the tick, the latched upper bits, the phase, SUPERSTEP_NUM, STEP_NUM or STEP_ATTEMPT, and selector 0 latches the upper
bits; CSRR writes the lower or upper half of a listed CSR (a counter: as it stands in the issue cycle, on a tile without compiled beats
still to be read); CSRW of TILE_SCRATCH0 to 3 writes the zero-extended scalar; CSRW of COUNTER_CONTROL sets FREEZE and, with CLEAR, every
tile counter to zero, after which only the bundle itself counts (no single step, no compiled beats still to be read). All this where the
predicate enables the instruction; every other scalar register reads as before, s0 reads 0. An unlisted CSR, or a CSRW of any other, traps
with CSR_ACCESS and TRAP_INFO the index (whatever the predicate: the model's choice, log entry 120). (R89, R95, R97) -/
def Obligations.TimeAndCsrReads : Prop :=
  ∀ (j : Issue) (b : BitVec 22) (s : State), (tileOf s.m j.tile.val).bundle = none → j.more = false →
    (slotReady .s j [] [fRd b] s.m = true → fRa b = 0 → fRb b = 0 → fFn b ≤ 5 →
      Gives (.time j b) s (fun m' =>
        (∀ r, getS (tdJ j m') r = if r = fRd b ∧ r ≠ 0 ∧ slotEnabled j s.m = true then
            timeRule s.m j.tile.val (soloCycle (sTime b) j s.m) (fFn b) else getS (tdJ j s.m) r) ∧
        (tdJ j m').latch = if fFn b = 0 ∧ slotEnabled j s.m = true then
            BitVec.ofNat 16 ((tileTick s.m j.tile.val (soloCycle (sTime b) j s.m)).1.toNat / 2 ^ 32) else (tdJ j s.m).latch)) ∧
    (slotReady .s j [] [fRd b] s.m = true → fRa b = 0 → csrListed (fImm b % 2048) = true →
      (0x010 ≤ fImm b % 2048 → fImm b % 2048 ≤ 0x017 → noBeatToRead j.tile.val s.m = true) →
      Gives (.csrr j b) s (fun m' => ∀ r, getS (tdJ j m') r = if r = fRd b ∧ r ≠ 0 ∧ slotEnabled j s.m = true then
          BitVec.ofNat 32 (((csrValue s.m j.tile.val
              { countInterlock (soloCycle (sCsrr b) j s.m - (tdJ j s.m).nextIssue) (tdJ j s.m) with shown := (.none, 0) }
              (fImm b % 2048)).getD 0).toNat / if bit (fImm b) 11 then 2 ^ 32 else 1)
        else getS (tdJ j s.m) r)) ∧
    (slotReady .s j [fRa b] [] s.m = true → fRd b = 0 → 0x01C ≤ fImm b % 2048 → fImm b % 2048 ≤ 0x01F →
      Gives (.csrw j b) s (fun m' => (∀ r, getS (tdJ j m') r = getS (tdJ j s.m) r) ∧ ∀ k, mget 0 (tdJ j m').scr k =
        if k = fImm b % 2048 - 0x01C ∧ slotEnabled j s.m = true then (getS (tdJ j s.m) (fRa b)).zeroExtend 64
        else mget 0 (tdJ j s.m).scr k)) ∧
    (slotReady .s j [fRa b] [] s.m = true → fRd b = 0 → fImm b % 2048 = 0x018 → slotEnabled j s.m = true →
      (tdJ j s.m).oneBundle = false → noBeatToRead j.tile.val s.m = true →
      Gives (.csrw j b) s (fun m' => (∀ r, getS (tdJ j m') r = getS (tdJ j s.m) r) ∧
        (tdJ j m').freeze = (getS (tdJ j s.m) (fRa b)).getLsbD 0 ∧
        if (getS (tdJ j s.m) (fRa b)).getLsbD 1 then ∀ k, mget 0 (tdJ j m').ctr k =
            if (getS (tdJ j s.m) (fRa b)).getLsbD 0 then 0 else if k = 0 then coreK s.m j.tile.val else if k = 1 then 1 else 0
        else ∀ k, 4 ≤ k → mget 0 (tdJ j m').ctr k = mget 0 (tdJ j s.m).ctr k)) ∧
    ((slotReady .s j [] [fRd b] s.m = true ∧ fRa b = 0 ∧ csrListed (fImm b % 2048) = false →
        Gives (.csrr j b) s (fun m' => csrTrapped j (fImm b % 2048) s.m m')) ∧
      (slotReady .s j [fRa b] [] s.m = true ∧ fRd b = 0 ∧ csrWritable (fImm b % 2048) = false →
        Gives (.csrw j b) s (fun m' => csrTrapped j (fImm b % 2048) s.m m')))

/-- Integer vector instructions compute lane by lane under their predicate. VADD, VSUB, VAND, VOR, VXOR, VSHL, VSHR, VSRA and VMUL with FN
zero, in a new bundle or behind earlier slots, answer a next state in which lane i of vd holds the result of lanes i of va and vb, as they
stood before the bundle, where the predicate enables lane i; every other lane of every vector register is as before. (R59, R65, R103, R104) -/
def Obligations.VectorIntegerResults : Prop :=
  ∀ (c : Instr) (j : Issue) (b : BitVec 22) (f : W32 → W32 → W32) (s : State), vectorIntRule c = some (j, b, f) →
    slotReady .v j [kV (fRa b), kV (fRb b)] [kV (fRd b)] s.m = true → fFn b = 0 →
    Gives c s (fun m' => ∀ r i, i < 32 → getL (tdJ j m') r i =
      if r = fRd b ∧ laneEnabled j s.m i = true then f (getL (baseJ j s.m) (fRa b) i) (getL (baseJ j s.m) (fRb b) i)
      else getL (tdJ j s.m) r i)

/-- FP32 vector instructions give the exact result rounded once, lane by lane. VFADD, VFSUB, VFMUL, VFMA, VFMIN and VFMAX with FN zero
answer a next state in which lane i of vd holds, where enabled, the sum, product, fused sum or selected operand of the operands' exact
values with the special cases of their tables; every other lane of every vector register is as before. (R107, R109, R110, R111, R112) -/
def Obligations.VectorFloatResults : Prop :=
  ∀ (c : Instr) (j : Issue) (b : BitVec 22) (f : W32 → W32 → W32 → W32) (acc : Bool) (s : State), vectorFpRule c = some (j, b, f, acc) →
    slotReady .v j ([kV (fRa b), kV (fRb b)] ++ if acc then [kV (fRd b)] else []) [kV (fRd b)] s.m = true → fFn b = 0 →
    Gives c s (fun m' => ∀ r i, i < 32 → getL (tdJ j m') r i =
      if r = fRd b ∧ laneEnabled j s.m i = true then
        f (getL (baseJ j s.m) (fRa b) i) (getL (baseJ j s.m) (fRb b) i) (getL (baseJ j s.m) (fRd b) i)
      else getL (tdJ j s.m) r i)

/-- VRCP, VRSQ, VEXP2 and VLOG2 write their function of each enabled lane. With RB and FN zero the four special-function instructions
answer a next state in which lane i of vd holds the function of lane i of va where enabled, every other lane as before. The special cases
hold: the reciprocal of a zero is an infinity of its sign, the reciprocal square root and the logarithm of a negative number are the
canonical NaN, 2 to the power of a zero is 1, the logarithm of 1 is +0. (R113, R114) -/
def Obligations.VectorFunctionResults : Prop :=
  (∀ (c : Instr) (j : Issue) (b : BitVec 22) (f : W32 → W32) (s : State), vectorFnRule c = some (j, b, f) →
    slotReady .v j [kV (fRa b)] [kV (fRd b)] s.m = true → fRb b = 0 → fFn b = 0 →
    Gives c s (fun m' => ∀ r i, i < 32 → getL (tdJ j m') r i =
      if r = fRd b ∧ laneEnabled j s.m i = true then f (getL (baseJ j s.m) (fRa b) i) else getL (tdJ j s.m) r i)) ∧
  fRcp 0 = 0x7F800000 ∧ fRcp 0x80000000 = 0xFF800000 ∧
  (∀ x : W32, 0x80000001 ≤ x.toNat → x.toNat ≤ 0xFF800000 → fRsq x = 0x7FC00000 ∧ fLog2 x = 0x7FC00000) ∧
  fExp2 0 = 0x3F800000 ∧ fExp2 0x80000000 = 0x3F800000 ∧ fLog2 0x3F800000 = 0

/-- VCMP, VSEL, VBCAST, VSHUF and VEXTR move and compare lanes. VCMP writes the condition of lanes i, an integer one or one on the values
with NaN unordered, to bit i of pd where enabled, keeping the other bits, p0 reading all ones; VSEL takes lane i of va where the selecting
predicate has bit i, else of vb; VBCAST copies a scalar to every enabled lane; VSHUF takes the lane of va that vb lane i names modulo 32;
VEXTR copies the named lane to a scalar if that lane is enabled. Every lane and register not written is as before. (R59, R67, R106) -/
def Obligations.VectorMoveResults : Prop :=
  ∀ (j : Issue) (b : BitVec 22) (s : State),
    (slotReady .v j [kV (fRa b), kV (fRb b)] [kP (fRd b)] s.m = true → (fFn b ≤ 5 ∨ 8 ≤ fFn b ∧ fFn b ≤ 0xC) → fRd b < 8 →
      Gives (.vcmp j b) s (fun m' => ∀ r i, i < 32 → (getP (tdJ j m') r).getLsbD i =
        if r = fRd b ∧ r ≠ 0 ∧ execMask (baseJ j s.m) j ≠ 0 then
          (if laneEnabled j s.m i then
              (if fFn b ≤ 5 then compareRule (fFn b) (getL (baseJ j s.m) (fRa b) i) (getL (baseJ j s.m) (fRb b) i)
                else compareFloatRule (fFn b) (getL (baseJ j s.m) (fRa b) i) (getL (baseJ j s.m) (fRb b) i))
            else (getP (baseJ j s.m) r).getLsbD i)
        else (getP (tdJ j s.m) r).getLsbD i)) ∧
    (slotReady .v j [kV (fRa b), kV (fRb b), kP (fFn b % 8)] [kV (fRd b)] s.m = true → fFn b < 8 →
      Gives (.vsel j b) s (fun m' => ∀ r i, i < 32 → getL (tdJ j m') r i =
        if r = fRd b ∧ laneEnabled j s.m i = true then
          (if (getP (baseJ j s.m) (fFn b)).getLsbD i then getL (baseJ j s.m) (fRa b) i else getL (baseJ j s.m) (fRb b) i)
        else getL (tdJ j s.m) r i)) ∧
    (slotReady .v j [kS (fRa b)] [kV (fRd b)] s.m = true → fRb b = 0 → fFn b = 0 →
      Gives (.vbcast j b) s (fun m' => ∀ r i, i < 32 → getL (tdJ j m') r i =
        if r = fRd b ∧ laneEnabled j s.m i = true then getS (baseJ j s.m) (fRa b) else getL (tdJ j s.m) r i)) ∧
    (slotReady .v j [kV (fRa b), kV (fRb b)] [kV (fRd b)] s.m = true → fFn b = 0 →
      Gives (.vshuf j b) s (fun m' => ∀ r i, i < 32 → getL (tdJ j m') r i =
        if r = fRd b ∧ laneEnabled j s.m i = true then
          getL (baseJ j s.m) (fRa b) ((getL (baseJ j s.m) (fRb b) i).toNat % 32)
        else getL (tdJ j s.m) r i)) ∧
    (slotReady .v j [kV (fRa b)] [kS (fRd b)] s.m = true → fFn b < 32 → fRb b = 0 → noLate j s.m = true →
      Gives (.vextr j b) s (fun m' => ∀ r, getS (tdJ j m') r =
        if r = fRd b ∧ r ≠ 0 ∧ laneEnabled j s.m (fFn b) = true then getL (baseJ j s.m) (fRa b) (fFn b) else getS (tdJ j s.m) r))

/-- VRED reduces the enabled lanes to one result, VCVT converts lane by lane. VRED with FN 0 to 3 writes one value to every enabled lane
of vd, other lanes as before: the exact sum of the enabled lanes of va rounded once with its special cases, their largest or smallest, or
their integer sum modulo 2^32. VCVT with a listed CODE and PART converts where enabled: a narrowing code puts the element nearest to the
lane, limited as its row says, at its place of part PART of vd; a widening code writes the exact value of the element at that place of va;
an encoding code writes the scale of R133 of the enabled lanes and the nearest elements of the values over it; a decoding code writes each
element times the scale rounded once. What it does not write of vd, and every other vector register, is as before. (R115, R116, R117, R132, R133, R134, R135, R136, R137, R138, R139, R140) -/
def Obligations.VectorReductionAndConversion : Prop :=
  ∀ (j : Issue) (b : BitVec 22) (s : State), fRb b = 0 →
    (slotReady .v j [kV (fRa b)] [kV (fRd b)] s.m = true → fFn b ≤ 3 →
      Gives (.vred j b) s (fun m' => ∃ v : W32,
        ((∃ i, i < 32 ∧ laneEnabled j s.m i = true) →
          reduceRule (fFn b) (((List.range 32).filter (laneEnabled j s.m)).map (getL (baseJ j s.m) (fRa b))) v) ∧
        ∀ r i, i < 32 → getL (tdJ j m') r i = if r = fRd b ∧ laneEnabled j s.m i = true then v else getL (tdJ j s.m) r i)) ∧
    (∀ (code part w fmt : Nat) (d o : TileData), code = fFn b % 32 → part = fFn b / 32 → cvtListed code part = true →
      slotReady .v j [kV (fRa b), kV (fRd b)] [kV (fRd b)] s.m = true →
      fmt = (if code ≤ 4 then (if code = 4 then 9 else code + 1) else if code ≤ 0xC then (if code = 0xC then 9 else code - 7)
        else if code ≤ 0x14 then code - 0xB else code - 0x13) → w = widthRule fmt →
      d = baseJ j s.m → o = (if execMask d j = 0 then tdJ j s.m else d) →
      Gives (.vcvt j b) s (fun m' =>
        (∀ r i, i < 32 → r ≠ fRd b → getL (tdJ j m') r i = getL (tdJ j s.m) r i) ∧
        (code ≤ 4 →
          (∀ i, i < 32 → laneEnabled j s.m i = true →
            narrowRule code (getL d (fRa b) i) (stringField (tdJ j m') (fRd b) w (w * (32 * part + i)))) ∧
          ∀ p, p < 1024 → (∀ i, i < 32 → laneEnabled j s.m i = true → ¬(w * (32 * part + i) ≤ p ∧ p < w * (32 * part + i) + w)) →
            stringBit (tdJ j m') (fRd b) p = stringBit o (fRd b) p) ∧
        (8 ≤ code → code ≤ 0xC → ∀ i, i < 32 →
          if laneEnabled j s.m i = true then widenRule code (stringField d (fRa b) w (w * (32 * part + i))) (getL (tdJ j m') (fRd b) i)
          else getL (tdJ j m') (fRd b) i = getL o (fRd b) i) ∧
        (0x10 ≤ code → code ≤ 0x14 →
          (∀ i, i < 32 → laneEnabled j s.m i = true →
            scaleRule fmt (((List.range 32).filter (laneEnabled j s.m)).map (getL d (fRa b))) (stringField (tdJ j m') (fRd b) 8 992) ∧
            encodeRule fmt (stringField (tdJ j m') (fRd b) 8 992) (getL d (fRa b) i) (stringField (tdJ j m') (fRd b) w (w * i))) ∧
          ∀ p, p < 1024 → (∀ i, i < 32 → laneEnabled j s.m i = true → ¬(w * i ≤ p ∧ p < w * i + w) ∧ ¬(992 ≤ p ∧ p < 1000)) →
            stringBit (tdJ j m') (fRd b) p = stringBit o (fRd b) p) ∧
        (0x18 ≤ code → ∀ i, i < 32 →
          if laneEnabled j s.m i = true then
            decodeRule fmt (stringField d (fRa b) 8 992) (stringField d (fRa b) w (w * i)) (getL (tdJ j m') (fRd b) i)
          else getL (tdJ j m') (fRd b) i = getL o (fRd b) i)))

/-- Rounding the exact value of an FP32 word gives the word back. For every FP32 word that is not a NaN, rounding its exact value once
gives the word back; so adding +0 to any FP32 word that is neither a NaN nor -0, and multiplying any FP32 word that is not a NaN by 1.0,
returns it bit for bit. (R99, R100, R107, R109) -/
def Obligations.ExactValuesRoundTrip : Prop :=
  ∀ x : W32, f32IsNan x = false → f32OfVal (f32Val x) = x ∧ fMul x 0x3F800000 = x ∧ (x ≠ 0x80000000 → fAdd x 0 = x)

/-- FP32 addition and multiplication do not depend on the order of their operands. VFADD and VFMUL compute the same bits for a and b as
for b and a, for every pair of FP32 words. (R107, R108, R109) -/
def Obligations.FloatAddCommutes : Prop :=
  ∀ x y : W32, fAdd x y = fAdd y x ∧ fMul x y = fMul y x

/-- NF_RESULTS counts the non-finite results of an FP32 instruction. An FP32 vector instruction adds the number of its enabled lanes whose
result is an infinity or a NaN to NF_RESULTS, modulo 2^64, unless NF_CONTROL freezes the counters, which then stand as before. (R118, R119) -/
def Obligations.NonFiniteCounting : Prop :=
  ∀ (c : Instr) (j : Issue) (b : BitVec 22) (f : W32 → W32 → W32 → W32) (acc : Bool) (s : State), vectorFpRule c = some (j, b, f, acc) →
    slotReady .v j ([kV (fRa b), kV (fRb b)] ++ if acc then [kV (fRd b)] else []) [kV (fRd b)] s.m = true → fFn b = 0 →
    (tdJ j s.m).nfResults < 2 ^ 64 →
    Gives c s (fun m' => (tdJ j m').nfResults =
      if (tdJ j s.m).nfFreeze then (tdJ j s.m).nfResults
      else ((tdJ j s.m).nfResults + ((List.range 32).filter (fun i => laneEnabled j s.m i &&
        decide (0x7F800000 ≤ (f (getL (baseJ j s.m) (fRa b) i) (getL (baseJ j s.m) (fRb b) i) (getL (baseJ j s.m) (fRd b) i)).toNat % 2 ^ 31))).length)
        % 2 ^ 64)

/-- VLD, VST, VLDC and VSTC move lines and columns of the scratchpad. At an aligned address whose line, or whose column of the block, lies
in the scratchpad: VLD and VLDC, whose enabled words pass their parity check, write those words to the enabled lanes of vd and change no
scratchpad word; VST and VSTC write the enabled lanes of vd to those words and change no other scratchpad word and no vector register. (R75, R105) -/
def Obligations.VectorLoadStore : Prop :=
  ∀ (j : Issue) (b : BitVec 22) (s : State) (col : Bool) (a : Nat → Nat),
    (∀ i, a i = if col then (getS (baseJ j s.m) (fRa b)).toNat + 4 * fImm b + 128 * i else effAddr (baseJ j s.m) b 128 + 4 * i) →
    (if col then (getS (baseJ j s.m) (fRa b)).toNat % 128 = 0 ∧ fImm b < 32 else effAddr (baseJ j s.m) b 128 % 128 = 0) →
    (∀ i, i < 32 → a i < 0x100000) →
    (slotReady .v j [kS (fRa b)] [kV (fRd b)] s.m = true →
      (∀ i, i < 32 → laneEnabled j s.m i = true → (baseJ j s.m).spBad.contains (a i / 4) = false) →
      Gives (if col then .vldc j b else .vld j b) s (fun m' =>
        (∀ r i, i < 32 → getL (tdJ j m') r i =
          if r = fRd b ∧ laneEnabled j s.m i = true then spWord (baseJ j s.m) (a i) else getL (tdJ j s.m) r i) ∧
        ∀ x, spWord (tdJ j m') x = spWord (tdJ j s.m) x)) ∧
    (slotReady .v j [kS (fRa b), kV (fRd b)] [] s.m = true →
      Gives (if col then .vstc j b else .vst j b) s (fun m' =>
        (∀ i, i < 32 → laneEnabled j s.m i = true → spWord (tdJ j m') (a i) = getL (baseJ j s.m) (fRd b) i) ∧
        (∀ x, (∀ i, i < 32 → laneEnabled j s.m i = true → x / 4 ≠ a i / 4) → spWord (tdJ j m') x = spWord (tdJ j s.m) x) ∧
        ∀ r i, i < 32 → getL (tdJ j m') r i = getL (tdJ j s.m) r i))

/-- Arithmetic of the S and V slots leaves memories and other tiles alone. An S-slot instruction of opcodes 0x01 to 0x1A or a V-slot
instruction of opcodes 0x01 to 0x1E, issued with a next state on a tile with no bundle in progress and no compiled beat still to be read,
changes no word of its scratchpad, instruction memory, collectors, weight buffers or weight-gradient buffer, no TILE_SCRATCH register, no
data of any other tile, no word of DRAM, no port, channel, barrier or page. (R73, R103, R107) -/
def Obligations.ArithmeticFrame : Prop :=
  ∀ (c : Instr) (q : Slot) (op : BitVec 6) (j : Issue) (b : BitVec 22) (s s' : State), slotFields c = some (q, op, j, b) →
    (q = .s ∧ 1 ≤ op.toNat ∧ op.toNat ≤ 0x1A ∨ q = .v ∧ 1 ≤ op.toNat ∧ op.toNat ≤ 0x1E) → wellFormed c = true →
    (tileOf s.m j.tile.val).bundle = none → noBeatToRead j.tile.val s.m = true → exec c s = .next s' →
    (∀ x, spWord (tdJ j s'.m) x = spWord (tdJ j s.m) x) ∧ (tdJ j s'.m).imem = (tdJ j s.m).imem ∧ (tdJ j s'.m).coll = (tdJ j s.m).coll ∧
    (tdJ j s'.m).wbuf = (tdJ j s.m).wbuf ∧ (tdJ j s'.m).wgb = (tdJ j s.m).wgb ∧ (tdJ j s'.m).scr = (tdJ j s.m).scr ∧
    (∀ u, u ≠ j.tile.val → tileOf s'.m u = tileOf s.m u) ∧ s'.m.dram = s.m.dram ∧ s'.m.ports = s.m.ports ∧ s'.m.pool = s.m.pool ∧
    s'.m.bars = s.m.bars ∧ s'.m.dir = s.m.dir

/-- The M-slot instructions that pass their checks join the M queue, the others raise MATRIX_FAULT. Enabled, with the reserved bits of its
body zero: an M-slot instruction whose operands raise no fault code of R178, with fewer than four queued, answers a next state in which
its operation, with the fields of its registers and BODY, is the last of the M queue, or joins it when the bundle ends; MLDW also notes
the format of its buffer. One alone in its bundle whose operands raise a code, the lowest where several apply (log entry 23), traps its
tile with MATRIX_FAULT and TRAP_INFO its opcode and that code, and enters no queue, however many are queued (log entry 126). An INT8 MRUN,
a staggered MDRAIN and every other form are in this. (R153, R155, R156, R158, R159, R160, R161, R162, R163, R164, R178) -/
def Obligations.MatrixIssue : Prop :=
  ∀ (j : Issue) (b : BitVec 22) (s : State) (ra : Nat) (rw : W32) (rb n : Nat), slotEnabled j s.m = true →
    ra = (getS (baseJ j s.m) (bits b.toNat 21 17)).toNat → rw = getS (baseJ j s.m) (bits b.toNat 16 12) → rb = rw.toNat →
    n = bits b.toNat 11 5 + 1 →
    (∀ (c : Instr) (op code : Nat) (q : MOp),
      (slotReady .m j [bits b.toNat 21 17, bits b.toNat 16 12] [] s.m = true ∧
        (c = .mldw j b ∧ bits b.toNat 8 0 = 0 ∧ op = 1 ∧ code = mldwCode ra rb ∧
            q = .ldw (bits b.toNat 11 10) (bits b.toNat 9 9) (bits ra 31 28) (bits ra 19 0) rb ∨
          c = .mrun j b ∧ bits b.toNat 2 0 = 0 ∧ op = 2 ∧ code = mrunCode (tdJ j s.m) ra rw n (bits b.toNat 3 3) (bit b.toNat 4) ∧
            q = .run (bits ra 31 28) (bits ra 26 20) (bits ra 19 0) rb n (bit b.toNat 4) (bits b.toNat 3 3) ∨
          c = .mdrain j b ∧ bits b.toNat 1 0 = 0 ∧ op = 4 ∧ code = mdrainCode ra rb n (bit b.toNat 2) ∧
            q = .drain (bits b.toNat 4 3) (bits ra 26 20) n (bits ra 19 0) rb (bits ra 31 28) (bit b.toNat 2)) ∨
        slotReady .m j [] [] s.m = true ∧ c = .mzero j b ∧ bits b.toNat 3 0 = 0 ∧ op = 3 ∧
          code = (if 128 < bits b.toNat 21 15 + bits b.toNat 14 8 + 1 then 3 else 0) ∧
          q = .zero (bits b.toNat 21 15) (bits b.toNat 14 8 + 1) (bits b.toNat 7 4) ∨
        slotReady .m j [bits b.toNat 21 17] [] s.m = true ∧ c = .mwgb j b ∧ bits b.toNat 9 0 = 0 ∧ op = 5 ∧
          code = mwgbCode (tdJ j s.m) ra (bits b.toNat 14 10 + 1) ∧
          q = .wgb (bits b.toNat 16 15) (bits ra 26 20) (bits b.toNat 14 10 + 1) (bits ra 5 0)) →
      (code = 0 → (tdJ j s.m).mq.length < 4 → Gives c s (fun m' => queuedM j q s.m m' ∧ (op = 1 →
        mget 0 (tdJ j m').wIssued (2 * bits b.toNat 11 10 + bits b.toNat 9 9) = bits ra 31 28 + 1))) ∧
      (code ≠ 0 → plainTile j s.m = true → j.more = false → Gives c s (matrixTrapped j op code s.m)))

/-- XRECV arms a receive, XSEND takes the XO port and sends its beats; each traps with its fault code. Enabled, in a new bundle of a tile
in a partition that issues in cycle c. XRECV without a fault code of R235 adds the receive with its tag, address and beat count, open from
cycle c + 1. XSEND without a fault code holds XO for as many cycles as it has beats; where its copies meet no beat in flight and the tile
has no beat of an earlier one still to read, beat k, read in cycle c + 2 + k from 64 k bytes above the address, goes with its tag to every
destination and arrives t(U, V) cycles after it enters in c + 5 + k; a first beat that goes to an engine sets out as its contribution.
Neither counts an exchange fault then. With a fault code (OUT_OF_PHASE, RANGE, BAD_ROUTE, XO_BUSY, ARM_ERROR, in the order of log entry
26) either traps the tile with EXCHANGE_FAULT, the code, the tag and the exchange cycle in TRAP_INFO, counts it, arms nothing and takes no
port. (R209, R214, R217, R218, R220, R221, R224, R235, R236, R237) -/
def Obligations.ExchangeIssue : Prop :=
  ∀ (j : Issue) (b : BitVec 22) (s : State) (p ra rb c n : Nat), (tileOf s.m j.tile.val).bundle = none → slotEnabled j s.m = true →
    partOfTile s.m j.tile.val = some p → ra = (getS (tdJ j s.m) (fRd b)).toNat → rb = (getS (tdJ j s.m) (fRa b)).toNat → n = fImm b + 1 →
    (∀ code, slotReady .x j [fRd b] [] s.m = true → fRa b = 0 → c = soloCycle (xIns 0x02 true [fRd b] []) j s.m →
      code = xrecvCode (partOf s.m p) (tdJ j s.m) ra n c →
      (code = 0 →
        Gives (.xrecv j b) s (fun m' => (tdJ j m').xchFaults = (tdJ j s.m).xchFaults ∧ (tdJ j m').armed = (tdJ j s.m).armed ++
          [{ tag := bits ra 31 28, addr := bits ra 19 0, beats := n, landed := 0, since := c + 1 }])) ∧
      (code ≠ 0 → plainTile j s.m = true → Gives (.xrecv j b) s (exchTrapped j p (bits ra 31 28) code c s.m))) ∧
    (∀ code, slotReady .x j [fRd b, fRa b] [] s.m = true → c = soloCycle (xIns 0x01 true [fRd b, fRa b] []) j s.m →
      code = xsendCode s.m p (tdJ j s.m) ra rb n c →
      (∀ dsts : List BeatDst, code = 0 → xDests s.m p rb = .inl dsts →
        (∀ k d, k < n → d ∈ dsts → freeWay p (xsendPath p j.tile.val c k d s.m) s.m) →
        Gives (.xsend j b) s (fun m' => (tdJ j m').xoFree = c + n ∧ (tdJ j m').xchFaults = (tdJ j s.m).xchFaults ∧
          (noBeatToRead j.tile.val s.m = true → ∀ k d, k < n → d ∈ dsts → beatSent p j.tile.val c ra rb k d s.m m'))) ∧
      (code ≠ 0 → plainTile j s.m = true → Gives (.xsend j b) s (exchTrapped j p (bits ra 31 28) code c s.m)))

/-- QISSUE, WAITQ and QPOLL issue, retire and count descriptors. QISSUE of an aligned descriptor of words that pass their parity check
returns 3 for a queue that Reel owns, 2 for a descriptor that fails the checks, 1 for a full queue of 64, and else 0 with the descriptor
as the last of the queue and ISSUED counted; QPOLL returns the number of completed descriptors; WAITQ retires COUNT completed descriptors,
or begins a wait while fewer have completed. (R68, R279, R281) -/
def Obligations.StreamIssue : Prop :=
  ∀ (j : Issue) (b : BitVec 22) (s : State) (a q : Nat), slotEnabled j s.m = true →
    (slotReady .x j [fRa b] [fRd b] s.m = true → noLate j s.m = true → bits b.toNat 7 0 = 0 → q = bits b.toNat 11 8 → q ≤ 11 →
      a = (getS (baseJ j s.m) (fRa b)).toNat → a % 32 = 0 → a < 0x100000 →
      (∀ i, i < 8 → (baseJ j s.m).spBad.contains ((a + 4 * i) / 4) = false) →
      Gives (.qissue j b) s (fun m' =>
        let x := queueOf (tdJ j s.m) q
        let st := if x.reel then 3 else if descOk q (spWords (baseJ j s.m) a 8) = false then 2 else if 64 ≤ x.descs.length then 1 else 0
        (fRd b ≠ 0 → getS (tdJ j m') (fRd b) = BitVec.ofNat 32 st) ∧
        (queueOf (tdJ j m') q).issued = (if st = 0 then satAdd 32 x.issued 1 else x.issued) ∧
        (queueOf (tdJ j m') q).descs.map (·.words) = x.descs.map (·.words) ++ (if st = 0 then [spWords (baseJ j s.m) a 8] else []))) ∧
    (slotReady .x j [] [fRd b] s.m = true → noLate j s.m = true → bits b.toNat 7 0 = 0 → bits b.toNat 16 12 = 0 → q = bits b.toNat 11 8 →
      q ≤ 11 → fRd b ≠ 0 →
      Gives (.qpoll j b) s (fun m' => getS (tdJ j m') (fRd b) = BitVec.ofNat 32 (((queueOf (tdJ j s.m) q).descs.filter (·.done)).length))) ∧
    (slotReady .x j [] [] s.m = true → plainTile j s.m = true → bits b.toNat 11 0 = 0 → q = bits b.toNat 21 18 → q ≤ 11 →
      1 ≤ bits b.toNat 17 12 →
      Gives (.waitq j b) s (fun m' =>
        if bits b.toNat 17 12 ≤ completedOf (queueOf (tdJ j s.m) q) then
          (tdJ j m').st = .running ∧ ∃ l, (queueOf (tdJ j m') q).descs = (queueOf (tdJ j s.m) q).descs.drop (bits b.toNat 17 12) ++ l
        else (tdJ j m').st = .waiting ∧ (tdJ j m').wait.kind = .waitq q (bits b.toNat 17 12)))

/-- COPEN asks every target and takes a handle and a pool entry or says why not, CCLOSE closes. COPEN, enabled, with operands that hold:
with 64 handles or 32,768 pool entries in use it returns FULL. A group without a valid target, a target that cannot be reached through its
port, or targets that are all free entries here give CLOSED (that one such target of a group decides for all is the model's choice, log
entry 144). Else it takes a handle and a pool entry that were free, with the quota asked, in state opening, and sends an open request to
every target but those free entries: in flight within the module, at its port to another, waiting for the link or gone; it waits for as
many replies. CCLOSE of a handle that names no entry returns CLOSED, one of an open send connection frees the handle, closes the
connection and sends every target a close, one of an open receive endpoint closes it, keeps its messages and handle, and sends a close
notice to every connection of this module: each returns OK. CCLOSE of an entry that opens, or of a receive endpoint closed before, returns
CLOSED. (R241, R245, R246, R247, R248, R260) -/
def Obligations.ChannelOpenClose : Prop :=
  ∀ (j : Issue) (b : BitVec 22) (s : State) (p ra rb : Nat) (l : List (Nat × Nat × Nat)), slotEnabled j s.m = true → noLate j s.m = true → fRd b ≠ 0 →
    ra = (getS (baseJ j s.m) (fRa b)).toNat → rb = (getS (baseJ j s.m) (fRb b)).toNat → mwf 0 (tdJ j s.m).handles = true → mwf {} s.m.pool = true →
    (slotReady .x j [fRa b, fRb b] [fRd b] s.m = true → fFn b = 0 → copenOk ra rb = true → partOfTile s.m j.tile.val = some p →
      l = (if bit ra 31 then groupTargets s.m (bits ra 25 16) else [(bits ra 13 0, bits ra 30 16, bits rb 5 0)]) →
      let asked := ((List.range l.length).filter (fun i => !freeHere s.m (nth (0, 0, 63) l i))).length
      (64 ≤ (tdJ j s.m).handles.length ∨ 32768 ≤ (usedEps s.m).length →
        Gives (.copen j b) s (fun m' => codeOf (getS (tdJ j m') (fRd b)) = 1 ∧ (tdJ j m').handles = (tdJ j s.m).handles ∧ usedEps m' = usedEps s.m)) ∧
      ((tdJ j s.m).handles.length < 64 → (usedEps s.m).length < 32768 →
        (asked = 0 ∨ (∃ g ∈ l, reachable s.m p g = false) →
          Gives (.copen j b) s (fun m' => codeOf (getS (tdJ j m') (fRd b)) = 2 ∧ (tdJ j m').handles = (tdJ j s.m).handles ∧ usedEps m' = usedEps s.m)) ∧
        (asked ≠ 0 → (∀ g ∈ l, reachable s.m p g = true) →
          Gives (.copen j b) s (fun m' => ∃ k h, (epOf s.m k).state = .free ∧ mget 0 (tdJ j s.m).handles h = 0 ∧
            mget 0 (tdJ j m').handles h = k + 1 ∧ (epOf m' k).state = .opening ∧ (epOf m' k).quota = bits rb 31 16 ∧
            (∃ x ∈ (tdJ j m').copens, x.conn = k ∧ x.handle = h ∧ x.rd = fRd b ∧ x.awaiting = asked ∧ (x.closed = true ↔ asked < l.length)) ∧
            ∀ i g, i < l.length → g = nth (0, 0, 63) l i → freeHere s.m g = false →
              ∃ pkt : ChanPkt, pkt.kind = .openReq ∧ pkt.conn = k + 32768 * ((epOf s.m k).openings + 1) ∧ pkt.tgt = i ∧ pkt.ep = g.2.1 ∧
                pkt.amount = bits rb 31 16 ∧ pkt.srcTile = j.tile.val ∧
                if isHere s.m g.1 then ∃ x ∈ m'.flight, x.pkt = pkt else chanAtPort g.2.2 pkt m')))) ∧
    (slotReady .x j [fRa b] [fRd b] s.m = true → bits b.toNat 11 0 = 0 → ra < 64 →
      (handleEp s.m j.tile.val ra = none →
        Gives (.cclose j b) s (fun m' => codeOf (getS (tdJ j m') (fRd b)) = 2 ∧ (tdJ j m').handles = (tdJ j s.m).handles)) ∧
      (∀ k, handleEp s.m j.tile.val ra = some k → isSend (epOf s.m k) = true → (epOf s.m k).state = .opened →
        Gives (.cclose j b) s (fun m' => codeOf (getS (tdJ j m') (fRd b)) = 0 ∧ mget 0 (tdJ j m').handles ra = 0 ∧ (epOf m' k).state = .closed ∧
          ∀ i g, i < (connTargets s.m (epOf s.m k)).length → g = nth (0, 0, 63) (connTargets s.m (epOf s.m k)) i →
            isHere s.m g.1 = true ∨ (portOf s.m g.2.2).state = .up →
            ∃ pkt : ChanPkt, pkt.kind = .close ∧ pkt.conn = k + 32768 * (epOf s.m k).openings ∧ pkt.tgt = i ∧ pkt.ep = g.2.1 ∧
              if isHere s.m g.1 then ∃ x ∈ m'.flight, x.pkt = pkt else chanAtPort g.2.2 pkt m')) ∧
      (∀ k, handleEp s.m j.tile.val ra = some k → (epOf s.m k).kind = .opq ∨ (epOf s.m k).kind = .ring → (epOf s.m k).state = .opened →
        Gives (.cclose j b) s (fun m' => codeOf (getS (tdJ j m') (fRd b)) = 0 ∧ (tdJ j m').handles = (tdJ j s.m).handles ∧
          (epOf m' k).state = .closed ∧ (epOf m' k).opq = (epOf s.m k).opq ∧
          ∀ x ∈ (epOf s.m k).conns, isHere s.m x.1 = true →
            ∃ y ∈ m'.flight, y.pkt.kind = .closeNotice ∧ y.pkt.conn = x.2.1 ∧ y.pkt.ep = k ∧ y.pkt.tgt = x.2.2.1)) ∧
      (∀ k, handleEp s.m j.tile.val ra = some k → (epOf s.m k).state = .opening ∨
          (((epOf s.m k).kind = .opq ∨ (epOf s.m k).kind = .ring) ∧ (epOf s.m k).state = .closed) →
        Gives (.cclose j b) s (fun m' => codeOf (getS (tdJ j m') (fRd b)) = 2 ∧ (epOf m' k).state = (epOf s.m k).state)))

/-- CSEND and CSENDNB spend credit, CRECV and CRECVNB take the oldest message. On an open connection to operand queues, at least as much
credit at every target as the message costs makes CSEND and CSENDNB return OK, take one credit at every target and count the message;
without it CSENDNB returns FULL and takes none, and CSEND begins a wait. To rings, a message of n bytes at a costs ceil((8 + n) / 128)
units: on the same credit rule it is sent to every target with the n bytes of the scratchpad, and the tile is shown waiting until the
cycle behind the last of its lines is read; a misaligned source traps with MISALIGNED, one that reaches beyond 1 MiB with SCRATCH_RANGE,
and nothing is sent. On an operand queue with a message, CRECV and CRECVNB return the chosen word of the oldest, with the predicate all
ones, and remove it if POP says so; on an empty open queue CRECVNB returns TIMEOUT with the predicate zero, and CRECV begins a wait. (R75, R250, R252, R255) -/
def Obligations.ChannelSendReceive : Prop :=
  ∀ (j : Issue) (b : BitVec 22) (s : State) (k ra n a cost : Nat) (block : Bool), slotEnabled j s.m = true → plainTile j s.m = true → fRd b ≠ 0 →
    ra = (getS (tdJ j s.m) (fRa b)).toNat → handleEp s.m j.tile.val (bits ra 5 0) = some k → (epOf s.m k).state = .opened →
    (slotReady .x j [fRa b, fRb b, bits b.toNat 6 2] [fRd b] s.m = true → bits b.toNat 1 0 = 0 → ra < 64 →
      isSend (epOf s.m k) = true → (epOf s.m k).ring = false →
      Gives (if block then .csend j b else .csendnb j b) s (fun m' =>
        if (epOf s.m k).credits.all (fun c => decide (1 ≤ c)) = true then
          codeOf (getS (tdJ j m') (fRd b)) = 0 ∧ (epOf m' k).credits = (epOf s.m k).credits.map (· - 1) ∧
          (epOf m' k).messages = satAdd 32 (epOf s.m k).messages 1
        else if block then
          (tdJ j m').st = .waiting ∧ (epOf m' k).credits = (epOf s.m k).credits
        else codeOf (getS (tdJ j m') (fRd b)) = 1 ∧ (epOf m' k).credits = (epOf s.m k).credits)) ∧
    (slotReady .x j [fRa b, fRb b, bits b.toNat 6 2] [fRd b] s.m = true → bits b.toNat 1 0 = 0 → bits b.toNat 6 2 = 0 →
      bits ra 31 29 = 0 → bits ra 15 6 = 0 → n = bits ra 28 16 → 1 ≤ n → n ≤ 4096 → cost = (8 + n + 127) / 128 → cost ≤ (epOf s.m k).quota →
      a = (getS (tdJ j s.m) (fRb b)).toNat → isSend (epOf s.m k) = true → (epOf s.m k).ring = true → (tdJ j s.m).spBad = [] →
      Gives (if block then .csend j b else .csendnb j b) s (fun m' =>
        let kept := (epOf m' k).credits = (epOf s.m k).credits ∧ (epOf m' k).messages = (epOf s.m k).messages
        if a % 4 ≠ 0 then trappedBy j 0x09 a 8 (tdJ j s.m).pc m' ∧ kept
        else if 0x100000 < a + (n + 3) / 4 * 4 then trappedBy j 0x08 (Nat.max a 0x100000) 8 (tdJ j s.m).pc m' ∧ kept
        else if (epOf s.m k).credits.all (fun c => decide (cost ≤ c)) = true then
          codeOf (getS (tdJ j m') (fRd b)) = 0 ∧ (epOf m' k).credits = (epOf s.m k).credits.map (· - cost) ∧
          (epOf m' k).messages = satAdd 32 (epOf s.m k).messages 1 ∧ (tdJ j m').st = .running ∧
          (tdJ j m').shown.2 = soloCycle (csendIns (if block then 0x12 else 0x13) b) j s.m +
            ((a + (n + 3) / 4 * 4 + 127) / 128 - a / 128) * coreK s.m j.tile.val ∧
          ∀ i g, i < (connTargets s.m (epOf s.m k)).length → g = nth (0, 0, 63) (connTargets s.m (epOf s.m k)) i →
            isHere s.m g.1 = true ∨ (portOf s.m g.2.2).state = .up →
            ∃ pkt : ChanPkt, pkt.kind = .ring ∧ pkt.conn = k + 32768 * (epOf s.m k).openings ∧ pkt.tgt = i ∧ pkt.ep = g.2.1 ∧ pkt.amount = n ∧
              pkt.code = (epOf s.m k).sent % 65536 ∧ (if isHere s.m g.1 then ∃ x ∈ m'.flight, x.pkt = pkt else chanAtPort g.2.2 pkt m') ∧
              ∀ y, y < n → bits (nth 0 pkt.words (y / 4)).toNat (8 * (y % 4) + 7) (8 * (y % 4)) =
                bits (spWord (tdJ j s.m) (a + 4 * (y / 4))).toNat (8 * (y % 4) + 7) (8 * (y % 4))
        else if block then (tdJ j m').st = .waiting ∧ kept
        else codeOf (getS (tdJ j m') (fRd b)) = 1 ∧ kept)) ∧
    (slotReady .x j [fRa b] [fRd b, kP (fPd b)] s.m = true → fFn b = 0 → ra < 64 → (epOf s.m k).kind = .opq → fPd b ≠ 0 →
      Gives (if block then .crecv j b else .crecvnb j b) s (fun m' =>
        match (epOf s.m k).opq with
        | x :: r =>
          getS (tdJ j m') (fRd b) = (if bit b.toNat 8 then x.2.1 else x.1) ∧ getP (tdJ j m') (fPd b) = BitVec.allOnes 32 ∧
          (epOf m' k).opq = if bit b.toNat 7 then r else x :: r
        | [] =>
          if block then (tdJ j m').st = .waiting
          else codeOf (getS (tdJ j m') (fRd b)) = 3 ∧ getP (tdJ j m') (fPd b) = 0))

/-- SYNC, BARRIVE, BWAIT and SWAIT arrive, wait or go on. Enabled, in a new bundle of a tile with no compiled beat to read and no single
step: SYNC leaves the tile waiting, its arrival noted; the last arrival of a running job in a compute phase closes the local sync, at the
latest arrival or the boundary, and selects the superstep's record, and the tile waits for a tick if one follows, else in SYNC still (log
entry 121). BARRIVE adds its arrival to the barrier, to be counted 24 cycles after its issue, and the tile goes on. BWAIT returns CLOSED
to a tile that is no member, BROKEN from a barrier that is broken or retired, CLOSED where the generation lies more than 16,384 from the
one it names, OK where it is after it, and goes on, shown waiting until a release on its way has reached it; else the tile waits and is a
waiter of the barrier. SWAIT subtracts COUNT from a signal that has reached it and goes on, else it waits and subtracts nothing. (R86, R211, R262, R263, R264, R265) -/
def Obligations.SyncAndBarrierIssue : Prop :=
  ∀ (j : Issue) (b : BitVec 22) (s : State) (p n g ahead c : Nat) (x : Part), slotEnabled j s.m = true → plainTile j s.m = true →
    partOfTile s.m j.tile.val = some p → x = partOf s.m p →
    (slotReady .x j [] [] s.m = true → b = 0 → c = soloCycle (xIns 0x18 true [] []) j s.m →
      Gives (.sync j b) s (fun m' => (tdJ j m').st = .waiting ∧
        if x.jstate = .running ∧ x.xphase = .compute ∧ x.closedAt = none ∧
            (∀ u ∈ syncTiles s.m p, u = j.tile.val ∨ u ∈ x.arrived) then
          (partOf m' p).closedAt = some (Nat.max (Nat.max x.lastArrive c) x.boundary) ∧ (partOf m' p).arrived = [] ∧
          (partOf m' p).record = stepIndex x ∧
          (tdJ j m').wait.kind = if (curRecord x).getLsbD 32 = true ∧ (recTicked (curRecord x) = true ∨ moreHere x = true) then .tick else .sync
        else
          (partOf m' p).closedAt = x.closedAt ∧ j.tile.val ∈ (partOf m' p).arrived ∧
          (∀ u, u ≠ j.tile.val → (u ∈ (partOf m' p).arrived ↔ u ∈ x.arrived)) ∧ (tdJ j m').wait.kind = .sync)) ∧
    (slotReady .x j [fRa b] [fRd b] s.m = true → bits b.toNat 11 0 = 0 → n = (getS (tdJ j s.m) (fRa b)).toNat → n < 4096 →
      c = soloCycle (xIns 0x19 true [fRa b] [fRd b]) j s.m →
      Gives (.barrive j b) s (fun m' => (tdJ j m').st = .running ∧ (tdJ j m').pc = (fallThrough (tdJ j s.m).pc (tdJ j s.m).loops).1 ∧
        (barOf m' n).pending = (barOf s.m n).pending ++ [(j.tile.val, fRd b, c + 24)] ∧ ∀ k, k ≠ n → barOf m' k = barOf s.m k)) ∧
    (slotReady .x j [fRa b, fRb b] [fRd b] s.m = true → fFn b = 0 → n = (getS (tdJ j s.m) (fRa b)).toNat → n < 4096 →
      g = (getS (tdJ j s.m) (fRb b)).toNat → g < 65536 → ahead = ((barOf s.m n).gen + 65536 - g) % 65536 →
      Gives (.bwait j b) s (fun m' =>
        let code (v : Nat) : Prop := (tdJ j m').st = .running ∧ barOf m' n = barOf s.m n ∧ (fRd b ≠ 0 → codeOf (getS (tdJ j m') (fRd b)) = v)
        if isMember s.m n j.tile.val = false then code 2
        else if (barOf s.m n).state = .broken ∨ (barOf s.m n).state = .retired then code 4
        else if 0x4000 < ahead ∧ ahead < 0xC000 then code 2
        else if 1 ≤ ahead ∧ ahead ≤ 0x4000 then
          code 0 ∧ ∀ r, nth? (barOf s.m n).releasedAt (ahead - 1) = some r →
            soloCycle (xIns 0x1A true [fRa b, fRb b] [fRd b]) j s.m < r + 24 → (tdJ j m').shown = (.bwait n g (fRd b), r + 24)
        else (tdJ j m').st = .waiting ∧ (tdJ j m').wait.kind = .bwait n g (fRd b) ∧ j.tile.val ∈ (barOf m' n).waiters)) ∧
    (slotReady .x j [] [] s.m = true → bits b.toNat 9 0 = 0 → 1 ≤ bits b.toNat 15 10 →
      Gives (.swait j b) s (fun m' => (∀ k, k ≠ bits b.toNat 21 16 → mget 0 (tdJ j m').sigs k = mget 0 (tdJ j s.m).sigs k) ∧
        if bits b.toNat 15 10 ≤ mget 0 (tdJ j s.m).sigs (bits b.toNat 21 16) then
          (tdJ j m').st = .running ∧
          mget 0 (tdJ j m').sigs (bits b.toNat 21 16) = mget 0 (tdJ j s.m).sigs (bits b.toNat 21 16) - bits b.toNat 15 10
        else (tdJ j m').st = .waiting ∧ (tdJ j m').wait.kind = .swait (bits b.toNat 21 16) (bits b.toNat 15 10) ∧
          mget 0 (tdJ j m').sigs (bits b.toNat 21 16) = mget 0 (tdJ j s.m).sigs (bits b.toNat 21 16)))

/-- DMA queues a descriptor and sends its packets, or says why not. DMA, enabled, of a 32-byte-aligned descriptor in the scratchpad whose
words pass their parity check, returns 2 for a descriptor whose fields do not hold (before a full engine: log entry 127; the whole
descriptor counts as sent at once: log entry 43), 1 with eight descriptors queued, and else 0: the descriptor, with its operation, mode,
signal, addresses, length, module and port, is then the last of the engine, and where its port is UP and assigned to the tile's partition
the header of its first packet is at the port, waiting or sent. Otherwise the engine is unchanged; every other scalar register reads as
before. A misaligned address (first, where both hold: log entry 148), or one outside the scratchpad, traps with MISALIGNED or
SCRATCH_RANGE and issues nothing. (R205, R206, R381) -/
def Obligations.DmaIssue : Prop :=
  ∀ (j : Issue) (b : BitVec 22) (s : State) (a : Nat) (ws : List W32), slotEnabled j s.m = true → noLate j s.m = true →
    slotReady .x j [bits b.toNat 21 17] [bits b.toNat 16 12] s.m = true → bits b.toNat 11 0 = 0 →
    a = (getS (baseJ j s.m) (bits b.toNat 21 17)).toNat → ws = spWords (baseJ j s.m) a 8 →
    (a % 32 = 0 → a < 0x100000 → (∀ i, i < 8 → (baseJ j s.m).spBad.contains ((a + 4 * i) / 4) = false) →
      Gives (.dma j b) s (fun m' =>
        let st := if dmaDescOk ws = false then 2 else if 8 ≤ (tdJ j s.m).dmaq.length then 1 else 0
        (∀ r, getS (tdJ j m') r = if r = bits b.toNat 16 12 ∧ r ≠ 0 then BitVec.ofNat 32 st else getS (tdJ j s.m) r) ∧
        if st = 0 then
          (tdJ j m').dmaq = (tdJ j s.m).dmaq ++ [{ put := bits (dw ws 0) 31 28 == 1, trailing := bits (dw ws 0) 27 26 == 1
                                                   signal := bits (dw ws 0) 25 20, loc := bits (dw ws 0) 19 0, length := dw ws 1
                                                   remote := dw ws 2 + 2 ^ 32 * bits (dw ws 3) 15 0, dest := bits (dw ws 3) 31 16
                                                   port := bits (dw ws 4) 5 0, sent := dw ws 1, answered := 0, denied := false }] ∧
          ∀ p, partOfTile s.m j.tile.val = some p → portTo p (bits (dw ws 4) 5 0) s.m →
            beatAtPort (bits (dw ws 4) 5 0) clsDma true (padBeat (dmaHeader (if bits (dw ws 0) 31 28 = 1 then 0x1 else 0x2)
              { destModule := BitVec.ofNat 16 (bits (dw ws 3) 31 16), srcModule := BitVec.ofNat 16 s.m.moduleNum
                srcTile := BitVec.ofNat 16 j.tile.val, jobTag := (partOf s.m p).tag
                addr := BitVec.ofNat 48 (dw ws 2 + 2 ^ 32 * bits (dw ws 3) 15 0), length := BitVec.ofNat 32 (Nat.min 4096 (dw ws 1))
                signal := BitVec.ofNat 8 (bits (dw ws 0) 25 20), mode := BitVec.ofNat 8 (bits (dw ws 0) 27 26), hops := 0
                payload := [], crcOk := true, last := true })) m'
        else (tdJ j m').dmaq = (tdJ j s.m).dmaq)) ∧
    (plainTile j s.m = true → a % 32 ≠ 0 ∨ 0x100000 ≤ a →
      Gives (.dma j b) s (fun m' => (tdJ j m').st = .trapped ∧
        (tdJ j m').trap.cause = (if a % 32 ≠ 0 then 0x09 else 0x08) ∧ (tdJ j m').trap.info = a ∧
        (tdJ j m').dmaq = (tdJ j s.m).dmaq ∧ ∀ r, getS (tdJ j m') r = getS (tdJ j s.m) r))

/-- The instruction at the head of the M queue starts once its conditions hold. MLDW_START takes the elements of the image and its scales
and has the buffer ready 8 + C core cycles after its start; MRUN_START takes the elements of the n vectors of the staggered stream, their
scales and the weights of the four arrays; MZERO_START sets the rows of the selected collectors to +0 and no other element; MDRAIN_START
has one write for each row, or each beat of the staggered layout, and one for the scales of an MX format, rows in FP32 as they stand;
MWGB_START adds the rows into the block, on a tile with no compiled beat still to be read, in FP32 mode with one rounding, in EXACT mode
as integers. The instruction leaves the queue, and starts no earlier than it issued. That the operands are taken at the start is the
model's choice (log entry 24). (R156, R157, R158, R159, R161, R162, R164, R170, R172, R308, R309) -/
def Obligations.MatrixStarts : Prop :=
  ∀ (t : TileId) (s : State) (issued : Nat) (rest : List MEntry) (d : TileData), d = tdT t s.m →
    (∀ arr buf fmt img sc, headM t s.m (.ldw arr buf fmt img sc) issued rest → quietM d → bytesLanded d img (32 * slotSize fmt) = true →
      bytesLanded d sc (imgScales fmt) = true →
      Gives (.mldwStart t) s (fun m' => (tdT t m').mq = rest ∧ ∃ c w, issued ≤ c ∧ (tdT t m').mloads = d.mloads ++
        [{ slot := 2 * arr + buf, content := w, start := c
           ready := c + (8 + if fmt = 1 ∨ fmt = 2 then 64 else if fmt = 8 then 34 else if 5 ≤ fmt ∧ fmt ≤ 9 then 33 else 32) * coreK s.m t.val }] ∧
        w.fmt = some fmt ∧
        (∀ k j, k < (if fmt = 8 then 64 else 32) → j < 32 → mget 0 w.elems (32 * k + j) = imageRule d fmt img k j) ∧
        (5 ≤ fmt → fmt ≤ 9 → ∀ k, k < (if fmt = 8 then 64 else 32) → mget 0 w.scales k = spField d (sc + k) 0 8))) ∧
    (∀ fmt base addr rb n tr buf, headM t s.m (.run fmt base addr rb n tr buf) issued rest → quietM d → d.mloads.all (fun x => x.slot % 2 != buf) = true →
      bytesLanded d addr (32 * beatsOf fmt n) = true → bytesLanded d rb (scaleBytes fmt n tr) = true →
      Gives (.mrunStart t) s (fun m' => (tdT t m').mq = rest ∧ ∃ r : MRunning, (tdT t m').mruns = d.mruns ++ [r] ∧ issued ≤ r.start ∧
        r.fmt = fmt ∧ r.base = base ∧ r.n = n ∧ r.tr = tr ∧ r.rb = rb ∧ r.done = 0 ∧
        (∀ v i, v < n → i < (if fmt = 8 ∧ tr = false then 64 else 32) → nth 0 (nth [] r.vecs v) i = streamRule d fmt tr addr v i) ∧
        (5 ≤ fmt → fmt ≤ 9 → ∀ v h, v < n → h < (if fmt = 8 ∧ tr = false then 2 else 1) →
          nth 0 (nth [] r.scales v) h = spField d (rb + (if fmt = 8 ∧ tr = false then 2 * v + h else v)) 0 8) ∧
        ∀ a, a < 4 → nth {} r.weights a = mget {} d.wbuf (2 * a + buf))) ∧
    (∀ row n mask, headM t s.m (.zero row n mask) issued rest → 1 ≤ n → row + n ≤ 128 → rowsCommitted d row (row + n - 1) = true →
      Gives (.mzeroStart t) s (fun m' => (tdT t m').mq = rest ∧ ∀ a r k, a < 4 → r < 128 → k < 32 →
        collGet (tdT t m') a r k = if bit mask a = true ∧ row ≤ r ∧ r < row + n then 0 else collGet d a r k)) ∧
    (∀ arr row n dst sc fmt stag, headM t s.m (.drain arr row n dst sc fmt stag) issued rest → 1 ≤ n →
      rowsCommitted d row (row + n - 1) = true →
      Gives (.mdrainStart t) s (fun m' => (tdT t m').mq = rest ∧
        (tdT t m').drain.map (·.word) = d.drain.map (·.word) ++
          (if stag then (List.range (beatsOf fmt n)).map (fun b => dst / 4 + 8 * b)
            else (List.range n).map (fun r => (dst + r * drainWidth fmt) / 4)) ++ (if isMx fmt then [sc / 4] else []) ∧
        (fmt = 0 → stag = false → (tdT t m').drain.map (·.data) = d.drain.map (·.data) ++ (List.range n).map (fun r => collRow d arr (row + r))))) ∧
    (∀ arr row n blk, headM t s.m (.wgb arr row n blk) issued rest → d.faultsDue = [] → noBeatToRead t.val s.m = true → 1 ≤ n → n ≤ 32 → rowsCommitted d row (row + n - 1) = true →
      Gives (.mwgbStart t) s (fun m' => (tdT t m').mq = rest ∧ (tdT t m').wgbFilled.contains blk = true ∧
        (d.wgbExact = false → ∀ b i k, i < 32 → k < 32 → wgbWord (tdT t m') (1024 * b + 32 * i + k) =
          if b = blk ∧ i < n then fAdd (wgbWord d (1024 * b + 32 * i + k)) (collGet d arr (row + i) k)
          else wgbWord d (1024 * b + 32 * i + k)) ∧
        (d.wgbExact = true → ∀ i k sg mt e q, i < n → k < 32 → f32Val (collGet d arr (row + i) k) = .fin sg mt e →
          q = quantise d.wgbLsb (if sg then -(mt : Int) else mt) e → q.natAbs < 2 ^ 63 →
          -(2 ^ 63 : Int) ≤ wgbExactElem d blk i k + q → wgbExactElem d blk i k + q < 2 ^ 63 →
          wgbExactElem (tdT t m') blk i k = wgbExactElem d blk i k + q)))

/-- Rows commit, weight buffers become ready, drains land. ROW_COMMIT of the next vector of the oldest MRUN gives every output of the four
arrays the exact sum of its scaled products and of the element that stood there, rounded once, an INT8 one with a product scale that R158
allows, and changes no other collector element; WEIGHT_BUFFER_READY gives the buffer the contents that its load has read and changes no
other buffer; DRAIN_LAND writes the words of the next beat or row to the scratchpad, save one that a write of a later cycle, or of a port
of higher rank in the same cycle, has written, and no other word, on a tile with no compiled beat still to be read. (R153, R154, R158, R166, R167, R168, R172, R174, R185) -/
def Obligations.MatrixLandings : Prop :=
  ∀ (t : TileId) (s : State) (d : TileData), d = tdT t s.m → clockRuns s.m t.val = true →
    (∀ (r : MRunning) (rs : List MRunning) (v rows : Nat), d.mruns = r :: rs → r.done = v → rows = (if r.fmt = 8 ∧ r.tr = true then 2 else 1) →
      r.base + rows * (v + 1) ≤ 128 →
      (r.fmt = 0xA → 0x00800000 ≤ r.rb ∧ r.rb < 0x7F800000 ∧ ∀ a, a < 4 → (nth {} r.weights a).fmt = none ∨ (nth {} r.weights a).fmt = some 0xA) →
      Gives (.rowCommit t v) s (fun m' =>
        (tdT t m').mruns = (if v + 1 < r.n then { r with done := v + 1 } :: rs else rs) ∧
        (∀ a o, a < 4 → o < 32 * rows →
          collGet (tdT t m') a (r.base + rows * v + o / 32) (o % 32) =
            dotRule r.fmt r.tr (BitVec.ofNat 32 r.rb) (nth [] r.vecs v) (nth [] r.scales v) (nth {} r.weights a) o
              (collGet d a (r.base + rows * v + o / 32) (o % 32))) ∧
        (∀ a row k, a < 4 → row < 128 → k < 32 → (row < r.base + rows * v ∨ r.base + rows * (v + 1) ≤ row) →
          collGet (tdT t m') a row k = collGet d a row k))) ∧
    (∀ (buf : Fin 8) (x : MLoading), d.mloads.find? (fun y => y.slot == buf.val) = some x →
      Gives (.weightBufferReady t buf) s (fun m' => mget {} (tdT t m').wbuf buf.val = x.content ∧
        (∀ k, k ≠ buf.val → mget {} (tdT t m').wbuf k = mget {} d.wbuf k) ∧ (tdT t m').mloads.length + 1 = d.mloads.length)) ∧
    (∀ (x : DrainItem) (rs : List DrainItem), d.drain = x :: rs → noBeatToRead t.val s.m = true → d.faultsDue = [] →
      Gives (.drainLand t) s (fun m' => (tdT t m').drain = rs ∧
        ∀ w, spWord (tdT t m') (4 * w) =
          if x.word ≤ w ∧ w < x.word + x.data.length ∧ spYields d rankMD x.cycle (4 * w) = false then nth 0 x.data (w - x.word) else spWord d (4 * w)))

/-- GO, STOP, the clears, REGION_CONFIG, a mirror re-read and a tile reset. On a tile of no KILLED_RETAINED partition, whose contents stay
as they are, TILE_GO starts an IDLE tile at START_PC, or stops it there where the host has written STOP (log entry 45), and resumes one in
DEBUG_STOP at its PC; TILE_STOP puts a running or waiting tile in DEBUG_STOP with cause STOPPED at its next bundle, and signals Gondola
unless Gondola wrote it; the clears leave of their counters what the bundle in progress has added, nothing else changes; a write of
REGION_CONFIG has no effect on a tile that runs or waits, else stores the fields, with HEAD, TAIL and their mirror words zero when it
attaches, and ATTACH 0 when the constraints do not hold; a re-read of a mirror by a hardware side that waits, 16 tile cycles after the
last, takes a valid pointer of the program, counts an invalid one once, and adds to FULL_WAIT, and ends the wait where what it needs is
there; a tile reset of a stopped tile whose decoupled units are idle zeroes registers, loop stack, trap record and armed receives and
leaves instruction memory and scratchpad; one of a running tile has no effect. (R96, R97, R122, R192, R195, R196, R198, R416, R484) -/
def Obligations.TileControl : Prop :=
  ∀ (t : TileId) (s : State) (d : TileData), d = tdT t s.m →
    (retained s.m t.val = true → ∀ (g : Fin 16) (v : W64) (c : Instr), c ∈ [.tileGo t, .nfClear t, .cvClear t, .regionConfigWrite t g v,
      .mirrorReread t g, .tileReset t] → Gives c s (fun m' => m' = s.m)) ∧
    (retained s.m t.val = false →
    (d.st = .idle → Gives (.tileGo t) s (fun m' => (tdT t m').st = (if d.stopDue then .debugStop else .running) ∧ (tdT t m').pc = d.startPc ∧
      (d.stopDue = true → (tdT t m').trap.cause = 0x21 ∧ (tdT t m').trap.pc = d.startPc) ∧ (tdT t m').sreg = d.sreg)) ∧
    (d.st = .debugStop → Gives (.tileGo t) s (fun m' => (tdT t m').st = .running ∧ (tdT t m').pc = d.pc ∧ (tdT t m').sreg = d.sreg)) ∧
    (d.st ≠ .idle → d.st ≠ .debugStop → Gives (.tileGo t) s (fun m' => m' = s.m)) ∧
    (∀ g p, (d.st = .running ∨ d.st = .waiting) → (tileOf s.m t.val).bundle = none → d.faultsDue = [] → partOfTile s.m t.val = some p →
      Gives (.tileStop t g) s (fun m' => (tdT t m').st = .debugStop ∧ (tdT t m').trap.cause = 0x21 ∧ (tdT t m').trap.pc = d.pc ∧
        (tdT t m').trap.slots = 0 ∧ (tdT t m').sreg = d.sreg ∧
        ((partOf m' p).causes.map (·.cause)) = ((partOf s.m p).causes.map (·.cause)) ++ if g then [] else [0x11])) ∧
    (d.st = .idle → Gives (.tileStop t false) s (fun m' => tdT t m' = { d with stopDue := true })) ∧
    (∀ g, d.st ≠ .running → d.st ≠ .waiting → (d.st = .idle → g = true) → Gives (.tileStop t g) s (fun m' => m' = s.m)) ∧
    Gives (.counterClear t) s (fun m' => (∀ k, mget 0 (tdT t m').ctr k = 0) ∧ (tdT t m').freeze = d.freeze ∧ (tdT t m').sreg = d.sreg) ∧
    (∀ x : TileData, x = bundleBase (tileOf s.m t.val) →
      Gives (.nfClear t) s (fun m' => tdT t m' = { d with
        nfResults := d.nfResults - x.nfResults, nfInvalid := d.nfInvalid - x.nfInvalid
        nfOverflow := d.nfOverflow - x.nfOverflow, nfDivzero := d.nfDivzero - x.nfDivzero }) ∧
      (mwf 0 d.cv = true → Gives (.cvClear t) s (fun m' => tdT t m' = { d with cv := (tdT t m').cv } ∧
        ∀ k, mget 0 (tdT t m').cv k = mget 0 d.cv k - mget 0 x.cv k))) ∧
    (∀ (g : Fin 16) (v : W64), tileStopped d = false → Gives (.regionConfigWrite t g v) s (fun m' => tdT t m' = d)) ∧
    (∀ (g : Fin 16) (v : W64) (r : Region), tileStopped d = true → d.faultsDue = [] → noBeatToRead t.val s.m = true →
      r = { regionOf d g.val with mirror := bits v.toNat 63 44, sizeLog2 := bits v.toNat 43 40, attach := bits v.toNat 39 36, base := bits v.toNat 19 0 } →
      Gives (.regionConfigWrite t g v) s (fun m' =>
        (∀ k, k ≠ g.val → regionOf (tdT t m') k = regionOf d k) ∧
        if r.attach = 0 then regionOf (tdT t m') g.val = r
        else if regionOk d g.val r = true then
          regionOf (tdT t m') g.val = { r with head := 0, tail := 0, badSeen := false, waitFrom := none } ∧ spWord (tdT t m') r.mirror = 0 ∧ spWord (tdT t m') (r.mirror + 4) = 0
        else regionOf (tdT t m') g.val = { r with attach := 0 })) ∧
    (∀ (g : Fin 16) (r r' : Region) (c due v : Nat), r = regionOf d g.val → clockRuns s.m t.val = true → d.spBad = [] →
      (r.waitFrom = none → Gives (.mirrorReread t g) s (fun m' => m' = s.m)) ∧
      (r.waitFrom = some c → due = c + 16 * coreK s.m t.val → 1 ≤ r.attach → r.attach ≤ 3 → v = (spWord d r.programWord).toNat →
        r' = { r with fullWait := satAdd 42 r.fullWait (16 * coreK s.m t.val) } →
        Gives (.mirrorReread t g) s (fun m' =>
          let still (y : Region) : Option Nat := if y.lacks r.waitNeed = true then some due else none
          if nowOf s.m t.val < due then m' = s.m
          else if r.attach = 3 ∧ (v + 2 ^ 32 - r.tail) % 2 ^ 32 ≤ r.room then
            regionOf (tdT t m') g.val = { r' with tail := v, waitFrom := still { r' with tail := v } }
          else if r.attach ≠ 3 ∧ (v + 2 ^ 32 - r.head) % 2 ^ 32 ≤ r.used then
            regionOf (tdT t m') g.val = { r' with head := v, waitFrom := still { r' with head := v } }
          else (regionOf (tdT t m') g.val).head = r.head ∧ (regionOf (tdT t m') g.val).tail = r.tail ∧
            (regionOf (tdT t m') g.val).badPtr = if r.badSeen then r.badPtr else satAdd 16 r.badPtr 1))) ∧
    (tileStopped d = true → clockRuns s.m t.val = true → mIdle d = true → streamReq s.m t.val = none → d.queues = [] →
      Gives (.tileReset t) s (fun m' => (tdT t m').st = .idle ∧ (tdT t m').pc = d.startPc ∧ (tdT t m').loops = [] ∧ (tdT t m').armed = [] ∧
        (tdT t m').trap = {} ∧ (∀ r, getS (tdT t m') r = 0) ∧ (∀ r i, getL (tdT t m') r i = 0) ∧ (∀ r, r ≠ 0 → getP (tdT t m') r = 0) ∧
        (tdT t m').imem = d.imem ∧ (tdT t m').scratch = d.scratch ∧ m'.tileResets = satAdd 32 s.m.tileResets 1)) ∧
    (tileStopped d = false → Gives (.tileReset t) s (fun m' => m' = s.m)))

/-- Waits end when their condition is met, or time out; EXIT ends the tile and, with the last tile, the job. WAIT_RELEASE of an SWAIT
whose signal has reached its count takes the count and lets the tile run, of a BWAIT whose generation has passed writes OK and lets it
run, and leaves a tile whose SWAIT or BWAIT is not met. WAIT_TIMEOUT and SEND_TIMEOUT, once their limit has passed, trap the tile;
RECV_TIMEOUT and COPEN_TIMEOUT write TIMEOUT. TILE_ENDED ends a tile that has executed EXIT and has nothing outstanding; when every other
tile of a running job has ended, the job ends with cause EXIT. (R82, R83, R84, R87, R246, R253, R255, R265) -/
def Obligations.TileWaitsAndEnd : Prop :=
  ∀ (t : TileId) (s : State) (d : TileData), d = tdT t s.m → clockRuns s.m t.val = true →
    (∀ g k, d.st = .waiting → d.wait.kind = .swait g k → d.oneBundle = false → d.faultsDue = [] →
      Gives (.waitRelease t) s (fun m' =>
        if k ≤ mget 0 d.sigs g then (tdT t m').st = .running ∧ mget 0 (tdT t m').sigs g = mget 0 d.sigs g - k else m' = s.m)) ∧
    (∀ b g rd, d.st = .waiting → d.wait.kind = .bwait b g rd → d.oneBundle = false → d.faultsDue = [] → rd ≠ 0 → rd < 32 →
      Gives (.waitRelease t) s (fun m' =>
        if 0 < ((barOf s.m b).gen + 65536 - g) % 65536 ∧ ((barOf s.m b).gen + 65536 - g) % 65536 < 0x8000 then (tdT t m').st = .running ∧ codeOf (getS (tdT t m') rd) = 0 else m' = s.m)) ∧
    (∀ n k, (d.wait.kind = .swait n k ∨ d.wait.kind = .waitq n k) → d.st = .waiting → d.waitLimit ≠ 0 →
      Gives (.waitTimeout t) s (fun m' =>
        if d.wait.since + d.waitLimit * 1024 ≤ nowOf s.m t.val then
          (tdT t m').st = .trapped ∧ (tdT t m').trap.cause = 0x11 ∧ (tdT t m').trap.info = n ∧ (tdT t m').trap.pc = d.wait.pc
        else m' = s.m)) ∧
    (∀ h rd cost ws len addr k, d.st = .waiting → d.wait.kind = .csend h rd cost ws len addr → handleEp s.m t.val h = some k →
      Gives (.sendTimeout t) s (fun m' =>
        if d.wait.since + d.stallLimit * 1024 ≤ nowOf s.m t.val then
          (tdT t m').st = .trapped ∧ (tdT t m').trap.cause = 0x10 ∧ (tdT t m').sendTimeouts = satAdd 16 d.sendTimeouts 1 ∧
          (epOf m' k).timeouts = satAdd 16 (epOf s.m k).timeouts 1 ∧ (epOf m' k).credits = (epOf s.m k).credits
        else m' = s.m)) ∧
    (∀ h rd pd word pop, d.st = .waiting → d.wait.kind = .crecv h rd pd word pop → d.oneBundle = false → d.faultsDue = [] → rd ≠ 0 → rd < 32 → pd ≠ 0 →
      Gives (.recvTimeout t) s (fun m' =>
        if d.wait.since + d.stallLimit * 1024 ≤ nowOf s.m t.val then
          (tdT t m').st = .running ∧ codeOf (getS (tdT t m') rd) = 3 ∧ getP (tdT t m') pd = 0 ∧
          (tdT t m').recvTimeouts = satAdd 16 d.recvTimeouts 1
        else m' = s.m)) ∧
    (∀ (h : Fin 64) (x : CopenPend), d.copens.find? (fun y => y.handle == h.val) = some x → x.rd ≠ 0 → x.rd < 32 →
      Gives (.copenTimeout t h) s (fun m' =>
        if x.since + d.stallLimit * 1024 ≤ nowOf s.m t.val then
          codeOf (getS (tdT t m') x.rd) = 3 ∧ mget 0 (tdT t m').handles h.val = 0 ∧ (epOf m' x.conn).state = .free
        else m' = s.m)) ∧
    (∀ p, d.exiting = true → d.st = .running → d.xpend = [] → d.copens = [] → d.armed = [] → mIdle d = true → d.faultsDue = [] → noBeatToRead t.val s.m = true →
      partOfTile s.m t.val = some p →
      Gives (.tileEnded t) s (fun m' => (tdT t m').st = .ended ∧
        ((partOf s.m p).jstate = .running → (∀ u, u ∈ tilesOfPart s.m p → u ≠ t.val → (tdOf s.m u).st = .ended) →
          (partOf m' p).jstate = .ended ∧ (partOf m' p).endCause = 1)))

/-- The tick counter advances by one at cycle 0 of each tick of 640 cycles. On an empty queue, with no command of class D or L running and
no TICK_SYNC loading a number, a step is one cycle of the source: in cycles 0 to 638 of a tick the phase advances by one and the tick
stays, after cycle 639 the tick advances by one and the phase is 0, whatever the lock state. TICK_COUNTER_ADVANCE goes to cycle 0 of the
next tick. A step on an empty queue is the model's way to let time pass (log entry 2). (R30) -/
def Obligations.TickCounter : Prop :=
  ∀ s : State, s.m.box.running = none → s.m.syncing = none →
    (s.pending = [] → ∃ m' : Mod, step s = .next { s with m := m' } ∧
      if s.m.phase < 639 then m'.phase = s.m.phase + 1 ∧ m'.tick = s.m.tick else m'.phase = 0 ∧ m'.tick = s.m.tick + 1) ∧
    Gives .tickCounterAdvance s (fun m' => m'.phase = 0 ∧ m'.tick = s.m.tick + 1 ∧
      m'.now = (if s.m.power.active then s.m.now else s.m.now + (639 - s.m.phase) + 1))

/-- Eight tick periods without an accepted edge are a lost tick. TICK_LOST on a LOCKED module that has a tick input and has accepted no
edge for 8 nominal tick periods sets LOST_EVENT, counts in LOSS_COUNT, enters holdover and raises a tick-lost event; sooner it has no
effect. (R34) -/
def Obligations.TickLossDeclared : Prop :=
  ∀ (s : State) (l : Nat), s.m.role ≠ roleMaster → s.m.lock = .locked → s.m.lastEdge = some l →
    (81920 ≤ sinceInstant (l : Int) (instant s.m) → Gives .tickLost s (fun m' => m'.lostEvent = true ∧ m'.loss = satAdd 16 s.m.loss 1 ∧ m'.lock = .holdover ∧
      ∃ e : Event, e.cls = 0x04 ∧ e.detail = 1 ∧ e.tick = s.m.tick ∧
        (if s.m.box.kiteUp then m'.out = s.m.out ++ [.event e]
          else s.m.box.events.length < 256 → m'.box.events = s.m.box.events ++ [e]))) ∧
    (sinceInstant (l : Int) (instant s.m) < 81920 → Gives .tickLost s (fun m' => m' = s.m))

/-- SUPERSTEP_NUM increments at each superstep boundary. SUPERSTEP_BOUNDARY of a running partition in its exchange phase, with every
watched transfer forwarded, falls on the cycle after the last exchange cycle, increments the superstep number and begins the compute
phase; outside an exchange phase it has no effect. (R39) -/
def Obligations.SuperstepNumber : Prop :=
  ∀ (p : PartId) (s : State),
    (stepRuns p.val s.m → (partOf s.m p.val).xphase = .exchange → openEntries s.m p.val = [] →
      Gives (.superstepBoundary p) s (fun m' => (partOf m' p.val).superstep = (partOf s.m p.val).superstep + 1 ∧
        (partOf m' p.val).xphase = .compute ∧ (partOf m' p.val).boundary = (partOf s.m p.val).e0 + (partOf s.m p.val).xlen)) ∧
    ((partOf s.m p.val).xphase ≠ .exchange → Gives (.superstepBoundary p) s (fun m' => m' = s.m))

/-- Edges, TICK symbols, holdover and alignment of the tick receiver. An accepted edge at the tick input, or an accepted TICK symbol from
upstream, is noted and ends holdover; an edge more than 16 cycles off counts as a phase error and changes neither lock nor the last edge;
HOLDOVER_EXPIRY at 1,024 ticks of holdover makes the module EXPIRED and signals TICK_EXPIRED to every running partition; an alignment
record with LOADED from upstream sets tick and phase and locks a module that a TICK_SYNC aligns, one without it sets the phase alone; an
alignment report from a downstream port is kept. (R33, R36, R37, R389, R497, R499) -/
def Obligations.TickReceiver : Prop :=
  ∀ s : State,
    (∀ b : BitVec 16, s.m.syncing = none → s.m.role = roleBoard → edgeFits (instant s.m) (some b) s.m →
      Gives (.tickEdge (some b)) s (edgeTaken (instant s.m) s.m)) ∧
    (s.m.syncing = none → s.m.role = rolePeer → edgeFits (instant s.m - (s.m.hopDelay : Int)) none s.m →
      Gives (.tickEdge none) s (edgeTaken (instant s.m - (s.m.hopDelay : Int)) s.m)) ∧
    (∀ (q : PortId) (arg : W32) (at_ : Int), s.m.syncing = none → fromUp s.m q.val = true → s.m.role ≠ rolePeer →
      at_ = instant s.m - ((if s.m.hopDelay = 0 then (portOf s.m q.val).tickDelay16 else s.m.hopDelay : Nat) : Int) -
        (bits arg.toNat 31 16 : Int) → edgeFits at_ (some (arg.extractLsb' 0 16)) s.m →
      Gives (.tick q arg) s (edgeTaken at_ s.m)) ∧
    (∀ b : BitVec 16, s.m.syncing = none → s.m.role = roleBoard → 16 < s.m.phase → s.m.phase < 624 →
      edgeApart (instant s.m) s.m →
      Gives (.tickEdge (some b)) s (fun m' => m'.phaseErr = satAdd 16 s.m.phaseErr 1 ∧ m'.phaseEvent = true ∧ m'.lock = s.m.lock ∧
        m'.lastEdge = s.m.lastEdge)) ∧
    (Gives .holdoverExpiry s (fun m' =>
      if s.m.lock = .holdover ∧ 1024 * 640 ≤ s.m.now + s.m.lost - s.m.holdFrom then
        m'.lock = .expired ∧ m'.expiredEvent = true ∧ ∀ p, p < 8 → (partOf m' p).causes.map (·.cause) =
          (partOf s.m p).causes.map (·.cause) ++ if (partOf s.m p).jstate = .running then [0x0F] else []
      else m' = s.m)) ∧
    (∀ (q : PortId) (n : BitVec 48) (off16 : Nat), aligning s.m = true → q.val = s.m.upstream → (portOf s.m q.val).state = .up →
      Gives (.alignmentRecord q n off16 true) s (fun m' => m'.lock = .locked ∧
        m'.tick.toNat * 640 + m'.phase = (n + BitVec.ofNat 48 (((portOf s.m q.val).tickDelay16 + off16) / 16 / 640)).toNat * 640 +
          ((portOf s.m q.val).tickDelay16 + off16) / 16 % 640)) ∧
    (∀ (q : PortId) (n : BitVec 48) (off16 : Nat), aligning s.m = true → q.val = s.m.upstream → (portOf s.m q.val).state = .up →
      Gives (.alignmentRecord q n off16 false) s (fun m' => m'.lock = s.m.lock ∧ m'.tick = s.m.tick ∧
        m'.phase = ((portOf s.m q.val).tickDelay16 + off16) / 16 % 640)) ∧
    (∀ (q : PortId) (delay : Nat), (downPorts s.m).contains q.val = true → (portOf s.m q.val).state = .up →
      Gives (.alignmentReport q delay) s (fun m' => mget 0 m'.reports q.val = delay + 1))

/-- Decisions, exchange starts and commits of a step. DECISION at the system master sends GO for an event whose readiness is complete in
time, unless it is the commit of a step that has failed, and else slips the schedule by 16 ticks, or beyond SLIP_LIMIT fails the step;
once the commit has its GO it decides for the exchange start behind it, and the commit hands that GO on; for a job of other modules it
sends GO, SLIP or FAULT by the READYs of its ports (log entry 137). EXCHANGE_PHASE_START of an on-chip exchange begins the phase 26 cycles
after the sync closed, 90 with HALF_RETURN; of an exchange event with its GO, at cycle 2 of its tick; tiles in SYNC issue from then on.
COMMIT with its GO at its tick, with every shard complete, increments STEP_NUM, begins the attempts and slips anew and empties the
weight-gradient buffers; with a shard incomplete it ends the job with cause COMMIT_INCOMPLETE, at once if the engines of the partition are
idle and its halves run at 800 MHz. An event without a usable GO at its tick is a DECISION_LATE. (R38, R43, R44, R47, R51, R212, R331, R398) -/
def Obligations.StepSequence : Prop :=
  ∀ (p : PartId) (s : State) (x : Part), x = partOf s.m p.val → stepRuns p.val s.m →
    (∀ e, nextEvent x = some e → s.m.role = roleMaster → x.goFor ≠ some (eventSeq x e) → tickReached s.m (decisionTick x) = true →
      (∀ z, x.readySent = true → stepIndex x = e.superstep → x.closedAt = some z →
        (e.tick - BitVec.ofNat 48 x.readyLead - (tickAt s.m (z + x.lag)).1).toNat < 2 ^ 47 →
        (e.kind = .commit → x.failSeen ≠ some x.stepNum) →
        Gives (.decision (.own p)) s (fun m' => (partOf m' p.val).goFor = some (eventSeq x e) ∧
          sentDown symGo x.tag (eventSeq x e) (BitVec.ofNat 32 x.slips) s.m m')) ∧
      (x.readySent = false → x.slips + 1 ≤ x.slipLimit →
        Gives (.decision (.own p)) s (fun m' => partOf m' p.val = slipSchedule x ∧
          sentDown symSlip x.tag (eventSeq x e) (BitVec.ofNat 32 (x.slips + 1)) s.m m')) ∧
      (x.readySent = false → x.slipLimit < x.slips + 1 →
        Gives (.decision (.own p)) s (fun m' => (partOf m' p.val).stepFailed = true ∧ (partOf m' p.val).rstate = .abandoning))) ∧
    (∀ e f z, nextEvent x = some e → x.goFor = some (eventSeq x e) → x.goNext = none → secondEvent x = some f → f.kind = .exchange →
      s.m.role = roleMaster → tickReached s.m (f.tick - BitVec.ofNat 48 (x.readyLead / 2)) = true → x.readySent = true →
      stepIndex x = f.superstep → x.closedAt = some z → (f.tick - BitVec.ofNat 48 x.readyLead - (tickAt s.m (z + x.lag)).1).toNat < 2 ^ 47 →
      Gives (.decision (.own p)) s (fun m' => (partOf m' p.val).goFor = x.goFor ∧ (partOf m' p.val).goNext = some (eventSeq x f) ∧
        sentDown symGo x.tag (eventSeq x f) (BitVec.ofNat 32 x.slips) s.m m')) ∧
    (∀ o : OtherEvent, s.m.role = roleMaster → runsJob s.m o.tag = false → tickReached s.m (o.tick - BitVec.ofNat 48 (o.lead / 2)) = true →
      ((∀ q, q ∈ downPorts s.m → bit o.ports q = true → (o.seq.toNat, q) ∈ (mget {} s.m.others o.tag.toNat).ready) → o.commit = none →
        Gives (.decision (.other o)) s (sentDown symGo o.tag o.seq (BitVec.ofNat 32 o.slips) s.m)) ∧
      ((∃ q, q ∈ downPorts s.m ∧ bit o.ports q = true ∧ (o.seq.toNat, q) ∉ (mget {} s.m.others o.tag.toNat).ready) →
        Gives (.decision (.other o)) s (fun m' =>
          if o.slips + 1 ≤ o.limit then sentDown symSlip o.tag o.seq (BitVec.ofNat 32 (o.slips + 1)) s.m m'
          else sentDown symFault o.tag o.seq (BitVec.ofNat 32 o.slips) s.m m'))) ∧
    (∀ z, x.closedAt = some z → s.m.power.heldResets = [] → (curRecord x).getLsbD 32 = true →
      (nextEvent x = none → x.committed = false → recTicked (curRecord x) = false →
        Gives (.exchangePhaseStart p) s (fun m' => (partOf m' p.val).xphase = .exchange ∧
          (partOf m' p.val).e0 = z + (if recHalfReturn (curRecord x) then 90 else 26) ∧ (partOf m' p.val).xlen = recLen (curRecord x) ∧
          ∀ t, t ∈ tilesOfPart s.m p.val → (tdOf s.m t).st = .waiting → (tdOf s.m t).wait.kind = .sync → (tdOf s.m t).oneBundle = false →
            (tdOf m' t).st = .running ∧ (tdOf m' t).nextIssue = z + (if recHalfReturn (curRecord x) then 90 else 26))) ∧
      (∀ e, nextEvent x = some e → e.kind = .exchange → e.superstep = stepIndex x → tickReached s.m e.tick = true →
        x.goFor = some (eventSeq x e) → tickGood s.m = true →
        Gives (.exchangePhaseStart p) s (fun m' => (partOf m' p.val).xphase = .exchange ∧
          (partOf m' p.val).e0 = Nat.max (cycleOfTick s.m e.tick + 2) s.m.power.restartNow - x.lag ∧
          (partOf m' p.val).xlen = recLen (curRecord x)))) ∧
    (∀ e, nextEvent x = some e → tickReached s.m e.tick = true → x.goFor ≠ some (eventSeq x e) → x.lateRaised = false →
      Gives (.exchangePhaseStart p) s (fun m' => (partOf m' p.val).causes.map (·.cause) = x.causes.map (·.cause) ++ [0x0E]) ∧
      (e.kind = .commit → Gives (.commit p) s (fun m' => (partOf m' p.val).causes.map (·.cause) = x.causes.map (·.cause) ++ [0x0E]))) ∧
    (commitDue s.m p.val = true → eventLate s.m p.val = false → x.lossEnable = false → s.m.power.heldResets = [] →
      (commitIncomplete s.m p.val = false →
        Gives (.commit p) s (fun m' => (partOf m' p.val).stepNum = x.stepNum + 1 ∧ (partOf m' p.val).stepAttempt = 0 ∧
          (partOf m' p.val).slips = 0 ∧ (partOf m' p.val).jstate = .running ∧ (partOf m' p.val).goFor = x.goNext ∧
          ∀ t, t ∈ tilesOfPart s.m p.val → ∀ w, wgbWord (tdOf m' t) w = 0)) ∧
      (commitIncomplete s.m p.val = true → x.ending = none →
        Gives (.commit p) s (fun m' => (partOf m' p.val).endCause = 5 ∧ (partOf m' p.val).commitIncomplete = true ∧
          (dmasQuiet p.val s.m → x.retain = false → (partOf m' p.val).jstate = .scrubbing))))

/-- Clock events, decisions of Ballast and clock switches of the halves. OPTIONAL_DECISION chooses, for each OPTIONAL event of a running
step that has started and whose tick less 16 has come, and that is undecided, the halves of its mask that Ballast slows. CLOCK_EVENT, once
the tick at which the event takes effect has come (its own, or the first after the boundary, which counts as late), begins the switch of
every half of a fixed event that runs at 800 MHz, and marks the event done. CLOCK_RETURN in the cycle after the local sync of a record
with HALF_RETURN, or later, begins the return of a half at 400 MHz. CLOCK_SWITCH_COMPLETE ends either switch 64 source cycles after it
began, but not during an emergency stop; a half whose step has failed or whose job does not run returns at once (log entry 154). That a
boundary in cycle 0 of a tick takes effect in that tick is the model's choice (log entry 118). (R40, R212, R464, R467, R470, R477) -/
def Obligations.ClockEvents : Prop :=
  ∀ s : State,
    (∀ (p : PartId) (x : Part), x = partOf s.m p.val → x.jstate = .running → x.stepFailed = false →
      Gives (.optionalDecision p) s (fun m' => (partOf m' p.val).sched = x.sched.map (fun y =>
        if undecided y = true ∧ tickReached s.m x.base = true ∧ tickReached s.m (y.tick - 16) = true then
          { y with chosen := some (maskOf ((maskBits 8 y.mask).filter (slowChoice s.m))) } else y))) ∧
    (∀ (p : PartId) (e : SchedEv) (x : Part), x = partOf s.m p.val → stepRuns p.val s.m → x.xphase = .compute → e.kind = .clockFixed →
      (clockEvents x).filter (fun y => tickReached s.m (boundaryTick s.m p.val y.tick).1) = [e] →
      (x.sched.filter (fun y => y.kind == e.kind && y.superstep == e.superstep && y.mask == e.mask)) = [e] →
      Gives (.clockEvent p) s (fun m' => { e with done := true } ∈ (partOf m' p.val).sched ∧
        (partOf m' p.val).lateEvents = (if (boundaryTick s.m p.val e.tick).2 then satAdd 32 x.lateEvents 1 else x.lateEvents) ∧
        ∀ h, h < 8 → (halfSt m' h).clk = if bit e.mask h = true ∧ (halfSt s.m h).clk = .full then .toHalf else (halfSt s.m h).clk)) ∧
    (∀ (h : HalfId) (p z : Nat), partOfHalf s.m h.val = some p → (partOf s.m p).closedAt = some z →
      recHalfReturn (curRecord (partOf s.m p)) = true → s.m.power.active = false →
      (s.m.now < z + (partOf s.m p).lag + 1 → Gives (.clockReturn h) s (fun m' => m' = s.m)) ∧
      (z + (partOf s.m p).lag + 1 ≤ s.m.now → Gives (.clockReturn h) s (fun m' => (halfSt m' h.val).clk = (if (halfSt s.m h.val).clk = .half then .toFull else (halfSt s.m h.val).clk) ∧
        ∀ k, k ≠ h.val → halfSt m' k = halfSt s.m k))) ∧
    (∀ h : HalfId, s.m.power.heldResets = [] → Gives (.clockSwitchComplete h) s (fun m' =>
      if s.m.power.active = true ∨ s.m.now < (halfSt s.m h.val).switchFrom + 64 then m' = s.m
      else (halfSt m' h.val).clk = (match (halfSt s.m h.val).clk with
          | .toHalf => if ∃ p, partOfHalf s.m h.val = some p ∧ (partOf s.m p).stepFailed = false ∧ (partOf s.m p).jstate = .running then .half
              else .toFull
          | .toFull => .full
          | c => c) ∧ ∀ k, k ≠ h.val → halfSt m' k = halfSt s.m k))

/-- Beats land in armed receives; ports hold, forward and stall. A compiled beat that arrives in its exchange phase lands its 64 bytes in
the armed receive of its tag and in no other word, but for words that another port has written in that cycle with a higher rank, or later,
and the receive counts it or is complete; one that arrives after its phase lands nothing and is a fault. A beat that enters a port before
its entry's phase is held, up to 256 beats; one whose entry's window is open is forwarded; one without a valid entry is a route fault; one
at a port of no partition is dropped. A held beat is forwarded once its window opens. A transfer not wholly forwarded by F stalls the
partition, and a stall of 4 ticks is a fault, once. DELIVERY sends the oldest summed block of an engine, once. (R185, R214, R220, R226, R229, R231, R232, R353) -/
def Obligations.ExchangeBeats : Prop :=
  ∀ s : State, s.m.power.active = false →
    (∀ (p : PartId) (b : Beat) (rest : List Beat) (t : Nat) (r : Recv), (partOf s.m p.val).beats = b :: rest → b.dst = .tile t → b.src = .read →
      b.late = false → (partOf s.m p.val).xphase ≠ .stall → b.data.length = 16 →
      (b.till ≤ b.arrive → Gives (.beatLanding p 0) s (fun m' =>
        (∀ w, spWord (tdOf m' t) (4 * w) = spWord (tdOf s.m t) (4 * w)) ∧ (tdOf m' t).armed = (tdOf s.m t).armed ∧
        (tdOf m' t).xchFaults = satAdd 16 (tdOf s.m t).xchFaults 1)) ∧
      (b.arrive < b.till → (tdOf s.m t).armed.find? (fun y => y.tag == b.tag && decide (y.since ≤ b.arrive)) = some r → r.addr % 64 = 0 →
        noBeatToRead t s.m = true → (tdOf s.m t).faultsDue = [] →
        Gives (.beatLanding p 0) s (fun m' =>
          (∀ w, spWord (tdOf m' t) (4 * w) =
            if (r.addr + 64 * r.landed) / 4 ≤ w ∧ w < (r.addr + 64 * r.landed) / 4 + 16 ∧
              spYields (tdOf s.m t) rankXI b.arrive (4 * w) = false then nth 0 b.data (w - (r.addr + 64 * r.landed) / 4)
            else spWord (tdOf s.m t) (4 * w)) ∧
          (r.landed + 1 = r.beats → (tdOf m' t).armed.all (fun y => y.tag != b.tag) = true) ∧
          (r.landed + 1 ≠ r.beats → { r with landed := r.landed + 1 } ∈ (tdOf m' t).armed)))) ∧
    (∀ (q : PortId) (n : BitVec 16) (tag : BitVec 4) (data : List W32) (x : Part) (e : W64 × W64), beatOk data = true →
      x = partOf s.m (portOf s.m q.val).part → e = inboundEntry s.m q.val n.toNat →
      ((portOf s.m q.val).assigned = false → x.xphase = .compute →
        Gives (.inboundBeat q n tag data) s (fun m' => m'.routeDrops = satAdd 32 s.m.routeDrops 1 ∧ m'.ports = s.m.ports)) ∧
      ((portOf s.m q.val).assigned = true → x.jstate = .running → x.stepFailed = false → x.xphase = .compute →
        (inValid e = false → Gives (.inboundBeat q n tag data) s (fun m' => ∃ c : Cause, c.cause = 0x03 ∧ c.detail = xBadRoute ∧
          (partOf m' (portOf s.m q.val).part).causes = x.causes ++ [c])) ∧
        (inValid e = true → stepIndex x ≤ inboundIndex e → (portOf s.m q.val).held.length < 256 →
          Gives (.inboundBeat q n tag data) s (fun m' =>
            (portOf m' q.val).held = (portOf s.m q.val).held ++ [(n.toNat, tag.toNat, data)]))) ∧
      ((portOf s.m q.val).assigned = true → x.jstate = .running → x.stepFailed = false → x.xphase = .exchange → inValid e = true →
        inboundIndex e = stepIndex x → x.e0 + inStart e ≤ s.m.now - x.lag → inKind e = 0 → inDest e ≤ 5119 →
        (portOf s.m q.val).forwardFrom ≤ s.m.now →
        (openEntries s.m (portOf s.m q.val).part).all (fun y => decide (s.m.now - x.lag ≤ x.e0 + inF y.2.2)) = true →
        Gives (.inboundBeat q n tag data) s (fun m' => (portOf m' q.val).held = (portOf s.m q.val).held ∧
          mget 0 (portOf m' q.val).forwarded n.toNat = mget 0 (portOf s.m q.val).forwarded n.toNat + 1) ∧
        (∀ h rest, (portOf s.m q.val).held = h :: rest → h.1 = n.toNat →
          Gives (.heldBeatForward q) s (fun m' => (portOf m' q.val).held = rest ∧
            mget 0 (portOf m' q.val).forwarded n.toNat = mget 0 (portOf s.m q.val).forwarded n.toNat + 1)))) ∧
    (∀ (p : PartId) (x : Part), x = partOf s.m p.val → x.xphase = .exchange → x.jstate = .running → x.stepFailed = false →
      Gives (.exchangeStall p) s (fun m' =>
        if (openEntries s.m p.val).any (fun y => decide (x.e0 + inF y.2.2 < s.m.now - x.lag)) then
          (partOf m' p.val).xphase = .stall ∧ (x.lateTransfers < 2 ^ 32 - 1 → x.lateTransfers < (partOf m' p.val).lateTransfers)
        else m' = s.m)) ∧
    (∀ (p : PartId) (x : Part), x = partOf s.m p.val → x.xphase = .stall → x.stallHit = false →
      Gives (.stallLimit p) s (fun m' =>
        if 2560 ≤ s.m.now - x.stallFrom then
          (partOf m' p.val).stallHit = true ∧ ∃ c : Cause, c.cause = 0x03 ∧ c.detail = xStallLimit ∧ (partOf m' p.val).causes = x.causes ++ [c]
        else m' = s.m)) ∧
    (∀ (e : PortId) (j n tag : Nat) (vals : List Int) (rest : List (Nat × Nat × Nat × List Int)) (x : Part),
      x = partOf s.m (portOf s.m e.val).part → (engineOf s.m e.val).deliver = (j, n, tag, vals) :: rest → x.jstate = .running → x.stepFailed = false →
      x.xphase = .exchange → inboundIndex (inboundEntry s.m e.val n) = stepIndex x →
      x.e0 + inStart (inboundEntry s.m e.val n) ≤ s.m.now - x.lag → (engineOf s.m e.val).deliverFrom ≤ s.m.now →
      (openEntries s.m (portOf s.m e.val).part).all (fun y => decide (s.m.now - x.lag ≤ x.e0 + inF y.2.2)) = true →
      Gives (.delivery e) s (fun m' => (engineOf m' e.val).deliver = rest ∧
        (engineOf m' e.val).delivered = satAdd 32 (engineOf s.m e.val).delivered 1))

/-- Channel packets open, close, credit and land. An open request that an open receive endpoint of its job can grant takes the quota and
notes the connection, another leaves both; of a connection that its pool entry still holds, and not of an earlier one of that entry: the
last granting reply opens the connection with its quota at every target and returns OK with the handle; a close notice closes the
connection, also one that is still being opened, as it opens; a close returns the quota of the connection, less what is held, and its
acknowledgement frees the pool entry; a credit return adds the credit; a drop notice counts at the tile, and at the connection while that
is its; a grant to a connection that is gone is answered with a close, and a notice or credit for it changes nothing; a message joins an
open operand queue; a record is written at TAIL of an open ring with room and TAIL advances by its units. (R245, R246, R247, R249, R250, R254, R255) -/
def Obligations.ChannelPackets : Prop :=
  ∀ (s : State) (src : PktFrom) (k : ChanPkt) (c n : Nat), n = k.conn % 32768 →
    (arrives src [.openReq] s.m k c → Gives (.openRequest src) s (fun m' =>
      if isReceive (epOf s.m k.ep) = true ∧ (epOf s.m k.ep).state = .opened ∧ (epOf s.m k.ep).tag = k.jobTag.toNat ∧
        k.amount ≤ (epOf s.m k.ep).credit then
        (epOf m' k.ep).credit = (epOf s.m k.ep).credit - k.amount ∧
        (epOf m' k.ep).conns = (epOf s.m k.ep).conns ++ [(k.connModule, k.conn, k.tgt, k.amount)]
      else (epOf m' k.ep).credit = (epOf s.m k.ep).credit ∧ (epOf m' k.ep).conns = (epOf s.m k.ep).conns)) ∧
    (∀ x : CopenPend, arrives src [.openReply] s.m k c → (tdOf s.m k.srcTile).copens.find? (fun y => y.conn == n) = some x →
      k.conn = n + 32768 * (epOf s.m n).openings →      x.awaiting = 1 → x.closed = false → x.full = false → x.rd ≠ 0 → x.rd < 32 → x.handle < 64 →
      Gives (.copenReply src) s (fun m' =>
        if k.code % 16 = 0 then (epOf m' n).state = (if x.lost then .closed else .opened) ∧ (epOf m' n).credits.all (fun v => v == (epOf s.m n).quota) = true ∧
          getS (tdOf m' k.srcTile) x.rd = BitVec.ofNat 32 (x.handle * 65536)
        else if k.code % 16 = 1 ∨ k.code % 16 = 2 then (epOf m' n).state = .free ∧ mget 0 (tdOf m' k.srcTile).handles x.handle = 0 ∧
          codeOf (getS (tdOf m' k.srcTile) x.rd) = k.code % 16
        else True)) ∧
    (arrives src [.openReply] s.m k c → k.conn ≠ n + 32768 * (epOf s.m n).openings → k.code % 16 = 0 → isHere s.m k.epModule = true →
      Gives (.copenReply src) s (fun m' => m'.pool = s.m.pool ∧
        ∃ y ∈ m'.flight, y.pkt.kind = .close ∧ y.pkt.conn = k.conn ∧ y.pkt.ep = k.ep ∧ y.pkt.tgt = k.tgt)) ∧
    (arrives src [.closeNotice] s.m k c → k.conn ≠ n + 32768 * (epOf s.m n).openings →
      Gives (.closeNotice src) s (fun m' => m'.pool = s.m.pool ∧ m'.tiles = s.m.tiles)) ∧
    (arrives src [.closeNotice] s.m k c → k.conn = n + 32768 * (epOf s.m n).openings → isSend (epOf s.m n) = true → (epOf s.m n).state = .opened →
      Gives (.closeNotice src) s (fun m' => (epOf m' n).state = .closed ∧ (epOf m' n).credits = (epOf s.m n).credits)) ∧
    (arrives src [.closeNotice] s.m k c → k.conn = n + 32768 * (epOf s.m n).openings → (epOf s.m n).state = .opening →
      Gives (.closeNotice src) s (fun m' => (epOf m' n).state = .opening ∧ (tdOf m' (epOf s.m n).owner).copens =
        (tdOf s.m (epOf s.m n).owner).copens.map (fun x => if x.conn = n then { x with lost := true } else x))) ∧
    (arrives src [.close, .closeAck] s.m k c →
      (k.kind = .closeAck → k.conn = n + 32768 * (epOf s.m n).openings → (epOf s.m n).closing = true → isSend (epOf s.m n) = true → (epOf s.m n).acks ≤ 1 →
        Gives (.closeAck src) s (fun m' => (epOf m' n).state = .free)) ∧
      (∀ g, k.kind = .close → (epOf s.m k.ep).conns = [(k.connModule, k.conn, k.tgt, g)] → (epOf s.m k.ep).opq = [] → (epOf s.m k.ep).recs = [] →
        Gives (.closeAck src) s (fun m' => (epOf m' k.ep).conns = [] ∧ (epOf m' k.ep).credit = (epOf s.m k.ep).credit + g))) ∧
    (arrives src [.credit] s.m k c → k.conn ≠ n + 32768 * (epOf s.m n).openings → Gives (.creditReturn src) s (fun m' => m'.pool = s.m.pool)) ∧
    (arrives src [.credit] s.m k c → k.conn = n + 32768 * (epOf s.m n).openings → isSend (epOf s.m n) = true → (epOf s.m n).state = .opened →
      (tdOf s.m (epOf s.m n).owner).st ≠ .waiting →
      Gives (.creditReturn src) s (fun m' => (epOf m' n).credits = modNth (· + k.amount) (epOf s.m n).credits k.tgt)) ∧
    (arrives src [.drop] s.m k c →
      Gives (.dropNotice src) s (fun m' => (tdOf m' k.srcTile).dropped = satAdd 32 (tdOf s.m k.srcTile).dropped 1 ∧
        (epOf m' n).dropped = (if k.conn = n + 32768 * (epOf s.m n).openings ∧ isSend (epOf s.m n) = true ∧ (epOf s.m n).state ≠ .free ∧ (epOf s.m n).owner = k.srcTile
          then satAdd 16 (epOf s.m n).dropped 1 else (epOf s.m n).dropped))) ∧
    (arrives src [.opq] s.m k c → (tdOf s.m (epOf s.m k.ep).owner).st ≠ .waiting →
      Gives (.opqLanding src) s (fun m' =>
        if (epOf s.m k.ep).state = .opened ∧ (epOf s.m k.ep).kind = .opq then
          (epOf m' k.ep).opq = (epOf s.m k.ep).opq ++ [(nth 0 k.words 0, nth 0 k.words 1, k.connModule, k.conn, k.tgt)] ∧
          (epOf m' k.ep).messages = satAdd 32 (epOf s.m k.ep).messages 1
        else (epOf m' k.ep).opq = (epOf s.m k.ep).opq ∧ (epOf m' k.ep).messages = (epOf s.m k.ep).messages)) ∧
    (∀ (r : Region) (g : Nat), g = (epOf s.m k.ep).region → r = regionOf (tdOf s.m (epOf s.m k.ep).owner) g →
      arrives src [.ring] s.m k c → (epOf s.m k.ep).state = .opened → (epOf s.m k.ep).kind = .ring → r.base % 128 = 0 → r.tail % 128 = 0 →
      r.mirror % 8 = 0 → mirrorClear r.mirror r = true → 128 * msgCost true k.amount ≤ r.room →
      k.words.length + 2 ≤ 32 * msgCost true k.amount → spYields (tdOf s.m (epOf s.m k.ep).owner) rankDW c (r.at r.tail) = false →
      Gives (.ringRecordLanding src) s (fun m' =>
        (regionOf (tdOf m' (epOf s.m k.ep).owner) g).tail = (r.tail + 128 * msgCost true k.amount) % 2 ^ 32 ∧
        (regionOf (tdOf m' (epOf s.m k.ep).owner) g).head = r.head ∧
        spWord (tdOf m' (epOf s.m k.ep).owner) (r.at r.tail) = BitVec.ofNat 32 (k.code % 65536 * 65536 + k.amount) ∧
        (epOf m' k.ep).messages = satAdd 32 (epOf s.m k.ep).messages 1))

/-- Barriers count, release, break; the Bridle line releases, completes, times out. An arrival of a member of an active barrier, once each
generation, is counted, and the last advances GENERATION and clears the count; the arriving tile gets OK. An arrival of a tile that is no
member is refused with CLOSED. A barrier whose first arrival is older than its limit breaks with cause 4. The Bridle line is released at
cycle 0 of a tick once the sync of its partition's event has closed; it is sampled at cycle 320 only, and a high sample completes the
barrier, but means nothing before the job that drives the line has started; at cycle 480 the line is driven low again (a step on an empty
queue is one cycle: log entry 2); a line low for TIMEOUT ticks is a fault, and so is a line high while this module drives it low. (R261, R262, R264, R370, R371, R372, R509) -/
def Obligations.BarrierAndBridleEvents : Prop :=
  ∀ s : State,
    (∀ (b : Fin 4096) (t rd c : Nat), (barOf s.m b.val).pending = [(t, rd, c)] → rd ≠ 0 → rd < 32 →
      fabricHeld s.m (barOf s.m b.val).part = false →
      (isMember s.m b.val t = true → (barOf s.m b.val).state = .active → t ∉ (barOf s.m b.val).arrived →
        Gives (.barrierArrival b) s (fun m' => (barOf m' b.val).pending = [] ∧ codeOf (getS (tdOf m' t) rd) = 0 ∧
          if (barOf s.m b.val).arrived.length + 1 = (barOf s.m b.val).participants then
            (barOf m' b.val).gen = ((barOf s.m b.val).gen + 1) % 65536 ∧ (barOf m' b.val).arrived = [] ∧ (barOf m' b.val).state = .active
          else (barOf m' b.val).gen = (barOf s.m b.val).gen ∧ (barOf m' b.val).arrived = (barOf s.m b.val).arrived ++ [t])) ∧
      (isMember s.m b.val t = false →
        Gives (.barrierArrival b) s (fun m' => (barOf m' b.val).refused = satAdd 16 (barOf s.m b.val).refused 1 ∧
          (barOf m' b.val).arrived = (barOf s.m b.val).arrived ∧ codeOf (getS (tdOf m' t) rd) = 2))) ∧
    (∀ b : Fin 4096, s.m.power.active = false → (barOf s.m b.val).state = .active → (barOf s.m b.val).limit ≠ 0 → (barOf s.m b.val).arrived ≠ [] →
      Gives (.barrierLimitExpiry b) s (fun m' =>
        if (barOf s.m b.val).firstAt + (barOf s.m b.val).limit * 65536 ≤ partNow s.m (barOf s.m b.val).part then
          (barOf m' b.val).state = .broken ∧ (barOf m' b.val).cause = 4 ∧ (barOf m' b.val).breaks = satAdd 16 (barOf s.m b.val).breaks 1
        else m' = s.m)) ∧
    (s.m.bridleEnable = true →
      (s.m.released = false → s.m.bridleDone = false → s.m.power.active = false → bridleClosed s.m = true → s.m.phase = 0 →
        (s.m.releaseDue = true → s.m.now ≠ s.m.power.restartNow) →
        Gives .barrierLineRelease s (fun m' => m'.released = true ∧ m'.releasedAt = some s.m.tick ∧ m'.out = s.m.out ++ [.barrier true])) ∧
      (s.m.phase ≠ 320 → ∀ high, Gives (.barrierLineSample high) s (fun m' => m' = s.m)) ∧
      (s.m.phase = 320 → ∀ high, high = false ∨ s.m.lineOn = false →
        Gives (.barrierLineSample high) s (fun m' => m' = { s.m with line := high, barrierPin := high })) ∧
      (s.m.phase = 320 → s.m.lineOn = true → s.m.lineLow = false → s.m.released = true →
        Gives (.barrierLineSample true) s (fun m' => m'.bridleDone = true ∧ m'.released = true ∧ m'.lineLow = true ∧ m'.releasedAt = none)) ∧
      (s.m.phase = 320 → s.m.lineOn = true → s.m.lineLow = false → s.m.released = false → (partOf s.m s.m.bridlePart).jstate = .running →
        Gives (.barrierLineSample true) s (fun m' => m'.stuckHigh = true ∧
          (partOf m' s.m.bridlePart).causes.map (·.cause) = (partOf s.m s.m.bridlePart).causes.map (·.cause) ++ [0x10])) ∧
      (∀ t, s.m.released = true → s.m.releasedAt = some t → tickReached s.m (t + BitVec.ofNat 48 s.m.bridleTimeout) = true →
        Gives .bridleTimeout s (fun m' => m'.timeoutEvent = true ∧
          (partOf m' s.m.bridlePart).causes.map (·.cause) = (partOf s.m s.m.bridlePart).causes.map (·.cause) ++ [0x10]))) ∧
    (s.pending = [] → s.m.box.running = none → s.m.phase = 479 → s.m.lineLow = true → ∃ m' : Mod, step s = .next { s with m := m' } ∧ m'.phase = 480 ∧
      m'.released = false ∧ m'.lineLow = false ∧ Out.barrier false ∈ m'.out)

/-- Link beats are counted, delayed and taken in sequence, ACK frees and NAK replays. On a port that is UP: a beat corrected at once or
decoded a second time is counted; one decoded a second time, or that follows such a one too soon, is taken later, by the re-decode delay;
one that cannot be decoded at all is then asked for again with NAK of the SEQ expected. Of the beats taken one out of sequence changes
nothing; the expected one advances the SEQ expected: a compiled beat enters its port, where it is held before its exchange phase, or waits
out an emergency stop; the first beat of a packet begins the packet. LINK_ACK_TIMER acknowledges the last beat taken. ACK frees the beats
up to the one named; NAK sends the beats from the one named again, those for which the link has slots at once, the others after them, and
a fourth NAK for the same beat puts the port in FAULT; in an emergency stop NAK waits. A step on an empty queue is one cycle (log entry
2); what waits out a stop, and the SEQ that ACK and NAK carry, are the model's readings (log entries 6, 49). (R375, R378, R379, R380) -/
def Obligations.LinkLayer : Prop :=
  ∀ (q : PortId) (s : State) (y : Port), y = portOf s.m q.val → y.state = .up →
    (∀ (hdr : W64) (body : List W32) (fec : FecResult), beatOk body = true →
      (fec = .redecoded ∨ fec = .failed → ∀ due, due = beatDueAt q.val true s.m →
        (y.beatAt ≠ srcNow s.m → srcNow s.m + redecodeDelay q.val ≤ due ∧ y.beatDue + redecodeDelay q.val < due) ∧
        (srcNow s.m < due →
          Gives (.linkBeat q fec hdr body) s (fun m' => (portOf m' q.val).redecodes = satAdd 16 y.redecodes 1 ∧
            (portOf m' q.val).corrected = y.corrected ∧ (portOf m' q.val).recvSeq = y.recvSeq ∧ (portOf m' q.val).beatDue = due ∧
            (portOf m' q.val).delayed = y.delayed ++ [(due, fec == .failed, ⟨hdr, body⟩)] ∧ m'.out = s.m.out))) ∧
      (fec = .clean ∨ fec = .corrected → ∀ due n, due = beatDueAt q.val false s.m →
        n = (if fec = .corrected then satAdd 32 y.corrected 1 else y.corrected) →
        (srcNow s.m < due → Gives (.linkBeat q fec hdr body) s (fun m' => (portOf m' q.val).corrected = n ∧
          (portOf m' q.val).redecodes = y.redecodes ∧ (portOf m' q.val).recvSeq = y.recvSeq ∧
          (portOf m' q.val).delayed = y.delayed ++ [(due, false, ⟨hdr, body⟩)] ∧ m'.out = s.m.out)) ∧
        (due ≤ srcNow s.m →
          (hdrSeq hdr ≠ y.recvSeq → Gives (.linkBeat q fec hdr body) s (fun m' => (portOf m' q.val).corrected = n ∧
            (portOf m' q.val).recvSeq = y.recvSeq ∧ (portOf m' q.val).delayed = y.delayed ∧ (portOf m' q.val).held = y.held ∧
            (portOf m' q.val).asm = y.asm ∧ m'.out = s.m.out ∧ m'.stopped = s.m.stopped)) ∧
          (hdrSeq hdr = y.recvSeq → hdrClass hdr = clsCompiled → s.m.power.active = true →
            Gives (.linkBeat q fec hdr body) s (fun m' => (portOf m' q.val).recvSeq = (y.recvSeq + 1) % 65536 ∧
              m'.stopped = s.m.stopped ++ [.inboundBeat q (hdr.extractLsb' 0 16) (hdr.extractLsb' 16 4) body])) ∧
          (hdrSeq hdr = y.recvSeq → hdrClass hdr = clsCompiled → y.assigned = true → stepRuns y.part s.m → (partOf s.m y.part).xphase = .compute →
            inValid (inboundEntry s.m q.val (hdr.extractLsb' 0 16).toNat) = true → y.held.length < 256 →
            stepIndex (partOf s.m y.part) ≤ inboundIndex (inboundEntry s.m q.val (hdr.extractLsb' 0 16).toNat) →
            Gives (.linkBeat q fec hdr body) s (fun m' => (portOf m' q.val).recvSeq = (y.recvSeq + 1) % 65536 ∧
              (portOf m' q.val).corrected = n ∧
              (portOf m' q.val).held = y.held ++ [((hdr.extractLsb' 0 16).toNat, (hdr.extractLsb' 16 4).toNat, body)])) ∧
          (hdrSeq hdr = y.recvSeq → hdrClass hdr = clsReduction ∨ hdrClass hdr = clsDma → hdr.getLsbD 44 = true → hdr.getLsbD 43 = false →
            Gives (.linkBeat q fec hdr body) s (fun m' => (portOf m' q.val).recvSeq = (y.recvSeq + 1) % 65536 ∧
              (portOf m' q.val).corrected = n ∧ mget [] (portOf m' q.val).asm (hdrClass hdr) = [(hdrSeq hdr, body)]))))) ∧
    (∀ (c : Nat) (b : LinkBeat), y.delayed = [(c, true, b)] → c ≤ srcNow s.m → linksQuiet q.val s.m → s.pending = [] → s.m.phase < 639 →
      ∃ m' : Mod, step s = .next { s with m := m' } ∧ (portOf m' q.val).delayed = [] ∧ (portOf m' q.val).recvSeq = y.recvSeq ∧
        Out.sym q.val symNak 0 (BitVec.ofNat 32 y.recvSeq) 0 ∈ m'.out) ∧
    Gives (.linkAckTimer q) s (fun m' => m'.out = s.m.out ++ [.sym q.val symAck 0 (BitVec.ofNat 32 ((y.recvSeq + 65535) % 65536)) 0]) ∧
    (∀ (seq : BitVec 16) (a b : List LinkBeat) (x : LinkBeat), y.replay = a ++ x :: b → hdrSeq x.hdr = seq.toNat →
      (∀ z, z ∈ a → hdrSeq z.hdr ≠ seq.toNat) →
      Gives (.ack q seq) s (fun m' => (portOf m' q.val).replay = b ∧ (portOf m' q.val).state = .up) ∧
      (s.m.power.active = true → Gives (.nak q seq) s (fun m' => m' = { s.m with stopped := s.m.stopped ++ [.nak q seq] })) ∧
      (s.m.power.active = false →
        (y.replayedSeq ≠ seq.toNat ∨ y.replayCount < 3 →
          Gives (.nak q seq) s (fun m' => (portOf m' q.val).replays = satAdd 8 y.replays 1 ∧
            (y.waiting = [] → (portOf m' q.val).replay = y.replay ∧ ∃ n, (portOf m' q.val).resend = (x :: b).drop n ∧
              m'.out = s.m.out ++ ((x :: b).take n).map (fun z => .link q.val z.hdr z.body) ∧
              (linkRoom q.val (srcNow s.m) (y.sentCompiled != srcNow s.m + 1) y.sent = true → 1 ≤ n)))) ∧
        (y.replayedSeq = seq.toNat → 3 ≤ y.replayCount →
          Gives (.nak q seq) s (fun m' => (portOf m' q.val).state = .fault ∧ (portOf m' q.val).faults = satAdd 16 y.faults 1))))

/-- READY, GO, SLIP, FAULT, FAIL, ABANDON and echoes act on the partition they name. READY from a downstream port is kept. From upstream,
for the event that is due next: GO lets it happen, SLIP moves every tick to come by 16, FAULT abandons the step with SLIP_LIMIT; ABANDON
of the running step abandons it; each goes on downstream. FAIL is relayed upstream, and on the system master orders ABANDON at the next
tick; of a job that the master does not run itself the first FAIL of a step orders ABANDON for the next tick, for a step whose commit has
its GO that of the following step after the commit's tick, and a second one within two delays D orders none (log entry 137);
TICK_COUNTER_ADVANCE sends what is due. ECHO_REQ is answered; an ECHO_REPLY is measured, 256 times in training, the next request leaving
with each (log entry 135). (R42, R44, R383, R387, R388, R390, R397, R399, R495) -/
def Obligations.SymbolsAct : Prop :=
  ∀ (q : PortId) (y : Sym) (s : State),
    (∀ p : Nat, symPart s.m y.jobTag = some p →
      (symOpen s.m q.val = true → (downPorts s.m).contains q.val = true → (y.seq - (partOf s.m p).superstep).toNat < 2 ^ 31 →
        Gives (.ready q y) s (fun m' => (y.seq.toNat, q.val) ∈ (partOf m' p).readyFrom)) ∧
      (fromUp s.m q.val = true → decides s.m p y.seq = true →
        Gives (.go q y) s (fun m' => ((partOf m' p).goFor = some y.seq ∨ (partOf m' p).goNext = some y.seq) ∧
          (∀ e, nextEvent (partOf s.m p) = some e → if (partOf s.m p).goFor = some (eventSeq (partOf s.m p) e) then
            (partOf m' p).goFor = (partOf s.m p).goFor ∧ (partOf m' p).goNext = some y.seq else (partOf m' p).goFor = some y.seq) ∧
          sentDown symGo y.jobTag y.seq y.arg s.m m') ∧
        Gives (.slip q y) s (fun m' => partOf m' p = slipSchedule (partOf s.m p) ∧ sentDown symSlip y.jobTag y.seq y.arg s.m m') ∧
        (s.m.power.active = false → Gives (.fault q y) s (fun m' => (partOf m' p).stepFailed = true ∧ (partOf m' p).rstate = .abandoning ∧
          ((partOf s.m p).rstate = .running → (partOf m' p).faultWord = 0x9FFF000D) ∧ sentDown symFault y.jobTag y.seq y.arg s.m m'))) ∧
      (fromUp s.m q.val = true → s.m.power.active = false → y.seq = (partOf s.m p).stepNum →
        Gives (.abandon q y) s (fun m' => (partOf m' p).stepFailed = true ∧ (partOf m' p).rstate = .abandoning ∧
          (partOf m' p).ta = nearestTick s.m s.m.masterDelay ∧ sentDown symAbandon y.jobTag y.seq y.arg s.m m')) ∧
      (symOpen s.m q.val = true → (downPorts s.m).contains q.val = true → s.m.role = roleMaster → y.seq = (partOf s.m p).stepNum →
        (partOf s.m p).goSentCommit ≠ some y.seq → (partOf s.m p).failSeen ≠ some y.seq → (partOf s.m p).abandonDue = none →
        Gives (.fail q y) s (fun m' => (partOf m' p).abandonDue = some (y.seq, y.arg.toNat, s.m.tick + 1)))) ∧
    (symOpen s.m q.val = true → (downPorts s.m).contains q.val = true → s.m.role ≠ roleMaster → s.m.upstream ≤ 50 →
      symOpen s.m s.m.upstream = true →
      Gives (.fail q y) s (fun m' => m'.out = s.m.out ++ [.sym s.m.upstream symFail y.jobTag y.seq y.arg])) ∧
    (symOpen s.m q.val = true → (downPorts s.m).contains q.val = true → s.m.role = roleMaster → runsJob s.m y.jobTag = false →
      ∀ o : OtherJob, o = mget {} s.m.others y.jobTag.toNat →
      (o.failed = none → (∀ c, o.commit = some c → c.1 ≠ y.seq) → Gives (.fail q y) s (fun m' => mget {} m'.others y.jobTag.toNat =
        { o with failed := some (y.seq, s.m.tick + 1), abandon := some (y.seq, y.arg, s.m.tick + 1) })) ∧
      (∀ t, o.failed = none → o.abandon = none → o.commit = some (y.seq, t) → Gives (.fail q y) s (fun m' =>
        (mget {} m'.others y.jobTag.toNat).abandon =
          some (y.seq + 1, y.arg ||| 0x40000000, if tickReached s.m t then s.m.tick + 1 else t + 1))) ∧
      (∀ t, o.failed = some (y.seq, t) → tickReached s.m (t + BitVec.ofNat 48 (2 * ((reportMax s.m + 639) / 640) + 1)) = false →
        Gives (.fail q y) s (fun m' => m' = s.m))) ∧
    (∀ (o : OtherJob) (seq w : W32) (t : BitVec 48), s.m.role = roleMaster → s.m.power.active = false → linksBusy s.m = false → s.m.syncing = none →
      s.m.box.running = none → (∀ x, x ∈ s.m.parts → x.2.ending = none) → (y.jobTag.toNat, o) ∈ s.m.others → o.abandon = some (seq, w, t) →
      tickReached { s.m with tick := s.m.tick + 1, phase := 0 } t = true →
      Gives .tickCounterAdvance s (sentDown symAbandon y.jobTag seq (wireWord w) s.m)) ∧
    (∀ w : W32, symOpen s.m q.val = true →
      Gives (.echoReq q w) s (fun m' => ∃ v : W32, m'.out = s.m.out ++ [.sym q.val symEchoReply 0 0 v])) ∧
    (∀ rt ta : Nat,
      ((portOf s.m q.val).state = .training → (portOf s.m q.val).echoes = true → (portOf s.m q.val).echoCount < 256 → Gives (.echoReply q rt ta) s (fun m' =>
        (portOf m' q.val).echoMax = Nat.max (portOf s.m q.val).echoMax (rt - ta) ∧ (portOf m' q.val).echoCount = (portOf s.m q.val).echoCount + 1 ∧
        ((portOf s.m q.val).echoCount + 1 < 256 → ∃ v : W32, m'.out = s.m.out ++ [.sym q.val symEchoReq 0 0 v]))) ∧
      ((portOf s.m q.val).state = .up → Gives (.echoReply q rt ta) s (fun m' => (portOf m' q.val).tickDelay16 = (rt - ta) / 2 ∧
        ((s.m.syncing ≠ none → s.m.role = rolePeer → q.val ≠ s.m.upstream) → m'.hopDelay = if s.m.syncing ≠ none ∧ s.m.role = roleBoard ∧ q.val = s.m.upstream then (rt - ta) / 2 % 2 ^ 16 else s.m.hopDelay))))

/-- A step fault is recorded and reported; abandonment, restart, the end and the scrub follow. STEP_FAULT takes the oldest cause: the
first of a running step is recorded with its word, step, tick and phase, and the partition abandons; a later one sets MULTI.
ABANDON_BROADCAST and LATE_ABANDON at the system master abandon the step, with ABANDON sent down. ABANDON_LOST ends the job with cause
ABANDON_LOST, at once if its engines are idle and its halves run at 800 MHz. ABANDON_DRAIN_COMPLETE counts the attempt, sets MULTI if a
cause is still to be taken, returns to the first superstep of the step, resets the tile cores and waits for the restart; RESTART starts
the tiles at START_PC, and a FAIL of that step counts anew (log entry 138). SCRUB_COMPLETE leaves the tiles' registers and memories zero,
counts the scrub and gives the partition its last state. (R396, R397, R398, R400, R401, R403, R404, R414) -/
def Obligations.RecoveryEvents : Prop :=
  ∀ (p : PartId) (s : State) (x : Part), x = partOf s.m p.val → s.m.power.active = false →
    (∀ (c : Cause) (rest : List Cause), x.causes = c :: rest → x.jstate = .running →
      (x.rstate = .running → Gives (.stepFault p) s (fun m' => (partOf m' p.val).rstate = .abandoning ∧ (partOf m' p.val).faultWord = faultWordOf c ∧
        (partOf m' p.val).faultStep = x.stepNum ∧ (partOf m' p.val).faultTick = c.tick ∧ (partOf m' p.val).faultPhase = c.phase ∧
        (partOf m' p.val).faultValid = true ∧
        ((∀ t, t ∈ tilesOfPart s.m p.val → (bundleBase (tileOf s.m t)).faultsDue = []) → (partOf m' p.val).causes = rest))) ∧
      (x.rstate ≠ .running → Gives (.stepFault p) s (fun m' => (partOf m' p.val).multi = true ∧ (partOf m' p.val).causes = rest ∧
        (partOf m' p.val).faultWord = x.faultWord))) ∧
    (s.m.role = roleMaster → x.jstate = .running → x.stepFailed = false →
      (∀ w t, x.abandonDue = some (x.stepNum, w, t) → tickReached s.m t = true →
        Gives (.abandonBroadcast p) s (fun m' => (partOf m' p.val).stepFailed = true ∧ (partOf m' p.val).rstate = .abandoning ∧
          (partOf m' p.val).ta = s.m.tick ∧ (partOf m' p.val).abandonDue = none ∧
          sentDown symAbandon x.tag x.stepNum (wireWord (BitVec.ofNat 32 w)) s.m m')) ∧
      (∀ w t seq, x.lateDue = some (w, t) → x.goSentCommit = some seq → x.stepNum = seq + 1 → tickReached s.m (x.commitTick + 1) = true →
        tickReached s.m t = true →
        Gives (.lateAbandon p) s (fun m' => (partOf m' p.val).stepFailed = true ∧ (partOf m' p.val).lateDue = none ∧
          sentDown symAbandon x.tag x.stepNum (wireWord (BitVec.ofNat 32 w)) s.m m'))) ∧
    (∀ t, x.failSentAt = some t → x.jstate = .running → x.stepFailed = false → x.ending = none →
      tickReached s.m (t + BitVec.ofNat 48 x.restartLead) = true →
      Gives (.abandonLost p) s (fun m' => (partOf m' p.val).abandonLost = true ∧ (partOf m' p.val).endCause = 4 ∧
        (dmasQuiet p.val s.m → x.retain = false → (partOf m' p.val).jstate = .scrubbing))) ∧
    (x.stepFailed = true → x.jstate = .running → x.rstate = .abandoning → x.ending = none → x.retrained = false → enginesIdle p.val s.m →
      (∀ t, t ∈ tilesOfPart s.m p.val → dmaIdle s.m (tdOf s.m t) = true) → (∀ q, q ∈ portsOf s.m p.val → (portOf s.m q).state = .up ∧ (portOf s.m q).delayBad = false) →
      halvesFull s.m p.val = true →
      x.stepAttempt < 65535 → x.stepAttempt + 1 < x.attemptLimit →
      Gives (.abandonDrainComplete p) s (fun m' => (partOf m' p.val).rstate = .restartWait ∧ (partOf m' p.val).superstep = x.stepFirst ∧
        (partOf m' p.val).stepAttempt = x.stepAttempt + 1 ∧ (partOf m' p.val).stepNum = x.stepNum ∧ (partOf m' p.val).causes = [] ∧
        (partOf m' p.val).multi = (x.multi || !x.causes.isEmpty) ∧
        ∀ t, t ∈ tilesOfPart s.m p.val → (tdOf m' t).st = .idle ∧ (tdOf m' t).pc = (tdOf s.m t).startPc ∧ (∀ r, getS (tdOf m' t) r = 0) ∧
          ∀ w, wgbWord (tdOf m' t) w = 0)) ∧
    (x.rstate = .restartWait → x.jstate = .running → tickReached s.m x.restartTick = true → x.ckpt = none →
      x.sched.all (fun e => e.kind != .clockFixed && e.kind != .clockOptional) = true →
      Gives (.restart p) s (fun m' => (partOf m' p.val).rstate = .running ∧ (partOf m' p.val).stepFailed = false ∧ (partOf m' p.val).failSeen = none ∧
        ∀ t, t ∈ tilesOfPart s.m p.val → (tdOf s.m t).st = .idle → (tdOf s.m t).stopDue = false →
          (tdOf m' t).st = .running ∧ (tdOf m' t).pc = (tdOf s.m t).startPc)) ∧
    (∀ last cause, x.rstate = .scrubbing → x.endAs = some (last, cause) → x.ending = none → enginesIdle p.val s.m →
      Gives (.scrubComplete p) s (fun m' => (partOf m' p.val).jstate = last ∧ (partOf m' p.val).endAs = none ∧
        (partOf m' p.val).scrubs = satAdd 16 x.scrubs 1 ∧ (partOf m' p.val).endCause = x.endCause ∧
        ∀ t, t ∈ tilesOfPart s.m p.val → (∀ r, getS (tdOf m' t) r = 0) ∧ (∀ a, spWord (tdOf m' t) a = 0) ∧ (tdOf m' t).imem = [] ∧
          (∀ w, wgbWord (tdOf m' t) w = 0) ∧ (tdOf m' t).st = .idle))

/-- PUT, GET and their answers reach scratchpads only through windows. A PUT of a whole packet that an open window of the tile allows
writes its payload and no other word, and the last one of a TRAILING descriptor increments its signal; one that no window allows counts in
DENIED and changes no word. A GET that a window allows is answered at the port of the forwarding entry. Data of a GET lands in the issuing
tile and counts towards its descriptor; an acknowledgement counts towards its PUT; a refusal marks the descriptor, which stays, and
signals WINDOW_DENIED (which descriptor an answer belongs to: log entry 43; which packet is the last: log entry 130). The oldest
descriptor of an engine completes once it is answered, and its signal increments. (R185, R201, R202, R206, R265, R381) -/
def Obligations.RemoteAccess : Prop :=
  ∀ (q : PortId) (k : DmaPkt) (s : State),
    (∀ t o, dmaHere true q k s.m → scratchTile k.addr.toNat k.length.toNat = some (t, o) → noBeatToRead t s.m = true →
      (tdOf s.m t).faultsDue = [] → notWaiting t s.m →
      Gives (.putData q k) s (fun m' =>
        if winAllows s.m t k.jobTag.toNat o k.length.toNat true = true then
          wordsLand t o k.payload s.m m' ∧ mget 0 (tdOf m' t).sigs k.signal.toNat =
            if k.mode = 1 ∧ k.last = true then satAdd 16 (mget 0 (tdOf s.m t).sigs k.signal.toNat) 1 else mget 0 (tdOf s.m t).sigs k.signal.toNat
        else (tdOf m' t).denied = satAdd 8 (tdOf s.m t).denied 1 ∧ (tdOf m' t).scratch = (tdOf s.m t).scratch)) ∧
    (∀ a, dmaHere true q k s.m → scratchTile k.addr.toNat k.length.toNat = none → k.addr.toNat + k.length.toNat ≤ dramEnd → a = k.addr.toNat →
      Gives (.putData q k) s (fun m' => ∃ r : RemoteAcc, (portOf m' q.val).remote = (portOf s.m q.val).remote ++ [r] ∧ r.pkt = k ∧ r.get = false ∧
        r.pieces = splitPieces 18 a k.length.toNat 0)) ∧
    (∀ t o p, dmaHere false q k s.m → scratchTile k.addr.toNat k.length.toNat = some (t, o) → (tdOf s.m t).spBad = [] →
      Gives (.getRequest q k) s (fun m' =>
        (tdOf m' t).scratch = (tdOf s.m t).scratch ∧
        if winAllows s.m t k.jobTag.toNat o k.length.toNat false = true then
          forwardPort s.m k.srcModule.toNat = some p → (portOf s.m p).state = .up → (portOf s.m p).assigned = true →
          (portOf s.m p).part = (portOf s.m q.val).part →
            beatAtPort p clsDma true (padBeat (dmaHeader opGetData { k with
              destModule := k.srcModule, srcModule := BitVec.ofNat 16 s.m.moduleNum, hops := 0 })) m'
        else (tdOf m' t).denied = satAdd 8 (tdOf s.m t).denied 1)) ∧
    (∀ x : DmaDesc, (tdOf s.m k.srcTile.toNat).dmaq = [x] → x.dest = k.srcModule.toNat → x.answered < x.length →
      (dmaHere true q k s.m → x.put = false → x.loc % 4 = 0 → x.answered % 4 = 0 → k.payload.length ≤ (x.length - x.answered) / 4 →
        noBeatToRead k.srcTile.toNat s.m = true → (tdOf s.m k.srcTile.toNat).faultsDue = [] →
        Gives (.getData q k) s (fun m' => wordsLand k.srcTile.toNat (x.loc + x.answered) k.payload s.m m' ∧
          (tdOf m' k.srcTile.toNat).dmaq = [{ x with answered := x.answered + k.length.toNat }])) ∧
      (dmaHere false q k s.m → x.put = true → x.trailing = false →
        Gives (.dmaAck q k) s (fun m' => (tdOf m' k.srcTile.toNat).dmaq = [{ x with answered := x.answered + k.length.toNat }])) ∧
      (∀ p, dmaHere false q k s.m → x.signal = k.signal.toNat → partOfTile s.m k.srcTile.toNat = some p →
        Gives (.deny q k) s (fun m' => (tdOf m' k.srcTile.toNat).dmaq =
            [{ x with answered := x.answered + k.length.toNat, denied := true }] ∧
          (partOf m' p).causes.map (·.cause) = (partOf s.m p).causes.map (·.cause) ++ [0x09]))) ∧
    (∀ (t : TileId) (x : DmaDesc) (r : List DmaDesc), (tdT t s.m).dmaq = x :: r → clockRuns s.m t.val = true → notWaiting t.val s.m →
      Gives (.dmaCompletion t) s (fun m' =>
        if dmaDone x then (tdT t m').dmaq = r ∧ mget 0 (tdT t m').sigs x.signal = satAdd 16 (mget 0 (tdT t s.m).sigs x.signal) 1
        else m' = s.m))

/-- Burst requests are arbitrated and served; stream data lands and acknowledges. A READ piece that a channel grants once its boundary has
come answers with the words of its burst, a WRITE piece writes its words to DRAM and no others, or to its burst and to the copied burst of
a moving page, which is written a second time; a remote access of a port is checked against the windows burst by burst, refused or queued
at its channel with a tile's rank, and the grant of its last burst answers it; a Winch read copies its burst; with no locked sequence open
a request of Gondola goes before one of a higher rank; a losing request presents again once its back-off is over; a maintenance window
opens once it is due, outside a locked sequence, and takes 48 stack cycles. A Gondola request, one at a time at a channel, and a READ
piece of a mapped page of the tile's partition join the channel that homes their burst. The data of an answered READ piece of a linear
descriptor lands in the scratchpad and nowhere else; an acknowledgement of a WRITE piece counts its bytes. (R274, R275, R278, R284, R285, R286, R292, R293, R294, R300) -/
def Obligations.StreamsAndStacks : Prop :=
  ∀ s : State,
    (∀ (a : BitVec 48) (b : Nat), isMapped (pageOf s.m (a.toNat / 0x200000)) = true → a.toNat < dramEnd →
      b = pageBurst s.m (a.toNat / 0x200000) (a.toNat % 0x200000 / 256) →
      Gives (.stackRequest (.gondola a)) s (fun m' =>
        if (chanOf s.m (burstStack b) (burstChan b)).reqs.any (fun r => r.rank == 1) = true then m' = s.m
        else ∃ r : Req, r.rank = 1 ∧ r.burst = b ∧ (chanOf m' (burstStack b) (burstChan b)).reqs = (chanOf s.m (burstStack b) (burstChan b)).reqs ++ [r])) ∧
    (∀ (t : TileId) (k b : Nat) (y : PieceAt), clockRuns s.m t.val = true → inFlight (tdT t s.m) < 128 →
      nth? (piecesWhere (tdT t s.m) (fun e x => x.st == .unsent && !e.reel)) k = some y → firstUnsent y.e y.k = true →
      dOp y.e.words = 1 → dReg y.e.words = false → isMapped (pageOf s.m (y.x.addr / 0x200000)) = true → partOfTile s.m t.val = some (pageOf s.m (y.x.addr / 0x200000)).part →
      engineEnds (partOf s.m (pageOf s.m (y.x.addr / 0x200000)).part) = false →
      b = pageBurst s.m (y.x.addr / 0x200000) (y.x.addr % 0x200000 / 256) →
      Gives (.stackRequest (.stream t k)) s (fun m' => ∃ r : Req, r.rank = 3 ∧ r.index = t.val * 16 + y.q ∧ r.burst = b ∧
        (chanOf m' (burstStack b) (burstChan b)).reqs = (chanOf s.m (burstStack b) (burstChan b)).reqs ++ [r])) ∧
    (∀ (n : StackId) (ch : Fin 16) (r : Req) (t q no k : Nat) (e : Desc) (x : Piece), (chanOf s.m n.val ch.val).reqs = [r] →
      r.what = .stream t q no k → r.second = false → r.rank = 3 → (queueOf (tdOf s.m t) q).descs = [e] → e.no = no →
      nth? e.pieces k = some x → eccMarks s.m r.burst 2 = [] → turnDue (chanOf s.m n.val ch.val) s.m →
      (dOp e.words = 1 → Gives (.channelGrant n ch) s (fun m' => (queueOf (tdOf m' t) q).descs.map (fun d => nth? d.pieces k) =
        [some { x with st := .answered
                       data := ((serveWords s.m (x.addr / 0x200000) (x.addr % 0x200000 / 256) (burstWords s.m r.burst)).drop
                         (x.addr % 256 / 4)).take (x.len / 4) }])) ∧
      (dOp e.words = 2 → recordShard s.m (x.addr / 0x200000) (x.addr % 0x200000 / 256) = none → mwf 0 s.m.dram = true → x.addr % 4 = 0 →
        x.data ≠ [] → x.addr % 256 + 4 * x.data.length ≤ 256 →
        (forwardTo s.m r.burst = none → Gives (.channelGrant n ch) s (fun m' => ∀ w, mget 0 m'.dram w =
          if 64 * r.burst + x.addr % 256 / 4 ≤ w ∧ w < 64 * r.burst + x.addr % 256 / 4 + x.data.length then
            nth 0 x.data (w - (64 * r.burst + x.addr % 256 / 4)) else mget 0 s.m.dram w)) ∧
        (∀ d, forwardTo s.m r.burst = some d → d ≠ r.burst → Gives (.channelGrant n ch) s (fun m' =>
          (∃ z ∈ (chanOf m' (burstStack d) (burstChan d)).reqs, z.what = r.what ∧ z.burst = d ∧ z.second = true) ∧
          ∀ i, i < 64 → ∀ b, b = r.burst ∨ b = d → mget 0 m'.dram (64 * b + i) =
            if x.addr % 256 / 4 ≤ i ∧ i < x.addr % 256 / 4 + x.data.length then nth 0 x.data (i - x.addr % 256 / 4)
            else mget 0 s.m.dram (64 * b + i))))) ∧
    (∀ (q : PortId) (k i : Nat) (r : RemoteAcc) (y : Piece), portHeld s.m q.val = false → nth? (remoteUnsent (portOf s.m q.val)) k = some (r, i, y) →
      Gives (.stackRequest (.remote q k)) s (fun m' =>
        if dwinAllows s.m r.pkt.jobTag.toNat (!r.get) y.addr y.len = true then
          ∃ z : Req, z.rank = 3 ∧ z.index = 81920 + q.val ∧ z.what = .remote q.val r.no i ∧
            z.burst = pageBurst s.m (y.addr / 0x200000) (y.addr % 0x200000 / 256) ∧
            (chanOf m' (burstStack z.burst) (burstChan z.burst)).reqs = (chanOf s.m (burstStack z.burst) (burstChan z.burst)).reqs ++ [z]
        else m'.winDenied = satAdd 32 s.m.winDenied 1 ∧ m'.dram = s.m.dram)) ∧
    (∀ (n : StackId) (ch : Fin 16) (r : Req) (q : PortId) (no o : Nat) (a : RemoteAcc) (x : Piece), (chanOf s.m n.val ch.val).reqs = [r] →
      r.what = .remote q.val no 0 → r.second = false → r.rank = 3 → (portOf s.m q.val).remote = [a] → a.no = no → a.pieces = [x] → x.err = 0 →
      eccMarks s.m r.burst 2 = [] → turnDue (chanOf s.m n.val ch.val) s.m → portHeld s.m q.val = false →
      forwardPort s.m a.pkt.srcModule.toNat = some o → (portOf s.m o).state = .up → (portOf s.m o).assigned = true →
      (portOf s.m o).part = (portOf s.m q.val).part →
      (a.get = true → Gives (.channelGrant n ch) s (fun m' => (portOf m' q.val).remote = [] ∧
        beatAtPort o clsDma true (padBeat (dmaHeader opGetData { a.pkt with
          destModule := a.pkt.srcModule, srcModule := BitVec.ofNat 16 s.m.moduleNum, hops := 0 })) m')) ∧
      (a.get = false → a.pkt.mode = 0 → recordShard s.m (x.addr / 0x200000) (x.addr % 0x200000 / 256) = none → forwardTo s.m r.burst = none →
        mwf 0 s.m.dram = true → x.addr % 4 = 0 → x.off = 0 → 0 < x.len → x.len = 4 * a.pkt.payload.length → x.addr % 256 + x.len ≤ 256 →
        Gives (.channelGrant n ch) s (fun m' => (portOf m' q.val).remote = [] ∧
          beatAtPort o clsDma true (padBeat (dmaHeader opAck { a.pkt with
            destModule := a.pkt.srcModule, srcModule := BitVec.ofNat 16 s.m.moduleNum, hops := 0, payload := [] })) m' ∧
          ∀ w, mget 0 m'.dram w =
            if 64 * r.burst + x.addr % 256 / 4 ≤ w ∧ w < 64 * r.burst + x.addr % 256 / 4 + a.pkt.payload.length then
              nth 0 a.pkt.payload (w - (64 * r.burst + x.addr % 256 / 4)) else mget 0 s.m.dram w))) ∧
    (∀ (n : StackId) (ch : Fin 16) (r : Req) (page k : Nat), (chanOf s.m n.val ch.val).reqs = [r] → r.what = .winchRead page k → r.rank = 5 →
      s.m.power.active = false → turnDue (chanOf s.m n.val ch.val) s.m → mwf 0 s.m.dram = true → destBurst s.m page k ≠ r.burst →
      Gives (.channelGrant n ch) s (fun m' => ∀ i, i < 64 →
        mget 0 m'.dram (64 * destBurst s.m page k + i) = mget 0 s.m.dram (64 * r.burst + i) ∧
        mget 0 m'.dram (64 * r.burst + i) = mget 0 s.m.dram (64 * r.burst + i))) ∧
    (∀ (n : StackId) (ch : Fin 16) (x y : Req), (chanOf s.m n.val ch.val).reqs = [x, y] → y.what = .gondola → y.rank = 1 → 1 < x.rank →
      s.m.power.active = false → (chanOf s.m n.val ch.val).lockLeft = 0 → turnDue (chanOf s.m n.val ch.val) s.m → x.presentAt ≤ (chanOf s.m n.val ch.val).boundary → y.presentAt ≤ (chanOf s.m n.val ch.val).boundary →
      Gives (.channelGrant n ch) s (fun m' => (chanOf m' n.val ch.val).reqs.map (·.what) = [x.what])) ∧
    (∀ (n : StackId) (ch : Fin 16) (k : Nat) (r : Req), nth? (chanOf s.m n.val ch.val).reqs k = some r →
      Gives (.backoffExpiry n ch k) s (fun m' => nth? (chanOf m' n.val ch.val).reqs k =
        some (if r.presentAt ≤ stackNow s.m then { r with waiting := false } else r))) ∧
    (∀ (n : StackId) (ch : Fin 16), Gives (.maintenanceWindow n ch false) s (fun m' =>
      if stackNow s.m < Nat.max (chanOf s.m n.val ch.val).boundary (chanOf s.m n.val ch.val).maintDue ∨ lockHolds (chanOf s.m n.val ch.val) = true
      then m' = s.m else (chanOf m' n.val ch.val).boundary = Nat.max (chanOf s.m n.val ch.val).boundary (chanOf s.m n.val ch.val).maintDue + 48 ∧
      (chanOf m' n.val ch.val).maintDue = (chanOf s.m n.val ch.val).maintDue + 2048 ∧
      (chanOf m' n.val ch.val).reqs = (chanOf s.m n.val ch.val).reqs ∧ m'.dram = s.m.dram)) ∧
    (∀ (t : TileId) (k : Nat) (y : PieceAt), clockRuns s.m t.val = true →
      nth? (piecesWhere (tdT t s.m) (fun e x => x.st == .answered && dOp e.words == 1)) k = some y → y.x.err = 0 → dReg y.e.words = false →
      dLay y.e.words = 0 → retained s.m t.val = false → (tdT t s.m).faultsDue = [] → (queueOf (tdT t s.m) y.q).descs = [y.e] → (dLocal y.e.words + y.x.off) % 4 = 0 → noBeatToRead t.val s.m = true →
      Gives (.streamReadData t k) s (fun m' => wordsLand t.val (dLocal y.e.words + y.x.off) y.x.data s.m m' ∧
        (tdT t m').bytesIn = satAdd 64 (tdT t s.m).bytesIn y.x.len)) ∧
    (∀ (t : TileId) (k : Nat) (y : PieceAt), clockRuns s.m t.val = true →
      nth? (piecesWhere (tdT t s.m) (fun e x => x.st == .answered && dOp e.words == 2)) k = some y → retained s.m t.val = false →
      Gives (.streamWriteAck t k) s (fun m' => (tdT t m').bytesOut = satAdd 64 (tdT t s.m).bytesOut y.x.len))

/-- Zero fills, flips, frame releases, Reel and NMU starts and shard completions. ZERO_FILL_COMPLETE maps the page of a MAP to its frame
and leaves every word of the frame zero; MOVE_FLIP puts the page in its destination tier and frame, with the words of its source frame: a
burst not copied before is copied by then, one copied before, equal to its source, stays (log entry 40); FRAME_RELEASE frees the frame
once no request is for it, nor for a write forwarded from it. REEL_ACTIVATE puts the entry of the current superstep in its queue, once in
an attempt, or, while that is full, lets it wait for a place; NMU_START begins the shard of the current superstep with its step record,
read at its channel (log entries 39, 112); SHARD_COMPLETE of a shard whose every element is updated makes it STAGED and increments its
signal. (R276, R278, R290, R318, R321, R327) -/
def Obligations.PagesShardsAndReel : Prop :=
  ∀ s : State, s.m.power.active = false →
    (∀ (k pg fr : Nat) (f : Fill), nth? s.m.fills k = some f → f.pages = [(pg, fr)] →
      Gives (.zeroFillComplete k) s (fun m' =>
        pageOf m' pg = { state := if f.tierC then .c else .b, part := f.part, frame := fr } ∧
        (∀ b i, b < 8192 → i < 64 → mget 0 m'.dram (64 * burstNo f.tierC fr b + i) = 0) ∧ m'.pagesDone = satAdd 32 s.m.pagesDone 1 ∧
        m'.fills.length + 1 = s.m.fills.length)) ∧
    (∀ (page : Nat) (v : Mv) (x : Page), s.m.moves.find? (fun w => w.page == page) = some v → x = pageOf s.m page → x.state = .moving →
      mwf 0 s.m.dram = true → (if x.toC then x.frame < framesB else x.dest < framesB) →
      Gives (.moveFlip page) s (fun m' =>
        pageOf m' page = { x with state := if x.toC then .c else .b, toC := false, frame := x.dest, dest := 0 } ∧
        (∀ b i, b < 8192 → i < 64 →
          (isCopied v b = true → mget 0 s.m.dram (64 * destBurst s.m page b + i) = mget 0 s.m.dram (64 * pageBurst s.m page b + i)) →
          mget 0 m'.dram (64 * pageBurst m' page b + i) = mget 0 s.m.dram (64 * pageBurst s.m page b + i)) ∧
        m'.pagesDone = satAdd 32 s.m.pagesDone 1)) ∧
    (∀ (k : Nat) (r : RelFrame), nth? s.m.relFrames k = some r →
      Gives (.frameRelease k) s (fun m' =>
        if anyReq s.m (fun y => (burstTierC y.burst == r.tierC && burstFrame y.burst == r.frame) ||
            (y.second && burstTierC y.burst != r.tierC && burstFrame y.burst == r.dest)) then m' = s.m
        else m'.relFrames.length + 1 = s.m.relFrames.length)) ∧
    (∀ (p : PartId) (e : ReelEnt) (x : Part), x = partOf s.m p.val → x.jstate = .running → x.xphase = .compute → x.stepFailed = false →
      x.reel = [e] → x.reelDone = [] → x.reelWait = [] → bits (dw e.words 8) 31 16 = stepIndex x →
      Gives (.reelActivate p) s (fun m' => (partOf m' p.val).reelDone = [0] ∧ (partOf m' p.val).reel = [{ e with active := e.active + 1 }] ∧
        if 64 ≤ (queueOf (tdOf s.m (reelTile e)) (reelQueue e)).descs.length then
          (partOf m' p.val).reelWait = [0] ∧ (tdOf m' (reelTile e)).queues = (tdOf s.m (reelTile e)).queues
        else (partOf m' p.val).reelWait = [] ∧ (queueOf (tdOf m' (reelTile e)) (reelQueue e)).descs.map (fun d => (d.words, d.reel)) =
          (queueOf (tdOf s.m (reelTile e)) (reelQueue e)).descs.map (fun d => (d.words, d.reel)) ++ [(e.words.take 8, true)])) ∧
    (∀ (p : PartId) (i b : Nat) (h : Shard) (x : Part), x = partOf s.m p.val → x.jstate = .running → x.xphase = .compute →
      x.stepFailed = false → s.m.shards = [(i, h)] → h.valid = true → h.part = p.val → h.algo ≠ 0 → h.start = stepIndex x → h.began = false →
      b = pageBurst s.m h.firstPage 0 → eccMarks s.m b 2 = [] → (chanOf s.m (burstStack b) (burstChan b)).reqs = [] →
      Gives (.nmuStart p) s (fun m' => shardOf m' i = { h with
        began := true, unitsDone := [], stopped := false, recScale := mget 0 s.m.dram (64 * b), recLr := mget 0 s.m.dram (64 * b + 1)
        recBc1 := mget 0 s.m.dram (64 * b + 2), recBc2 := mget 0 s.m.dram (64 * b + 3) })) ∧
    (∀ (i : Fin 16384) (h : Shard), h = shardOf s.m i.val → shardActive h = true → shardUnits h ≤ h.unitsDone.length →
      (∀ u, u < shardUnits h → h.unitsDone.contains u = true) → notWaiting h.tile s.m →
      Gives (.shardComplete i) s (fun m' => (shardOf m' i.val).staged = true ∧ (shardOf m' i.val).gen = h.gen ∧
        mget 0 (tdOf m' h.tile).sigs h.signal = satAdd 16 (mget 0 (tdOf s.m h.tile).sigs h.signal) 1))

/-- Blocks reach their inputs and are summed exactly. A block of a packet, or of a chain, whose context is valid, whose tag and epoch are
those of the job and whose number is in order joins its input with its elements; one of another epoch counts as stale and joins none. A
contribution beat with a valid entry joins LOCAL. BLOCK_SUM of the only job with blocks, all of one number, its route delivering, its
outputs open and its sums within six limbs, appends the exact element sums of the listed inputs to the deliveries. (R337, R342, R345, R346, R347, R348, R349) -/
def Obligations.ReductionFlow : Prop :=
  ∀ (e : PortId) (s : State), s.m.power.active = false →
    (∀ (h : W32) (ws : List W32) (j n : Nat) (tag : BitVec 16) (epoch : BitVec 8), j = bits h.toNat 31 28 → n = bits h.toNat 26 24 → 1 ≤ n → n ≤ 6 →
      ws.length = 8 * n → (ctxOf s.m e.val j).valid = true → (ctxOf s.m e.val j).stopped = false → (ctxOf s.m e.val j).tag = tag.toNat →
      ((ctxOf s.m e.val j).epoch = epoch.toNat →
        (portTakes s.m e.val tag = true → lastBlock (engineOf s.m e.val) inLink j ≤ bits h.toNat 23 0 →
          Gives (.reductionPacket e tag epoch (h :: ws)) s (fun m' => (engineOf m' e.val).link = (engineOf s.m e.val).link ++
            [{ job := j, num := bits h.toNat 23 0, limbs := n, beats := blockBeats n, vals := blockElems n ws }])) ∧
        (fabricHeld s.m (portOf s.m e.val).part = false → s.m.chainBlks = [{ engine := e.val, tag := tag.toNat, epoch := epoch.toNat, hdr := h, words := ws }] →
          lastBlock (engineOf s.m e.val) inChain j ≤ bits h.toNat 23 0 →
          Gives (.chainBlock e 0) s (fun m' => m'.chainBlks = [] ∧ (engineOf m' e.val).chain = (engineOf s.m e.val).chain ++
            [{ job := j, num := bits h.toNat 23 0, limbs := n, beats := blockBeats n, vals := blockElems n ws }]))) ∧
      ((ctxOf s.m e.val j).epoch ≠ epoch.toNat → portTakes s.m e.val tag = true →
        Gives (.reductionPacket e tag epoch (h :: ws)) s (fun m' => (engineOf m' e.val).link = (engineOf s.m e.val).link ∧
          (ctxOf m' e.val j).stale = satAdd 16 (ctxOf s.m e.val j).stale 1))) ∧
    (∀ (c : ContribBeat) (y : Contrib), s.m.contribs = [c] → c.engine = e.val → c.exact = false → y = mget {} (engineOf s.m e.val).contribs c.entry →
      y.valid = true → y.job = c.job → (ctxOf s.m e.val c.job).stopped = false → fabricHeld s.m (portOf s.m e.val).part = false →
      localFill (engineOf s.m e.val) < 256 →
      (∀ p, p < 8 → (partOf s.m p).beats = []) → lastBlock (engineOf s.m e.val) inLocal c.job ≤ (y.first + c.beat) % 2 ^ 24 →
      Gives (.contributionBeat e 0) s (fun m' => m'.contribs = [] ∧ (engineOf m' e.val).locl = (engineOf s.m e.val).locl ++
        [{ job := c.job, num := (y.first + c.beat) % 2 ^ 24, limbs := 0, beats := 1, vals := c.vals }])) ∧
    (∀ (j num first : Nat) (r : Route) (vals : List Int), j < 16 → matchJob (engineOf s.m e.val) j = .ready num r first →
      (∀ i, i < 16 → i ≠ j → matchJob (engineOf s.m e.val) i = .idle) → (ctxOf s.m e.val j).stopped = false → r.deliver = true →
      outputsOpen s.m e.val r (sumLimbs s.m e.val j num r) = true →
      (∀ b, b ∈ (engineOf s.m e.val).link ++ (engineOf s.m e.val).locl ++ (engineOf s.m e.val).chain → b.job = j → b.num = num) →
      vals = (List.range 16).map (fun i => ((listedBlks (engineOf s.m e.val) j num r).map (fun b => nth 0 b.vals i)).foldl (· + ·) 0) →
      limbsOf vals ≤ 6 →
      Gives (.blockSum e) s (fun m' => (engineOf m' e.val).deliver = (engineOf s.m e.val).deliver ++ [(j, r.transfer, r.tag, vals)]))

/-- A COMMAND frame is dropped, refused, answered again or carried out, in that order. For every command of Gondola: while Kiteline is
down or Gondola does not run, the frame has no effect. One with a wrong CRC, a reserved TYPE, or too long is discarded and counted, also
where Gondola runs without serving commands, in which every other has no effect. With HALT asserted it is answered HALT_ASSERTED; while a
command runs, BUSY, and counted; a repetition of the stored command gets the stored response, and is counted. Any other is answered with
its SEQ and opcode, and with BAD_COMMAND where its argument block is not whole or its opcode is not listed; a class without D or L answers
at once (QUOTE waits for its sample; log entries 2 and 107). (R419, R421, R422, R424, R426, R428, R430, R431) -/
def Obligations.MailboxAcceptance : Prop :=
  ∀ (c : Instr) (f : Frame) (o op : Nat) (long : Bool) (s : State), commandRow c = some (f, o, long) → frameOk f = true →
    op = (f.opcode.map (·.toNat)).getD o →
    ((s.m.box.kiteUp = false ∨ gondolaRuns s.m = false) → Gives c s (fun m' => m' = s.m)) ∧
    (s.m.box.kiteUp = true → gondolaRuns s.m = true →
      ((f.crcOk = false ∨ 1048640 < frameLength f ∨ f.ftype = 0 ∨ 6 < f.ftype.toNat) →
        Gives c s (fun m' => m' = { s.m with box := { s.m.box with crcDrops := satAdd 16 s.m.box.crcDrops 1 } })) ∧
      (f.crcOk = true → frameLength f ≤ 1048640 → f.ftype = 1 →
        (served s.m = false → Gives c s (fun m' => m' = s.m)) ∧
        (served s.m = true →
          (s.m.box.halt = true → Gives c s (fun m' =>
            m' = emit (.response { opcode := op, seq := f.seq, status := 5, w := List.replicate 16 0, data := [] }) s.m)) ∧
          (s.m.box.halt = false → s.m.box.st ≠ .idle → Gives c s (fun m' =>
            m' = emit (.busy f.seq op) { s.m with box := { s.m.box with busyRefusals := satAdd 16 s.m.box.busyRefusals 1 } })) ∧
          (∀ r, s.m.box.halt = false → s.m.box.st = .idle → s.m.box.stored = some r → r.seq = f.seq → r.opcode = op → Gives c s (fun m' =>
            m' = emit (.response r) { s.m with box := { s.m.box with duplicates := satAdd 8 s.m.box.duplicates 1 } })) ∧
          (s.m.box.halt = false → s.m.box.st = .idle → (∀ r, s.m.box.stored = some r → r.seq = f.seq → r.opcode ≠ op) → Gives c s (fun m' =>
            (∃ r, answerOf m' = some r ∧ r.opcode = op ∧ r.seq = f.seq ∧
              ((f.w.length ≠ 16 ∨ (f.opcode ≠ none ∧ s.m.bringup = .ready)) → r.status = 2)) ∧
            ((long = false ∨ f.opcode ≠ none) → (f.opcode = none → o ≠ 0x0601) → s.m.power.active = false →
              (f.opcode = none → o = 0x0303 → dmasQuiet (argPart f) s.m ∧ commitDue s.m (argPart f) = false ∧ (partOf s.m (argPart f)).ending = none) →
              m'.box.st = .idle ∧ m'.box.running = none))))))

/-- STATUS_READ, HALT and the Kiteline link act on the mailbox. STATUS_READ with a good CRC is answered with MAILBOX_STATUS and the
progress word in every state of the mailbox; PROGRESS of a running command may have advanced. One with a wrong CRC is discarded and
counted. HALT_N low for 10 us asserts HALT and counts it, before Gondola runs too; a running command is then answered ABORTED, and the
mailbox is IDLE; low for less than 2 us it does nothing, while asserted it changes the pin alone. The pin is high from HALT_RELEASE on;
high for 10 us it ends the assertion. While Kiteline is down events wait; when it comes up they leave in order. (R419, R423, R425, R426, R427, R513, R514, R524) -/
def Obligations.HaltAndKiteline : Prop :=
  ∀ (s : State),
    (s.m.box.kiteUp = true → gondolaRuns s.m = true →
      Gives (.statusRead true) s (fun m' => ∃ (q : Mod) (k n : Nat), s.m.box.progress ≤ k ∧
        (s.m.box.running = none → k = s.m.box.progress ∧ n = s.m.free) ∧
        q = { s.m with free := n, box := { s.m.box with progress := k } } ∧ m' = emit (.status (mailboxStatus q) (progressWord q)) q) ∧
      Gives (.statusRead false) s (fun m' => m' = { s.m with box := { s.m.box with crcDrops := satAdd 16 s.m.box.crcDrops 1 } })) ∧
    (∀ ns k : Nat,
      (10000 ≤ ns → s.m.box.halt = false → Gives (.halt ns k) s (fun m' =>
        (∀ r u, s.m.box.running = some (r, u) → answerWaits r s.m = false → gondolaRuns s.m = true →
          m'.box.st = .idle ∧ m'.box.running = none ∧
          ∃ a, a.opcode = r.opcode ∧ a.seq = r.seq ∧ a.status = 4 ∧ a.data = [] ∧ m'.box.stored = some a) ∧
        (s.m.box.running = none → m' = { s.m with haltRaw := false, box := m'.box, out := m'.out } ∧ m'.box.st = s.m.box.st ∧
          m'.box.halt = true ∧ m'.box.halts = satAdd 8 s.m.box.halts 1))) ∧
      (10000 ≤ ns → s.m.box.halt = true → Gives (.halt ns k) s (fun m' => m' = { s.m with haltRaw := false })) ∧
      (ns < 2000 → Gives (.halt ns k) s (fun m' => m' = s.m)) ∧
      Gives (.haltRelease ns) s (fun m' =>
        m' = { s.m with haltRaw := true, box := { s.m.box with halt := s.m.box.halt && decide (ns < 10000) } })) ∧
    Gives .kitelineDown s (fun m' => m' = { s.m with box := { s.m.box with kiteUp := false } }) ∧
    Gives .kitelineUp s (fun m' =>
      m' = { s.m with out := s.m.out ++ s.m.box.events.map Out.event, box := { s.m.box with kiteUp := true, events := [] } })

/-- The commands that read answer what the module holds, and change nothing else. IDENTIFY returns the identity block; JOB_STATUS the job
status record; CERT_READ a certificate; REG_READ the words of mapped tile registers and memories; MEM_READ words of mapped pages of the
partition; QUOTE counts and holds the quote with the nonce; TICK and LOCK_STATE are sampled once, and the answer is the signed quote with
them; TELEMETRY_READ at the address 0x60 plus the position takes the offset, not the bytes written after it, and sends bytes of the
telemetry map from there; at another address it does nothing. (R431, R433, R439, R449, R458, R459, R516, R526) -/
def Obligations.QueriesAnswer : Prop :=
  ∀ (f : Frame) (s : State) (p : Nat), p = argPart f →
    (accepts f 0x0001 s.m → plainOk f [] = true → s.m.atgen.serial.length = 16 →
      Carries (.identify f) f 0x0001 s (bytesWords (leBytes 8 (moduleShape s.chip).toNat ++ s.m.atgen.serial ++
        leBytes 4 s.m.atgen.runningVersion.toNat ++ leBytes 2 s.m.moduleNum ++ leBytes 1 s.m.position ++ leBytes 1 s.m.role)) [] s.m) ∧
    (∀ x : Part, accepts f 0x0304 s.m → plainOk f [(0, 7)] = true → x = partOf s.m p → x.hash.length = 48 →
      Carries (.jobStatus f) f 0x0304 s [] (leBytes 1 (jobNo x.jstate) ++ leBytes 1 x.endCause ++ leBytes 1 x.profile ++
        leBytes 1 (b2n x.retain + 2 * b2n (covered x) + 4 * b2n x.restoreRequired) ++ leBytes 4 x.owner.toNat ++ leBytes 2 x.tag.toNat ++
        leBytes 2 x.stepAttempt ++ leBytes 4 x.stepNum.toNat ++ leBytes 4 x.superstep.toNat ++
        leBytes 4 (if x.faultValid then x.faultWord.toNat else x.lastFault.toNat) ++ leBytes 6 x.startTick.toNat ++ [0, 0] ++ x.hash ++
        List.replicate 16 0) s.m) ∧
    (accepts f 0x0602 s.m → plainOk f [(0, 15)] = true → arg f 0 ≤ 5 → arg f 0 ≠ 3 →
      Carries (.certRead f) f 0x0602 s [] (mget [] s.m.atgen.certs (arg f 0)) s.m) ∧
    (∀ ws : List W64, accepts f 0x0401 s.m → plainOk f [(1, all32), (2, 0xFFFF), (3, all32), (4, all32)] = true → badWords (arg48 f 1) (arg f 3) = false →
      tileBase ≤ arg48 f 1 → arg48 f 1 + 8 * arg f 3 ≤ tileEnd →
      (wordRun (arg48 f 1) (arg f 3)).map (regWord s.chip s.m) = ws.map some →
      (∀ a, a ∈ wordRun (arg48 f 1) (arg f 3) → retainedOwner s.m a = none) → parityFails s.m (wordRun (arg48 f 1) (arg f 3)) = [] →
      Carries (.regRead f) f 0x0401 s [] (ws.flatMap (fun w => leBytes 8 w.toNat)) s.m) ∧
    (∀ a n b : Nat, accepts f 0x0107 s.m → plainOk f [(0, 7), (1, all32), (2, 0xFFFF), (3, all32)] = true → a = arg48 f 1 → arg f 3 = 4 * n → 1 ≤ n →
      a % 4 = 0 → a % 256 + 4 * n ≤ 256 → a + 4 * n ≤ dramEnd → isMapped (pageOf s.m (a / 0x200000)) = true → (pageOf s.m (a / 0x200000)).part = p →
      b = pageBurst s.m (a / 0x200000) (a % 0x200000 / 256) → (chanOf s.m (burstStack b) (burstChan b)).reqs = [] → eccMarks s.m b 2 = [] → recordShard s.m (a / 0x200000) (a % 0x200000 / 256) = none →
      Gives (.memRead f) s (fun m' => answered f 0x0107 0 [] (wordsBytes (mgets 0 s.m.dram (64 * b + a % 256 / 4) n)) m' ∧ m'.dram = s.m.dram)) ∧
    (accepts f 0x0601 s.m → plainOk f ((List.range 12).map (fun i => (i, all32))) = true → s.m.atgen.serial.length = 16 → f.w.length = 16 →
      Gives (.quote f) s (fun m' => m'.atgen = { s.m.atgen with quoteCount := satAdd 32 s.m.atgen.quoteCount 1 } ∧ m'.box.st = .running ∧
        ∃ q : Quote, m'.box.quote = some q ∧ q.sample = none ∧ q.head.length = 40 ∧ (q.head.drop 8).take 16 = s.m.atgen.serial ∧
          q.tail.take 48 = wordsBytes (f.w.take 12))) ∧
    (∀ (q : Quote) (t : BitVec 48) (l : Lock) (body : List Byte), s.m.box.quote = some q →
      (q.sample = none → (sampleQuote s.m).box.quote = some { q with sample := some (s.m.tick, s.m.lock) } ∧ answerQuote s.m = s.m) ∧
      (q.sample = some (t, l) → body = quoteBody q t l s.m →
        sampleQuote s.m = s.m ∧ (answerQuote s.m).box.quote = none ∧ (answerQuote s.m).box.st = .idle ∧
        (q.head.length = 40 → (body.drop 40).take 7 = leBytes 6 t.toNat ++ leBytes 1 (lockNo l)) ∧
        ∃ a : Resp, (answerQuote s.m).box.stored = some a ∧ a.opcode = 0x0601 ∧ a.seq = s.m.box.seq ∧ a.status = 0 ∧
          a.data = body ++ ecdsaSign s.m.atgen.ikPriv body)) ∧
    (∀ (addr : BitVec 7) (o n k : Nat) (tele : List Byte), firmwareRuns s.m = true → o < 256 → 1 ≤ n →
      tele = leBytes 8 (powerStatus s.m).toNat ++ leBytes 8 (thermalStatus s.m).toNat ++
        leBytes 1 (b2n s.m.power.active + 2 * b2n (s.m.bringup == .ready)) →
      (addr.toNat = 0x60 + s.m.position → Gives (.telemetryRead { addr, offset := o, written := n } k) s (fun m' =>
        m' = emit (.telemetry (n - 1) ((List.range k).map (fun i => nth 0 tele (o + i)))) s.m)) ∧
      (addr.toNat ≠ 0x60 + s.m.position → Gives (.telemetryRead { addr, offset := o, written := n } k) s (fun m' => m' = s.m)))

/-- Numbers, roles, the tick tree, link training and tick acquisition. SET_MODULE_NUM sets a number of at most 9,999 while no job is
loaded. ROLE_CONFIRM makes the module with the master strap at position 0, without upstream, the system master, LOCKED on its own
reference, but one in EXPIRED waits for its TICK_SYNC. SET_TICK_TREE sets UPSTREAM, CHILDREN and the role. LINK_TRAIN puts its ports in
TRAINING; at the next tick the first stages pass (log entry 135): the streams are up, the peer is known, and echoes begin, or the port is
in FAULT where the peer has its own number. LINK_TRAIN_COMPLETE leaves a port whose stages fail, or that lacks one of its 256 echoes,
DOWN, and one whose stages pass UP with half its largest echo as LINK_DELAY. TICK_SYNC begins an acquisition, which its completion ends
with COMMAND_DONE, and which sets MASTER_DELAY and TETHER_HOPS from those of the upstream module (log entry 136). (R383, R384, R385, R393, R431, R494, R495, R496, R498, R499) -/
def Obligations.FabricCommands : Prop :=
  ∀ (f : Frame) (s : State),
    (accepts f 0x0002 s.m → plainOk f [(0, 0x3FFF)] = true → arg f 0 ≤ 9999 → (∀ p, p < 8 → (partOf s.m p).jstate = .none) →
      Carries (.setModuleNum f) f 0x0002 s [] [] { s.m with moduleNum := arg f 0 }) ∧
    (accepts f 0x0003 s.m → plainOk f [] = true → s.m.masterStrap = true → s.m.position = 0 → receivesTick s.m = false → s.m.upstream = 63 →
      breaksLimit s.m 63 s.m.children = false →
      Carries (.roleConfirm f) f 0x0003 s [] [] { s.m with
        role := 2, source := 3, lock := if s.m.lock = .expired then .expired else .locked }) ∧
    (∀ c : Nat, accepts f 0x0004 s.m → plainOk f [(0, 0x3F), (1, all32), (2, 0xFFFF)] = true → c = arg f 1 + 2 ^ 32 * arg f 2 →
      s.m.role ≠ 2 → s.m.position ≠ 0 → arg f 0 = (if s.m.position = 1 then 48 else if s.m.position = 2 then 50 else 49) → bit c (arg f 0) = false →
      breaksLimit s.m (arg f 0) c = false → (∀ p, p < 8 → jobRuns (partOf s.m p) = false) →
      Carries (.setTickTree f) f 0x0004 s [] [] { s.m with upstream := arg f 0, children := c, role := 0 }) ∧
    (∀ c : Nat, accepts f 0x0004 s.m → plainOk f [(0, 0x3F), (1, all32), (2, 0xFFFF)] = true → c = arg f 1 + 2 ^ 32 * arg f 2 →
      s.m.role ≠ 2 → s.m.position = 0 → arg f 0 < 48 → bit c (arg f 0) = false →
      breaksLimit s.m (arg f 0) c = false → (∀ p, p < 8 → jobRuns (partOf s.m p) = false) →
      Carries (.setTickTree f) f 0x0004 s [] [] { s.m with upstream := arg f 0, children := c, role := 1 }) ∧
    (accepts f 0x0005 s.m → plainOk f [(0, all32), (1, 0x7FFFF)] = true → s.m.moduleNum ≠ 0x3FFF →
      (∀ q, q < 51 → bit (argPorts f 0) q = true → (portOf s.m q).state ≠ .training ∧ ((portOf s.m q).assigned = true → jobRuns (partOf s.m (portOf s.m q).part) = false)) →
      Gives (.linkTrain f) s (fun m' => answered f 0x0005 0 [] [] m' ∧ m'.training = s.m.training ++ [(argPorts f 0, f.seq)] ∧
        ∀ q, q < 51 → if bit (argPorts f 0) q = true then (portOf m' q).state = .training ∧ (portOf m' q).sendSeq = 0 ∧ (portOf m' q).replay = []
          else portOf m' q = portOf s.m q)) ∧
    (∀ (up q : Nat) (seq : W32), q < 51 → s.m.training = [(1 <<< q, seq)] → (portOf s.m q).state = .training → s.m.box.kiteUp = true →
      Gives (.linkTrainComplete up) s (fun m' => m'.training = [] ∧
        if bit up q = true ∧ (portOf s.m q).echoCount = 256 ∧ ((portOf s.m q).echoMax + 31) / 32 ≤ (if q < 48 then 1152 else 192) then
          (portOf m' q).state = .up ∧ (portOf m' q).linkDelay = ((portOf s.m q).echoMax + 31) / 32 ∧
          m'.out.getLast? = some (.event { cls := 3, part := 0xFF, source := 5, detail := seq.toNat, tick := s.m.tick, aux := 0 })
        else (portOf m' q).state = .down ∧
          m'.out.getLast? = some (.event { cls := 3, part := 0xFF, source := 5, detail := seq.toNat, tick := s.m.tick, aux := 0x44 }))) ∧
    (∀ q : Nat, q < 51 → linksBusy s.m = false → exchanging s.m = false → s.m.box.running = none → s.m.box.quote = none →
      (∀ x, x ∈ s.m.parts → x.2.ending = none) → s.m.ports.Pairwise (fun x y => x.1 ≠ y.1) → (∀ x, x ∈ s.m.tiles → x.2.d.faultsDue = []) →
      (portOf s.m q).state = .training → (portOf s.m q).echoes = false →
      Gives .tickCounterAdvance s (fun m' => (portOf m' q).streamsUp = 8 ∧ (portOf m' q).echoes = true ∧
        if (portOf m' q).peerModule = s.m.moduleNum then (portOf m' q).state = .fault ∧ (portOf m' q).faults = satAdd 16 (portOf s.m q).faults 1
        else (portOf m' q).state = .training ∧ ∃ w : W32, .sym q symEchoReq 0 0 w ∈ m'.out)) ∧
    (accepts f 0x0006 s.m → plainOk f [(1, all32), (2, 0xFFFF)] = true → s.m.syncing = none → s.m.role = 2 → (∀ p, p < 8 → jobRuns (partOf s.m p) = false) →
      Carries (.tickSync f) f 0x0006 s [] [] { s.m with syncing := some (f.seq, srcNow s.m, some (BitVec.ofNat 48 (arg48 f 1))), reports := [] }) ∧
    (accepts f 0x0006 s.m → plainOk f [(1, all32), (2, 0xFFFF)] = true → s.m.syncing = none → s.m.role ≠ 2 → s.m.upstream ≠ 63 → arg48 f 1 = 0 →
      (portOf s.m s.m.upstream).state = .up →
      Carries (.tickSync f) f 0x0006 s [] [] { s.m with syncing := some (f.seq, srcNow s.m, none), reports := [] }) ∧
    (∀ (h d : Nat) (seq : W32) (t : Nat), s.m.syncing = some (seq, t, none) → s.m.box.kiteUp = true →
      (s.m.role = 2 → reported s.m = true → Gives (.tickSyncComplete h d) s (fun m' => m' = { s.m with
        syncing := none, out := s.m.out ++ [.event { cls := 3, part := 0xFF, source := 6, detail := seq.toNat, tick := s.m.tick, aux := (reportMax s.m + 639) / 640 }] })) ∧
      (s.m.role ≠ 2 → s.m.lock = .locked → reported s.m = true → Gives (.tickSyncComplete h d) s (fun m' => m'.syncing = none ∧
        m'.masterDelay = (d + (portOf s.m s.m.upstream).linkDelay + 32) % 2 ^ 32 ∧ m'.tetherHops = (h + if s.m.role = 0 then 0 else 1) % 2 ^ 8 ∧
        m'.out = s.m.out ++ [.alignReport s.m.upstream (Nat.max m'.masterDelay (reportMax s.m)),
          .event { cls := 3, part := 0xFF, source := 6, detail := seq.toNat, tick := s.m.tick, aux := 0 }] ∧
        m'.hopDelay = s.m.hopDelay ∧ m'.tick = s.m.tick ∧ m'.lock = .locked)) ∧
      (s.m.role = 2 ∨ s.m.lock = .locked → reported s.m = false → Gives (.tickSyncComplete h d) s (fun m' => m' = s.m)) ∧
      (s.m.role ≠ 2 → s.m.lock ≠ .locked → 1600000000 ≤ srcNow s.m - t → Gives (.tickSyncComplete h d) s (fun m' => m' = { s.m with syncing := none, out := s.m.out ++ [.event { cls := 3, part := 0xFF, source := 6, detail := seq.toNat, tick := s.m.tick, aux := 0x44 }] })) ∧
      (s.m.role ≠ 2 → s.m.lock ≠ .locked → srcNow s.m - t < 1600000000 → Gives (.tickSyncComplete h d) s (fun m' => m' = s.m)))

/-- Partitions, ports, quotas, pages, windows and register writes. PART_SET gives a partition its halves, PART_PORTS its ports, SET_QUOTA
its quotas. MAP takes distinct free frames, which a zero fill then clears; MOVE sets the pages of the other tier MOVING; both keep the
used frames of a tier distinct, and its use within the quota; UNMAP frees the frames. MEM_WRITE writes its words and no other. WIN_TILE
and WIN_DRAM set a window. POWER_SET makes a policy pending for the first period start at least 64 ticks away. REG_WRITE and a register
write reach scratchpads of stopped tiles and writable registers. (R12, R203, R276, R277, R278, R300, R432, R433, R472, R474, R526, R534) -/
def Obligations.PlacementCommands : Prop :=
  ∀ (f : Frame) (s : State) (p : Nat), p = argPart f →
    (∀ h : Nat, accepts f 0x0101 s.m → plainOk f [(0, 7), (1, 0xFF)] = true → h = arg f 1 → h ≠ 0 → (partOf s.m p).rstate = .idle →
      (∀ r, r < 8 → r ≠ p → (partOf s.m r).halves &&& h = 0) →
      Gives (.partSet f) s (fun m' => answered f 0x0101 0 [] [] m' ∧ partOf m' p = { partOf s.m p with halves := h } ∧ otherParts p s.m m' ∧
        m' = { s.m with parts := m'.parts, lasts := m'.lasts, passVals := m'.passVals, box := m'.box, out := m'.out })) ∧
    (accepts f 0x0102 s.m → plainOk f [(0, 7), (1, all32), (2, 0x7FFFF)] = true → jobRuns (partOf s.m p) = false →
      (∀ q, q < 51 → bit (argPorts f 1) q = true → (portOf s.m q).assigned = true → (portOf s.m q).part = p) →
      Gives (.partPorts f) s (fun m' => answered f 0x0102 0 [] [] m' ∧ ∀ q, q < 51 → portOf m' q =
        if bit (argPorts f 1) q then { portOf s.m q with part := p, assigned := true }
        else if (portOf s.m q).assigned && (portOf s.m q).part == p then { portOf s.m q with part := 0, assigned := false } else portOf s.m q)) ∧
    (accepts f 0x0103 s.m → plainOk f [(0, 7), (1, all32), (2, all32)] = true → tierUse s.m p false ≤ arg f 1 → tierUse s.m p true ≤ arg f 2 →
      arg f 1 ≤ framesB → arg f 2 ≤ framesC →
      Gives (.setQuota f) s (fun m' => answered f 0x0103 0 [] [] m' ∧ partOf m' p = { partOf s.m p with quotaB := arg f 1, quotaC := arg f 2 } ∧
        otherParts p s.m m' ∧ m' = { s.m with parts := m'.parts, box := m'.box, out := m'.out })) ∧
    (∀ (first n : Nat) (tc : Bool), plainOk f [(0, 0x107), (1, all32), (2, all32)] = true → first = arg f 1 → n = arg f 2 → tc = bit (arg f 0) 8 →
      1 ≤ n → first + n ≤ pageCount → (∀ k, first ≤ k → k < first + n → inFill s.m k = false ∧ (pageOf s.m k).state ≠ .moving) →
      (accepts f 0x0104 s.m → (∀ k, first ≤ k → k < first + n → (pageOf s.m k).state = .unmapped) → tierUse s.m p tc + n ≤ quotaOf s.m p tc →
        n ≤ freeFrames s.m tc →
        Gives (.map f) s (fun m' => answered f 0x0104 0 [] [] m' ∧ m'.dir = s.m.dir ∧ ∃ fr : List Nat, fr.length = n ∧ fr.Nodup ∧
          (∀ x, x ∈ fr → x < framesOf tc ∧ x ∉ usedFrames s.m tc) ∧
          ((usedFrames s.m tc).Nodup → (usedFrames m' tc).Nodup) ∧ tierUse m' p tc = tierUse s.m p tc + n ∧
          m'.fills = s.m.fills ++ [{ pages := (pageRun first n).zip fr, part := p, tierC := tc, seq := f.seq, report := true }])) ∧
      (accepts f 0x0105 s.m → (∀ k, first ≤ k → k < first + n → isMapped (pageOf s.m k) = true ∧ (pageOf s.m k).part = p) →
        tierUse s.m p tc + n ≤ quotaOf s.m p tc → n ≤ freeFrames s.m tc →
        Gives (.move f) s (fun m' => answered f 0x0105 0 [] [] m' ∧ m'.dram = s.m.dram ∧
          (mwf {} s.m.dir = true → ((usedFrames s.m tc).Nodup → (usedFrames m' tc).Nodup) ∧ tierUse m' p tc ≤ quotaOf s.m p tc) ∧ ∀ k,
          if first ≤ k ∧ k < first + n ∧ pageTierC (pageOf s.m k) ≠ tc then
            ∃ d, d < framesOf tc ∧ d ∉ usedFrames s.m tc ∧ pageOf m' k = { pageOf s.m k with state := .moving, toC := tc, dest := d }
          else pageOf m' k = pageOf s.m k))) ∧
    (∀ first n : Nat, accepts f 0x0106 s.m → plainOk f [(0, 7), (1, all32), (2, all32)] = true → first = arg f 1 → n = arg f 2 → 1 ≤ n →
      first + n ≤ pageCount → jobLive (partOf s.m p) = false →
      (∀ k, first ≤ k → k < first + n → inFill s.m k = false ∧ (pageOf s.m k).state ≠ .moving ∧ isMapped (pageOf s.m k) = true ∧ (pageOf s.m k).part = p) →
      Gives (.unmap f) s (fun m' => answered f 0x0106 0 [] [] m' ∧ m'.dram = s.m.dram ∧
        ∀ k, pageOf m' k = if first ≤ k ∧ k < first + n then {} else pageOf s.m k)) ∧
    (∀ (a b : Nat) (ws : List W32), accepts f 0x0108 s.m → rsvOk f [(0, 7), (1, all32), (2, 0xFFFF), (3, all32)] = true → a = arg48 f 1 →
      arg f 3 = 4 * ws.length → ws ≠ [] → f.data = wordsBytes ws → a % 4 = 0 → a % 256 + 4 * ws.length ≤ 256 → a + 4 * ws.length ≤ dramEnd →
      isMapped (pageOf s.m (a / 0x200000)) = true → (pageOf s.m (a / 0x200000)).part = p →
      b = 64 * pageBurst s.m (a / 0x200000) (a % 0x200000 / 256) + a % 256 / 4 →
      (chanOf s.m (burstStack (b / 64)) (burstChan (b / 64))).reqs = [] → forwardTo s.m (b / 64) = none → recordShard s.m (a / 0x200000) (a % 0x200000 / 256) = none →
      Gives (.memWrite f) s (fun m' => answered f 0x0108 0 [] [] m' ∧
        ∀ w, mget 0 m'.dram w = if b ≤ w ∧ w < b + ws.length then nth 0 ws (w - b) else mget 0 s.m.dram w)) ∧
    (∀ t w : Nat, accepts f 0x0201 s.m → plainOk f [(0, 7), (1, 0x71FFF), (2, 0xFFFFF), (3, 0x1FFFFF), (4, 0x7FFFF)] = true →
      t = arg f 1 % 8192 → w = arg f 1 / 65536 → t < 5120 → partOfTile s.m t = some p → arg f 2 % 128 = 0 → arg f 3 % 128 = 0 →
      arg f 2 + arg f 3 ≤ 0x100000 →
      Carries (.winTile f) f 0x0201 s [] [] (modTd t (fun d => { d with wins := mset {} d.wins w {
        base := arg f 2, length := arg f 3, tag := arg f 4 % 65536, read := bit (arg f 4) 16, write := bit (arg f 4) 17, opened := bit (arg f 4) 18 } }) s.m)) ∧
    (accepts f 0x0202 s.m → plainOk f [(0, 7), (1, 0x3F), (2, all32), (3, all32), (4, 0x7FFFF)] = true → 1 ≤ arg f 3 → arg f 3 ≤ 524288 →
      arg f 2 + arg f 3 ≤ pageCount → (∀ k, arg f 2 ≤ k → k < arg f 2 + arg f 3 → isMapped (pageOf s.m k) = true ∧ (pageOf s.m k).part = p) →
      Carries (.winDram f) f 0x0202 s [] [] { s.m with dwins := mset {} s.m.dwins (arg f 1) {
        tag := arg f 4 % 65536, part := p, first := arg f 2, countM1 := arg f 3 - 1
        read := bit (arg f 4) 16, write := bit (arg f 4) 17, opened := bit (arg f 4) 18 } }) ∧
    (∀ q : Policy, accepts f 0x0501 s.m → plainOk f [(1, 0xFF), (2, 1), (3, all32), (4, all32), (5, all32)] = true → arg f 1 ≠ 0 →
      1000 ≤ arg f 3 → arg f 3 ≤ 6000 → 20 ≤ arg f 4 → arg f 4 ≤ 150 → arg f 5 ≤ 640 → arg f 5 % 4 = 0 →
      q = withPolicy s.m.power.policy (arg f 1) (bit (arg f 2) 0) (arg f 3) (arg f 4) (arg f 5) → policyConflict q = false →
      Carries (.powerSet f) f 0x0501 s [] [] { s.m with power := { s.m.power with
        pending := some q, policyTick := BitVec.ofNat 48 ((s.m.tick.toNat + 64 + 1023) / 1024 * 1024) } } ∧
      q.pCeil = arg f 3 ∧ q.iCeil = arg f 4 ∧ ∀ h, h < 8 → bit (arg f 1) h = true → bit q.clockCeil h = bit (arg f 2) 0 ∧ mget 0 q.floors h = arg f 5 / 4) ∧
    (∀ (t o : Nat) (v : W64), accepts f 0x0402 s.m → rsvOk f [(1, all32), (2, 0xFFFF), (3, all32)] = true → f.data = leBytes 8 v.toNat → arg f 3 = 1 →
      t < 5120 → o < 0x100000 → o % 8 = 0 → arg48 f 1 = tileBase + 0x200000 * t + o → tileStopped (tdOf s.m t) = true → (tileOf s.m t).bundle = none →
      (∀ r, partOfTile s.m t = some r → (partOf s.m r).jstate ≠ .killedRetained) →
      Gives (.regWrite f) s (fun m' => answered f 0x0402 0 [] [] m' ∧ wordsLand t o [v.extractLsb' 0 32, v.extractLsb' 32 32] s.m m' ∧
        ∀ u, u ≠ t → tileOf m' u = tileOf s.m u)) ∧
    (∀ (t k : Nat) (v : W64), t < 5120 → k < 4 → (∀ r, partOfTile s.m t = some r → (partOf s.m r).jstate ≠ .killedRetained) →
      Gives (.registerWrite (BitVec.ofNat 48 (tileBase + 0x200000 * t + 0x1F00E0 + 8 * k)) v) s (fun m' =>
        mget 0 (tdOf m' t).scr k = v ∧ ∀ u, u ≠ t → tileOf m' u = tileOf s.m u)) ∧
    (∀ (a : BitVec 48) (v : W64), a.toNat % 8 = 0 → ctlBase ≤ a.toNat → a.toNat < ctlBase + 0x100000000 → hostMayWrite (a.toNat - ctlBase) = false →
      Gives (.registerWrite a v) s (fun m' => m' = s.m))

/-- Loading, starting, killing, scrubbing, saving and restoring a job. LOAD of a LOF that passes its checks leaves the job LOADED with its
owner, tag and hash. JOB_START arms it, and at its tick every tile of the partition runs from START_PC. JOB_KILL ends it with cause 2 and
scrubs, SCRUB scrubs a retained job. CKPT_SAVE arms a save; CHECKPOINT_START sends the image, and its completion releases the tiles.
CKPT_RESTORE of an image that fits sets the step and the superstep; one that does not fit unloads the job. (R41, R409, R413, R416, R437, R438, R440, R441, R442, R443) -/
def Obligations.JobCommands : Prop :=
  ∀ (f : Frame) (s : State) (p : Nat) (x : Part), p = argPart f → x = partOf s.m p →
    (∀ (m0 m1 : Mod) (l r : Bool × List Byte × Mod), accepts f 0x0301 s.m → m0 = taken f 0x0301 s.m →
      plainOk f [(0, 7), (1, all32), (2, 0xFFFF), (3, all32), (4, all32), (5, 0xFFFF), (6, all32), (7, 0xFFFF), (8, 0x3FFF), (9, 0x3FFF)] = true →
      x.rstate = .idle → (∀ t, t ∈ tilesOfPart s.m p → tileStopped (tdOf s.m t) = true) →
      firstStatus (readChecks m0 p (arg48 f 1) (arg f 3) ++ readChecks m0 p (arg48 f 6) (2 * arg f 8)) = none →
      l = readDram m0 (arg48 f 1) (arg f 3) → r = readDram l.2.2 (arg48 f 6) (2 * arg f 8) → l.1 = false → r.1 = false →
      headFail s.chip r.2.2 p (arg f 8) (arg f 9) l.2.1 r.2.1 = none →
      loadSteps p l.2.1 r.2.1 (arg f 9) (BitVec.ofNat 32 (arg f 4)) (BitVec.ofNat 16 (arg f 5)) (unloadOld s.chip p r.2.2) = .ok m1 →
      Gives (.load f) s (fun m' => answered f 0x0301 0 [] [] m' ∧ (partOf m' p).jstate = .loaded ∧ (partOf m' p).rstate = .restartWait ∧
        (partOf m' p).owner = BitVec.ofNat 32 (arg f 4) ∧ (partOf m' p).tag = BitVec.ofNat 16 (arg f 5) ∧ (partOf m' p).hash = sha384 l.2.1)) ∧
    (∀ t : BitVec 48, accepts f 0x0302 s.m → plainOk f [(0, 0x107), (1, all32), (2, 0xFFFF)] = true → x.jstate = .loaded → t = BitVec.ofNat 48 (arg48 f 1) →
      0 < (t - s.m.tick).toNat → (t - s.m.tick).toNat ≤ 2 ^ 46 → (∀ e, e ∈ x.sched → (t - s.m.tick).toNat + e.offset ≤ 2 ^ 46) →
      Gives (.jobStart f) s (fun m' => answered f 0x0302 0 [] [] m' ∧ otherParts p s.m m' ∧ m' = { s.m with parts := m'.parts, box := m'.box, out := m'.out } ∧
        partOf m' p = { x with
          jstate := .armed, retain := bit (arg f 0) 8, startTick := t, restartTick := t, base := t, slipShift := 0
          sched := x.sched.map (fun e => { e with tick := t + BitVec.ofNat 48 e.offset, done := false, chosen := none }) })) ∧
    (∀ (k : PartId) (y : Part), y = partOf s.m k.val → s.m.power.active = false → y.jstate = .armed → tickReached s.m y.startTick = true → y.ckpt = none →
      clockEvents y = [] →
      Gives (.jobStartTick k) s (fun m' => (partOf m' k.val).jstate = .running ∧ (partOf m' k.val).xphase = .compute ∧
        ∀ t, t ∈ tilesOfPart s.m k.val → (tdOf s.m t).st = .idle → (tdOf s.m t).stopDue = false → (tdOf m' t).st = .running ∧ (tdOf m' t).pc = (tdOf s.m t).startPc)) ∧
    (accepts f 0x0303 s.m → plainOk f [(0, 7)] = true → killable x = true → s.m.power.active = false → commitDue s.m p = false → x.retain = false →
      x.ending = none → dmasQuiet p s.m →
      Gives (.jobKill f) s (fun m' => answered f 0x0303 0 [] [] m' ∧ (partOf m' p).jstate = .scrubbing ∧ (partOf m' p).endCause = 2 ∧
        (partOf m' p).endAs = some (.none, 2) ∧ (partOf m' p).ckpt = none)) ∧
    (accepts f 0x0305 s.m → plainOk f [(0, 7)] = true → x.rstate = .killedRetained →
      Carries (.scrub f) f 0x0305 s [] [] (modPart p (fun y => { y with jstate := .scrubbing, rstate := .scrubbing, endAs := some (.none, y.endCause) }) s.m)) ∧
    (∀ t : BitVec 48, accepts f 0x0306 s.m → plainOk f [(0, 7), (1, all32), (2, all32), (3, 0xFFFF), (4, 0x3F3FFF), (5, all32), (6, 0xFFFF), (7, all32),
        (8, 0xFFFF)] = true → jobLive x = true → x.ckpt = none → t = BitVec.ofNat 48 (arg48 f 2) → 0 < (t - s.m.tick).toNat → (t - s.m.tick).toNat ≤ 2 ^ 46 →
      badRemote f = false → (BitVec.ofNat 32 (arg f 1) - x.stepNum).toNat ≤ 2 ^ 30 →
      Gives (.ckptSave f) s (fun m' => answered f 0x0306 0 [] [] m' ∧ otherParts p s.m m' ∧ ∃ k, partOf m' p = { x with ckpt := some k } ∧
        k.step = BitVec.ofNat 32 (arg f 1) ∧ k.resume = t ∧ k.addr = arg48 f 5 ∧ k.capacity = 4096 * arg f 7 ∧ k.seq = f.seq ∧ k.due = false)) ∧
    (∀ (q : PartId) (y : Part) (k : CkptArm), y = partOf s.m q.val → y.ckpt = some k → s.m.power.active = false → y.jstate = .running → y.stepFailed = false →
      k.due = true → k.running = false → y.heldForCkpt = true → tickReached s.m (boundaryTick s.m q.val (y.commitTick + 1)).1 = true → y.objects = [] → y.hash.length = 48 →
      304 ≤ k.capacity → portIn s.m q.val k.port = true → (portOf s.m k.port).state = .up →
      Gives (.checkpointStart q) s (fun m' => (partOf m' q.val).ckpt = some { k with running := true } ∧ (partOf m' q.val).heldForCkpt = true ∧
        (partOf m' q.val).lateEvents = (if (boundaryTick s.m q.val (y.commitTick + 1)).2 then satAdd 32 y.lateEvents 1 else y.lateEvents) ∧
        beatAtPort k.port clsDma true (padBeat (dmaHeader opPut (ckPacket s.m k 0 304 []))) m')) ∧
    (∀ (q : PartId) (ok : Bool) (k : CkptArm), (partOf s.m q.val).ckpt = some k → k.running = true → s.m.power.active = false →
      Gives (.ckptSaveComplete q ok) s (fun m' => (partOf m' q.val).ckpt = none ∧ (partOf m' q.val).heldForCkpt = false)) ∧
    (∀ (m0 : Mod) (img cut : List Byte), accepts f 0x0307 s.m → plainOk f [(0, 7), (4, 0x3F3FFF), (5, all32), (6, 0xFFFF), (7, all32), (8, 0xFFFF)] = true →
      x.jstate = .loaded → badRemote f = false → portIn s.m p (bits (arg f 4) 21 16) = true → (portOf s.m (bits (arg f 4) 21 16)).state = .up →
      m0 = taken f 0x0307 s.m → cut = img.take (4096 * arg f 7) →
      (∀ l, imageOk cut = true → matchEntries m0 p cut = some l →
        Gives (.ckptRestore f (some img)) s (fun m' => answered f 0x0307 0 [] [] m' ∧
          (partOf m' p).stepNum = BitVec.ofNat 32 (leAt cut 12 4) ∧ (partOf m' p).superstep = BitVec.ofNat 32 (leAt cut 16 4) ∧
          (partOf m' p).lossMean = BitVec.ofNat 32 (leAt cut 20 4) ∧ (partOf m' p).restoreRequired = false)) ∧
      (imageOk cut = false → Gives (.ckptRestore f (some img)) s (fun m' => answered f 0x0307 0x52 [] [] m' ∧
        (partOf m' p).jstate = .none ∧ (partOf m' p).endCause = 6)) ∧
      Gives (.ckptRestore f none) s (fun m' => answered f 0x0307 0x53 [] [] m' ∧ m'.parts = s.m.parts ∧ m'.tiles = s.m.tiles ∧ m'.dram = s.m.dram))

/-- Firmware installation, Ballast, samples and the emergency stop. FW_INSTALL stores an accepted image in the slot that did not boot and
marks it active; another is DENIED and changes no slot. The SVN floor rises to that of a running image that asks for it. A pending policy
takes effect at its tick. A period of Ballast without floors divides the budget of the voltage sampled in proportion to the demands
sampled in the period before, and counts a draw above the budget; one without samples is taken at 38 V and with no draw (log entry 139).
The fourth sample above 18.0 times 10 A, or a die above 105 degrees, stops the clocks; samples within the limits stop nothing. A half
above 95 degrees gets at most 340 W. The restart goes on at the cycle at which the clocks stopped, once the conditions have cleared. (R452, R455, R457, R469, R474, R475, R476, R477, R478) -/
def Obligations.FirmwareAndPower : Prop :=
  ∀ (s : State),
    (∀ (f : Frame) (m0 : Mod) (r : Bool × List Byte × Mod), accepts f 0x0603 s.m → plainOk f [(1, all32), (2, 0xFFFF), (3, all32)] = true →
      (∀ p, p < 8 → jobRuns (partOf s.m p) = false) → arg48 f 1 + arg f 3 ≤ dramEnd →
      (0 < arg f 3 → ∀ k, k ∈ pagesOfBytes (arg48 f 1) (arg f 3) → isMapped (pageOf s.m k) = true) → m0 = taken f 0x0603 s.m →
      r = readDram m0 (arg48 f 1) (arg f 3) → r.1 = false →
      Gives (.fwInstall f) s (fun m' =>
        (imgAccepted s.chip s.m.atgen r.2.1 = true → answered f 0x0603 0 [] [] m' ∧ m'.atgen = { s.m.atgen with
          slotA := if s.m.atgen.bootB then r.2.1 else s.m.atgen.slotA, slotB := if s.m.atgen.bootB then s.m.atgen.slotB else r.2.1
          activeB := !s.m.atgen.bootB, staged := true }) ∧
        (imgAccepted s.chip s.m.atgen r.2.1 = false → answered f 0x0603 0x70 [] [] m' ∧ m'.atgen = s.m.atgen))) ∧
    Gives .svnFloorRaise s (fun m' => m' = if s.m.bringup = .ready ∧ s.m.atgen.raiseFloor = true ∧ s.m.atgen.floor < s.m.atgen.runningSvn then
      { s.m with atgen := { s.m.atgen with floor := s.m.atgen.runningSvn } } else s.m) ∧
    (∀ q : Policy, s.m.power.pending = some q → firmwareRuns s.m = true →
      (tickReached s.m s.m.power.policyTick = true → Gives .policyTakesEffect s (fun m' =>
        m' = { s.m with power := { s.m.power with policy := q, pending := none }, box := m'.box, out := m'.out })) ∧
      (tickReached s.m s.m.power.policyTick = false → Gives .policyTakesEffect s (fun m' => m' = s.m))) ∧
    (firmwareRuns s.m = true →
      (∀ n : BitVec 48, s.m.tick ≠ n ∨ s.m.tick.toNat % 1024 ≠ 0 ∨ s.m.phase ≠ 0 → Gives (.ballastPeriod n) s (fun m' => m' = s.m)) ∧
      (∀ (q : Policy) (x : PeriodAcc) (b g h d : Nat), s.m.tick.toNat % 1024 = 0 → s.m.phase = 0 → s.m.power.pending = none → q = s.m.power.policy →
        q.floors = [] → h < 8 →
        ((x = s.m.power.acc ∧ x.no + 1 = s.m.tick.toNat / 1024 ∧ 0 < x.count) ∨
          (x = {} ∧ s.m.power.acc.no + 1 ≠ s.m.tick.toNat / 1024 ∧ s.m.power.accOld.no + 1 ≠ s.m.tick.toNat / 1024)) →
        b = Nat.min (100 * q.pCeil) (q.iCeil * Nat.max 3800 x.vMin) → g = b - 100 * ((105 * x.outside + 100 * x.count - 1) / (100 * x.count)) →
        d = (List.range 8).foldl (fun y k => y + nth 0 x.halves k / x.count) 0 →
        Gives (.ballastPeriod s.m.tick) s (fun m' =>
          (∀ a, a = (if d = 0 then g / 800 else g * (nth 0 x.halves h / x.count) / (100 * d)) →
            (halfSt m' h).allotW = if (halfSt s.m h).hot && !(halfSt s.m h).cool then Nat.min 340 a else a) ∧
          m'.power.exceeded = (if b * x.count < 100 * x.sumW then satAdd 16 s.m.power.exceeded 1 else s.m.power.exceeded)))) ∧
    (∀ (y : PowerTelemetry), y.halfW.length = 8 → s.m.powered = true →
      (s.m.power.overI = 3 → 1800 < y.deciAmp → s.m.power.active = false → Gives (.powerSample y.tenMilliVolt y.deciAmp y.toPowerDraw) s (fun m' =>
        m'.power.active = true ∧ m'.power.cause = 1 ∧ m'.power.phase = s.m.phase ∧ m'.power.tick = s.m.tick ∧ m'.power.stopFrom = s.m.lost ∧
        m'.power.stops = satAdd 16 s.m.power.stops 1 ∧ m'.power.energyUJ = s.m.power.energyUJ + y.watt)) ∧
      (y.deciAmp ≤ 1500 → y.watt ≤ 6000 → 3800 ≤ y.tenMilliVolt → y.tenMilliVolt ≤ 6000 → Gives (.powerSample y.tenMilliVolt y.deciAmp y.toPowerDraw) s (fun m' =>
        m' = { s.m with power := m'.power, halves := m'.halves } ∧ m'.power.active = s.m.power.active ∧ m'.power.overI = 0 ∧ m'.power.overP = 0 ∧
        m'.power.badV = 0 ∧ m'.power.energyUJ = s.m.power.energyUJ + y.watt ∧
        (s.m.power.samples = [] → m'.power.pin = y.watt ∧ ∀ h, h < 8 → (halfSt m' h).meanW = nth 0 y.halfW h)))) ∧
    (∀ (t : ThermalTelemetry), t.dieHalf.length = 8 → s.m.powered = true → s.m.power.active = false →
      Gives (.thermalSample t) s (fun m' =>
        ((m'.power.active = true) ↔ (105 < t.dieHalf.foldl Nat.max 0 ∨ 95 < t.stackMax)) ∧ (m'.power.active = true → m'.power.cause = 3) ∧
        ∀ h, h < 8 → if 95 < nth 0 t.dieHalf h then (halfSt m' h).hot = true ∧ (halfSt m' h).allotW = Nat.min 340 (halfSt s.m h).allotW
          else (halfSt m' h).hot = (halfSt s.m h).hot ∧ (halfSt m' h).allotW = (halfSt s.m h).allotW)) ∧
    (s.m.power.active = true → s.m.power.met = 8 → s.m.stopped = [] → s.m.power.heldSyms = [] → s.m.power.heldKills = [] → s.m.power.heldResets = [] →
      (∀ p, p < 8 → (partOf s.m p).jstate ≠ .running) →
      (s.m.power.dieMax < 95 → s.m.power.stackMax < 85 → Gives .emergencyRestart s (fun m' =>
        m'.power.active = false ∧ m'.power.met = 0 ∧ m'.phase = s.m.power.stopPhase ∧
        m'.tick = (if s.m.phase = 0 then s.m.tick else s.m.tick + 1) ∧ (s.m.phase = 0 → m'.tiles = s.m.tiles) ∧
        m'.power.stopTicks = satAdd 32 s.m.power.stopTicks (m'.tick - s.m.power.tick).toNat)) ∧
      (95 ≤ s.m.power.dieMax → Gives .emergencyRestart s (fun m' => m' = s.m)))

/-- Cold and warm resets, bring-up, and the collection pass. POWER_ON begins a cold reset of a module without power, RESET_N low for 10 us
one of any module with power; each leaves the tables empty, reads the straps and brings the module up, or holds at RAILS while RESET_N is
low until its release. POWER_LOSS leaves the module in RAILS. A warm reset is ordered only while no job is loaded, and begins no sooner
than 100 us after the answer (log entry 75); it keeps DRAM, straps and counters. A collection pass begins at a multiple of 1,024 ticks and
reads the sources; its completion adds what each source has grown by to its sum, which saturates, and shows the events. (R482, R483, R487, R488, R490, R492, R532, R533, R535) -/
def Obligations.ResetsAndCollection : Prop :=
  ∀ (e : BootEnv) (s : State),
    (s.m.powered = true → Gives (.powerOn e) s (fun m' => m' = s.m)) ∧
    (∀ c : Instr, (c = .powerOn e ∧ s.m.powered = false) ∨ (∃ ns, c = .resetN ns e ∧ 10000 ≤ ns ∧ s.m.powered = true) →
      Gives c s (fun m' => m'.powered = true ∧ m'.resetLast = (if s.m.powered then 1 else 0) ∧ m'.resetNPin = !e.resetNLow ∧
        m'.tiles = [] ∧ m'.parts = [] ∧ m'.ports = [] ∧ m'.dir = [] ∧ m'.dram = [] ∧ m'.tick = 0 ∧ m'.moduleNum = 0x3FFF ∧ m'.lock = .unlocked ∧
        m'.atgen.floor = s.m.atgen.floor ∧ m'.heldAtRails = e.resetNLow ∧
        (s.m.box.running = none → m'.atgen.slotA = s.m.atgen.slotA ∧ m'.atgen.slotB = s.m.atgen.slotB) ∧
        m'.position = e.pos.toNat ∧ m'.masterStrap = e.masterStrap ∧
        (e.resetNLow = true → m'.bringup = .rails) ∧
        (e.resetNLow = false → bringUpEnd e.stacksOk m'))) ∧
    (∀ ns, ns < 1000 → Gives (.resetN ns e) s (fun m' => m' = { s.m with resetNPin := !e.resetNLow })) ∧
    Gives .powerLoss s (fun m' => m'.powered = false ∧ m'.bringup = .rails ∧ m'.tiles = [] ∧ m'.parts = [] ∧ m'.tick = 0) ∧
    (s.m.heldAtRails = true → s.m.box.running = none → Gives (.resetNRelease e) s (fun m' => m'.heldAtRails = false ∧ m'.resetNPin = true ∧ m'.position = e.pos.toNat ∧
      m'.masterStrap = e.masterStrap ∧ bringUpEnd e.stacksOk m')) ∧
    (s.m.heldAtRails = false → Gives (.resetNRelease e) s (fun m' => m' = { s.m with resetNPin := true })) ∧
    ((∀ p, p < 8 → (partOf s.m p).jstate = .none) → Gives .warmReset s (fun m' => m' = { s.m with
      warmPending := true
      box := { s.m.box with warmFrom := if s.m.box.running = none ∧ s.m.box.warmFrom = none then some (srcNow s.m) else s.m.box.warmFrom } })) ∧
    ((∃ p, p < 8 ∧ (partOf s.m p).jstate ≠ .none) → s.m.warmPending = false → Gives .warmReset s (fun m' => m' = s.m)) ∧
    (∀ c, s.m.box.warmFrom = some c → c + 80000 ≤ srcNow s.m → Gives (.warmResetBegin e) s (fun m' => m'.warmResets = satAdd 16 s.m.warmResets 1 ∧ m'.dram = s.m.dram ∧ m'.dir = [] ∧
      m'.position = s.m.position ∧ m'.tiles = [] ∧ m'.resetLast = 2 ∧ m'.warmPending = false ∧
      (∀ p, p < 8 → (partOf m' p).scrubs = (partOf s.m p).scrubs ∧ (partOf m' p).halves = 0) ∧ bringUpEnd e.stacksOk m')) ∧
    ((∀ c, s.m.box.warmFrom = some c → srcNow s.m < c + 80000) → Gives (.warmResetBegin e) s (fun m' => m' = s.m)) ∧
    (s.m.passRunning = false → s.m.tick.toNat % 1024 = 0 → s.m.phase = 0 → firmwareRuns s.m = true →
      Gives .collectionPass s (fun m' => m' = { s.m with
        passRunning := true, passStart := s.m.tick, passVals := m'.passVals, passEvents := m'.passEvents } ∧
        ∀ t p, t < 5120 → (tdOf s.m t).nfResults ≠ 0 → partOfTile s.m t = some p →
          mget (0, 0) m'.passVals (64 * t + 1) = ((tdOf s.m t).nfResults, p))) ∧
    (∀ k v p : Nat, s.m.passRunning = true → s.m.passVals = [(k, (v, p))] → mget 0 s.m.lasts k ≤ v →
      Gives .collectionPassComplete s (fun m' => m'.passRunning = false ∧ m'.events = s.m.passEvents ∧ mget 0 m'.lasts k = v ∧
        (p < 8 → mget 0 (partOf m' p).sums (srcKey k) = satAdd 64 (mget 0 (partOf s.m p).sums (srcKey k)) (v - mget 0 s.m.lasts k)) ∧
        (p = 8 → mget 0 m'.msums (srcKey k) = satAdd 64 (mget 0 s.m.msums (srcKey k)) (v - mget 0 s.m.lasts k)) ∧
        ∀ r, r < 8 → (partOf m' r).passTick = s.m.passStart))

/-- The values right after a cold reset. After reset the tick counter is 0 and UNLOCKED, MODULE_NUM is 0x3FFF, UPSTREAM 63, the Bridle
timeout 0x400; no partition holds a half or a job and its step control has its reset values; every tile is IDLE at pc 0 with a stall limit
of 64; every port is DOWN and unassigned; no page is mapped; no command waits, and nothing has been sent; every table is in its canonical
form. That DRAM words and scratchpad words read 0 then is the choice of the model (log entries 3 and 75). (R30, R487, R492) -/
def Obligations.ResetValues : Prop :=
  State.reset.pending = [] ∧ State.reset.m.out = [] ∧ State.reset.m.tick = 0 ∧ State.reset.m.phase = 0 ∧ State.reset.m.lock = .unlocked ∧
  State.reset.m.bringup = .rails ∧ State.reset.m.moduleNum = 0x3FFF ∧ State.reset.m.upstream = 63 ∧ State.reset.m.bridleTimeout = 0x400 ∧
  State.reset.m.resetLast = 0 ∧ modCanonical State.reset.m ∧
  (∀ p, (partOf State.reset.m p).halves = 0 ∧ (partOf State.reset.m p).jstate = .none ∧ (partOf State.reset.m p).slipLimit = 64 ∧
    (partOf State.reset.m p).readyLead = 8 ∧ (partOf State.reset.m p).restartLead = 0x800 ∧ (partOf State.reset.m p).attemptLimit = 8) ∧
  (∀ t, (tdOf State.reset.m t).st = .idle ∧ (tdOf State.reset.m t).pc = 0 ∧ (tdOf State.reset.m t).stallLimit = 64 ∧
    ∀ o, spWord (tdOf State.reset.m t) o = 0) ∧
  (∀ q, (portOf State.reset.m q).state = .down ∧ (portOf State.reset.m q).assigned = false) ∧
  (∀ k, (pageOf State.reset.m k).state = .unmapped) ∧ (∀ w, mget 0 State.reset.m.dram w = 0)

/-- A queue of well-formed commands runs: every step answers, keeps it well formed, and takes one command. From every state whose waiting
commands are well formed, a step answers a next state, with the same stepping, whose waiting commands are those after the first, and well
formed. (R419, R421) -/
def Obligations.QueueRuns : Prop :=
  ∀ (s : State), s.pending.all wellFormed = true →
    ∃ t : State, step s = .next t ∧ t.chip = s.chip ∧ t.pending = s.pending.tail ∧ t.pending.all wellFormed = true
end

