-- ==== Sys2Proof/Laws/Map.lean ====
section
/-! SUPPORT. Laws of the sparse maps: what a read gives after a write, and that every operation keeps the canonical form. -/

namespace Sys2Proof.Machine

variable {α : Type}

/-- Read after an insertion. -/
theorem mget_mput (d v : α) (k j : Nat) (m : SMap α) : mget d (mput k v m) j = if k = j then v else mget d m j := by
  induction m with
  | nil => simp [mput, mget]
  | cons e r ih =>
    obtain ⟨i, w⟩ := e
    simp only [mput]
    split
    · simp only [mget]
    · split
      · rename_i h; subst h; simp only [mget]; split <;> simp_all
      · simp only [mget, ih]; split <;> split <;> simp_all

/-- Read after a removal. -/
theorem mget_mdel (d : α) (k j : Nat) (m : SMap α) : mget d (mdel k m) j = if k = j then d else mget d m j := by
  induction m with
  | nil => simp [mdel, mget]
  | cons e r ih =>
    obtain ⟨i, w⟩ := e
    simp only [mdel]
    by_cases h1 : i = k <;> by_cases h2 : k = j <;> simp_all [mget]

/-- Read after a write: the key written reads as the value, every other key as before. -/
theorem mget_mset [DecidableEq α] (d v : α) (k j : Nat) (m : SMap α) :
    mget d (mset d m k v) j = if k = j then v else mget d m j := by
  unfold mset; split
  · simp_all [mget_mdel]
  · exact mget_mput d v k j m

@[simp] theorem mget_mset_self [DecidableEq α] (d v : α) (k : Nat) (m : SMap α) : mget d (mset d m k v) k = v := by
  simp [mget_mset]

theorem mget_mset_ne [DecidableEq α] (d v : α) {k j : Nat} (m : SMap α) (h : k ≠ j) : mget d (mset d m k v) j = mget d m j := by
  simp [mget_mset, h]

/-- Read after a change. -/
theorem mget_mmod [DecidableEq α] (d : α) (k j : Nat) (f : α → α) (m : SMap α) :
    mget d (mmod d m k f) j = if k = j then f (mget d m k) else mget d m j := by
  simp [mmod, mget_mset]

@[simp] theorem mget_nil (d : α) (k : Nat) : mget d [] k = d := rfl

/-- Read after a write of several values. -/
theorem mget_msets [DecidableEq α] (d : α) (l : List α) (k j : Nat) (m : SMap α) :
    mget d (msets d m k l) j = if k ≤ j ∧ j < k + l.length then l.getD (j - k) d else mget d m j := by
  induction l generalizing k m with
  | nil => simp only [msets, List.length_nil]; rw [if_neg (by omega)]
  | cons v r ih =>
    simp only [msets, ih, mget_mset, List.length_cons]
    by_cases h1 : k = j
    · subst h1; rw [if_neg (by omega), if_pos rfl, if_pos (by omega), Nat.sub_self]; rfl
    · by_cases h2 : k + 1 ≤ j ∧ j < k + 1 + r.length
      · rw [if_pos h2, if_pos (by omega), show j - k = (j - (k + 1)) + 1 by omega, List.getD_cons_succ]
      · rw [if_neg h2, if_neg h1, if_neg (by omega)]

/-! ## The canonical form -/

/-- Raising the bound that keys have to meet. -/
theorem mwfFrom_mono [DecidableEq α] {d : α} {lo lo' : Nat} {m : SMap α} (h : mwfFrom d lo m = true) (hl : lo' ≤ lo) :
    mwfFrom d lo' m = true := by
  cases m with
  | nil => rfl
  | cons e r => obtain ⟨j, v⟩ := e; simp [mwfFrom] at h ⊢; exact ⟨⟨by omega, h.1.2⟩, h.2⟩

theorem mwfFrom_mput [DecidableEq α] {d v : α} (hv : v ≠ d) {lo k : Nat} (hk : lo ≤ k) {m : SMap α} (h : mwfFrom d lo m = true) :
    mwfFrom d lo (mput k v m) = true := by
  induction m generalizing lo with
  | nil => simp [mput, mwfFrom, hk, hv]
  | cons e r ih =>
    obtain ⟨j, w⟩ := e
    simp [mwfFrom] at h
    simp only [mput]
    split
    · simp [mwfFrom, hk, hv, h]; omega
    · split
      · subst_vars; simp [mwfFrom, hk, hv, h]
      · simp [mwfFrom, h]; exact ih (by omega) h.2

theorem mwfFrom_mdel [DecidableEq α] {d : α} {lo : Nat} (k : Nat) {m : SMap α} (h : mwfFrom d lo m = true) :
    mwfFrom d lo (mdel k m) = true := by
  induction m generalizing lo with
  | nil => rfl
  | cons e r ih =>
    obtain ⟨j, w⟩ := e
    simp [mwfFrom] at h
    simp only [mdel]
    split
    · exact mwfFrom_mono (ih h.2) (by omega)
    · simp [mwfFrom, h]; exact ih h.2

/-- A write keeps the canonical form. -/
theorem mwf_mset [DecidableEq α] {d : α} {m : SMap α} (k : Nat) (v : α) (h : mwf d m = true) : mwf d (mset d m k v) = true := by
  unfold mset; split
  · exact mwfFrom_mdel k h
  · rename_i hv; exact mwfFrom_mput hv (Nat.zero_le k) h

/-- A change keeps the canonical form. -/
theorem mwf_mmod [DecidableEq α] {d : α} {m : SMap α} (k : Nat) (f : α → α) (h : mwf d m = true) : mwf d (mmod d m k f) = true :=
  mwf_mset k _ h

/-- A write of several values keeps the canonical form. -/
theorem mwf_msets [DecidableEq α] {d : α} (l : List α) {m : SMap α} (k : Nat) (h : mwf d m = true) : mwf d (msets d m k l) = true := by
  induction l generalizing k m with
  | nil => exact h
  | cons v r ih => exact ih (k + 1) (mwf_mset k v h)

theorem mwfFrom_mmapVals [DecidableEq α] {d : α} (f : Nat → α → α) {lo : Nat} {m : SMap α} (h : mwfFrom d lo m = true) :
    mwfFrom d lo (mmapVals d f m) = true := by
  induction m generalizing lo with
  | nil => rfl
  | cons e r ih =>
    obtain ⟨j, w⟩ := e
    simp [mwfFrom] at h
    simp only [mmapVals]
    split
    · exact mwfFrom_mono (ih h.2) (by omega)
    · rename_i hne; simp [mwfFrom, h, hne]; exact ih h.2

/-- A change of every listed value keeps the canonical form. -/
theorem mwf_mmapVals [DecidableEq α] {d : α} (f : Nat → α → α) {m : SMap α} (h : mwf d m = true) : mwf d (mmapVals d f m) = true :=
  mwfFrom_mmapVals f h

theorem mwfFrom_mfilter [DecidableEq α] {d : α} (p : Nat → α → Bool) {lo : Nat} {m : SMap α} (h : mwfFrom d lo m = true) :
    mwfFrom d lo (mfilter p m) = true := by
  induction m generalizing lo with
  | nil => rfl
  | cons e r ih =>
    obtain ⟨j, w⟩ := e
    simp [mwfFrom] at h
    unfold mfilter at ih ⊢
    simp only [List.filter_cons]
    split
    · simp [mwfFrom, h]; exact ih h.2
    · exact mwfFrom_mono (ih h.2) (by omega)

/-- Keeping some entries keeps the canonical form. -/
theorem mwf_mfilter [DecidableEq α] {d : α} (p : Nat → α → Bool) {m : SMap α} (h : mwf d m = true) : mwf d (mfilter p m) = true :=
  mwfFrom_mfilter p h

/-- Equal maps: two canonical maps that read alike at every key are one list. -/
theorem mwf_ext [DecidableEq α] {d : α} {lo : Nat} {m n : SMap α} (hm : mwfFrom d lo m = true) (hn : mwfFrom d lo n = true)
    (h : ∀ k, mget d m k = mget d n k) : m = n := by
  have low : ∀ {l : SMap α} {b k : Nat}, mwfFrom d b l = true → k < b → mget d l k = d := by
    intro l
    induction l with
    | nil => intros; rfl
    | cons e r ih =>
      intro b k hw hk
      obtain ⟨j, v⟩ := e
      simp [mwfFrom] at hw
      simp only [mget]; rw [if_neg (by omega)]; exact ih hw.2 (by omega)
  induction m generalizing n lo with
  | nil =>
    cases n with
    | nil => rfl
    | cons e r => obtain ⟨j, v⟩ := e; have := h j; simp [mget] at this; simp [mwfFrom] at hn; exact absurd this.symm hn.1.2
  | cons e r ih =>
    obtain ⟨j, v⟩ := e
    simp [mwfFrom] at hm
    cases n with
    | nil => have := h j; simp [mget] at this; exact absurd this hm.1.2
    | cons e' r' =>
      obtain ⟨j', v'⟩ := e'
      simp [mwfFrom] at hn
      have hj : j = j' := by
        rcases Nat.lt_trichotomy j j' with hlt | heq | hgt
        · have := h j; simp only [mget, if_true] at this
          rw [if_neg (by omega), low hn.2 (by omega)] at this; exact absurd this hm.1.2
        · exact heq
        · have := h j'; simp only [mget, if_true] at this
          rw [if_neg (by omega), low hm.2 (by omega)] at this; exact absurd this.symm hn.1.2
      subst hj
      have hv : v = v' := by simpa [mget] using h j
      subst hv
      rw [ih hm.2 hn.2]
      intro k
      have := h k
      simp only [mget] at this
      by_cases hk : j = k
      · subst hk; rw [low hm.2 (by omega), low hn.2 (by omega)]
      · simpa [hk] using this

end Sys2Proof.Machine
end

