-- ==== Sys2Proof/Laws/Dram.lean ====
section
/-! SUPPORT. DRAM and scratchpads keep their canonical form; what a write of a burst changes. -/

namespace Sys2Proof.Machine

/-- A scratchpad write keeps the canonical form. -/
theorem spPut_wf (a : Nat) (v : W32) (d : TileData) (h : mwf 0 d.scratch = true) : mwf 0 (spPut a v d).scratch = true := mwf_mset _ _ h

/-- Writing words from an address upward keeps the canonical form. -/
theorem spPuts_wf (a : Nat) (l : List W32) (d : TileData) (h : mwf 0 d.scratch = true) : mwf 0 (spPuts a l d).scratch = true := by
  induction l generalizing a d with
  | nil => exact h
  | cons w r ih => exact ih (a + 4) _ (spPut_wf a w d h)

@[simp] theorem countFix_dram (b n : Nat) (m : Mod) : (countFix b n m).dram = m.dram := rfl

@[simp] theorem hostEvent_dram (c p q d a : Nat) (m : Mod) : (hostEvent c p q d a m).dram = m.dram := by
  unfold hostEvent; dsimp only; split
  · rfl
  · split <;> rfl

/-- Noting an uncorrectable word changes no DRAM word. -/
theorem noteUE_dram (b p : Nat) (m : Mod) (j : Nat) : (noteUE b p m j).dram = m.dram := by
  unfold noteUE; simp only [hostEvent_dram]
  split <;> rfl

/-- Noting several. -/
theorem noteUEs_dram (b p : Nat) (l : List Nat) (m : Mod) : (l.foldl (noteUE b p) m).dram = m.dram := by
  induction l generalizing m with
  | nil => rfl
  | cons j r ih => exact (ih _).trans (noteUE_dram b p m j)

/-- Reading a burst changes no DRAM word. -/
theorem eccRead_dram (b : Nat) (m : Mod) : (eccRead b m).2.dram = m.dram := (noteUEs_dram ..).trans (countFix_dram ..)

/-- A write of a burst keeps the canonical form of DRAM. -/
theorem writeBurst_wf (b off : Nat) (l : List Byte) (m : Mod) (h : mwf 0 m.dram = true) : mwf 0 (writeBurst b off l m).2.dram = true := by
  unfold writeBurst
  split
  · exact h
  · dsimp only; rw [noteUEs_dram, countFix_dram]; exact mwf_msets _ _ h

/-- So does a write that is forwarded. -/
theorem writeBoth_wf (b off : Nat) (l : List Byte) (m : Mod) (h : mwf 0 m.dram = true) : mwf 0 (writeBoth b off l m).2.dram = true := by
  unfold writeBoth
  dsimp only; split
  · exact writeBurst_wf _ _ _ _ (writeBurst_wf _ _ _ _ h)
  · exact writeBurst_wf _ _ _ _ h

end Sys2Proof.Machine
end

