-- ==== Sys2Proof/Laws/State.lean ====
section
/-! SUPPORT. Laws of the updates of State: one lemma for each field and each named update (all true by definition), and what each
accessor reads after each update. -/

namespace Sys2Proof.Machine

/-! ## modTile -/

@[simp] theorem modTile_native (k : Nat) (f : Tile → Tile) (m : Mod) : (modTile k f m).native = m.native := by unfold modTile; rfl
@[simp] theorem modTile_now (k : Nat) (f : Tile → Tile) (m : Mod) : (modTile k f m).now = m.now := by unfold modTile; rfl
@[simp] theorem modTile_lost (k : Nat) (f : Tile → Tile) (m : Mod) : (modTile k f m).lost = m.lost := by unfold modTile; rfl
@[simp] theorem modTile_tick (k : Nat) (f : Tile → Tile) (m : Mod) : (modTile k f m).tick = m.tick := by unfold modTile; rfl
@[simp] theorem modTile_phase (k : Nat) (f : Tile → Tile) (m : Mod) : (modTile k f m).phase = m.phase := by unfold modTile; rfl
@[simp] theorem modTile_holdTicks (k : Nat) (f : Tile → Tile) (m : Mod) : (modTile k f m).holdTicks = m.holdTicks := by unfold modTile; rfl
@[simp] theorem modTile_holdFrom (k : Nat) (f : Tile → Tile) (m : Mod) : (modTile k f m).holdFrom = m.holdFrom := by unfold modTile; rfl
@[simp] theorem modTile_source (k : Nat) (f : Tile → Tile) (m : Mod) : (modTile k f m).source = m.source := by unfold modTile; rfl
@[simp] theorem modTile_lock (k : Nat) (f : Tile → Tile) (m : Mod) : (modTile k f m).lock = m.lock := by unfold modTile; rfl
@[simp] theorem modTile_phaseEvent (k : Nat) (f : Tile → Tile) (m : Mod) : (modTile k f m).phaseEvent = m.phaseEvent := by unfold modTile; rfl
@[simp] theorem modTile_expiredEvent (k : Nat) (f : Tile → Tile) (m : Mod) : (modTile k f m).expiredEvent = m.expiredEvent := by unfold modTile; rfl
@[simp] theorem modTile_lostEvent (k : Nat) (f : Tile → Tile) (m : Mod) : (modTile k f m).lostEvent = m.lostEvent := by unfold modTile; rfl
@[simp] theorem modTile_chatter (k : Nat) (f : Tile → Tile) (m : Mod) : (modTile k f m).chatter = m.chatter := by unfold modTile; rfl
@[simp] theorem modTile_phaseErr (k : Nat) (f : Tile → Tile) (m : Mod) : (modTile k f m).phaseErr = m.phaseErr := by unfold modTile; rfl
@[simp] theorem modTile_loss (k : Nat) (f : Tile → Tile) (m : Mod) : (modTile k f m).loss = m.loss := by unfold modTile; rfl
@[simp] theorem modTile_lastEdge (k : Nat) (f : Tile → Tile) (m : Mod) : (modTile k f m).lastEdge = m.lastEdge := by unfold modTile; rfl
@[simp] theorem modTile_expiryFaulted (k : Nat) (f : Tile → Tile) (m : Mod) : (modTile k f m).expiryFaulted = m.expiryFaulted := by unfold modTile; rfl
@[simp] theorem modTile_tiles (k : Nat) (f : Tile → Tile) (m : Mod) : (modTile k f m).tiles = mmod {} m.tiles k f := by unfold modTile; rfl
@[simp] theorem modTile_parts (k : Nat) (f : Tile → Tile) (m : Mod) : (modTile k f m).parts = m.parts := by unfold modTile; rfl
@[simp] theorem modTile_ports (k : Nat) (f : Tile → Tile) (m : Mod) : (modTile k f m).ports = m.ports := by unfold modTile; rfl
@[simp] theorem modTile_engines (k : Nat) (f : Tile → Tile) (m : Mod) : (modTile k f m).engines = m.engines := by unfold modTile; rfl
@[simp] theorem modTile_contribs (k : Nat) (f : Tile → Tile) (m : Mod) : (modTile k f m).contribs = m.contribs := by unfold modTile; rfl
@[simp] theorem modTile_chainBlks (k : Nat) (f : Tile → Tile) (m : Mod) : (modTile k f m).chainBlks = m.chainBlks := by unfold modTile; rfl
@[simp] theorem modTile_pool (k : Nat) (f : Tile → Tile) (m : Mod) : (modTile k f m).pool = m.pool := by unfold modTile; rfl
@[simp] theorem modTile_cgroups (k : Nat) (f : Tile → Tile) (m : Mod) : (modTile k f m).cgroups = m.cgroups := by unfold modTile; rfl
@[simp] theorem modTile_bars (k : Nat) (f : Tile → Tile) (m : Mod) : (modTile k f m).bars = m.bars := by unfold modTile; rfl
@[simp] theorem modTile_flight (k : Nat) (f : Tile → Tile) (m : Mod) : (modTile k f m).flight = m.flight := by unfold modTile; rfl
@[simp] theorem modTile_stopped (k : Nat) (f : Tile → Tile) (m : Mod) : (modTile k f m).stopped = m.stopped := by unfold modTile; rfl
@[simp] theorem modTile_dir (k : Nat) (f : Tile → Tile) (m : Mod) : (modTile k f m).dir = m.dir := by unfold modTile; rfl
@[simp] theorem modTile_dram (k : Nat) (f : Tile → Tile) (m : Mod) : (modTile k f m).dram = m.dram := by unfold modTile; rfl
@[simp] theorem modTile_ecc (k : Nat) (f : Tile → Tile) (m : Mod) : (modTile k f m).ecc = m.ecc := by unfold modTile; rfl
@[simp] theorem modTile_fills (k : Nat) (f : Tile → Tile) (m : Mod) : (modTile k f m).fills = m.fills := by unfold modTile; rfl
@[simp] theorem modTile_moves (k : Nat) (f : Tile → Tile) (m : Mod) : (modTile k f m).moves = m.moves := by unfold modTile; rfl
@[simp] theorem modTile_mvGroups (k : Nat) (f : Tile → Tile) (m : Mod) : (modTile k f m).mvGroups = m.mvGroups := by unfold modTile; rfl
@[simp] theorem modTile_groupNo (k : Nat) (f : Tile → Tile) (m : Mod) : (modTile k f m).groupNo = m.groupNo := by unfold modTile; rfl
@[simp] theorem modTile_relFrames (k : Nat) (f : Tile → Tile) (m : Mod) : (modTile k f m).relFrames = m.relFrames := by unfold modTile; rfl
@[simp] theorem modTile_pagesDone (k : Nat) (f : Tile → Tile) (m : Mod) : (modTile k f m).pagesDone = m.pagesDone := by unfold modTile; rfl
@[simp] theorem modTile_stk (k : Nat) (f : Tile → Tile) (m : Mod) : (modTile k f m).stk = m.stk := by unfold modTile; rfl
@[simp] theorem modTile_shards (k : Nat) (f : Tile → Tile) (m : Mod) : (modTile k f m).shards = m.shards := by unfold modTile; rfl
@[simp] theorem modTile_dwins (k : Nat) (f : Tile → Tile) (m : Mod) : (modTile k f m).dwins = m.dwins := by unfold modTile; rfl
@[simp] theorem modTile_winDenied (k : Nat) (f : Tile → Tile) (m : Mod) : (modTile k f m).winDenied = m.winDenied := by unfold modTile; rfl
@[simp] theorem modTile_moduleNum (k : Nat) (f : Tile → Tile) (m : Mod) : (modTile k f m).moduleNum = m.moduleNum := by unfold modTile; rfl
@[simp] theorem modTile_position (k : Nat) (f : Tile → Tile) (m : Mod) : (modTile k f m).position = m.position := by unfold modTile; rfl
@[simp] theorem modTile_masterStrap (k : Nat) (f : Tile → Tile) (m : Mod) : (modTile k f m).masterStrap = m.masterStrap := by unfold modTile; rfl
@[simp] theorem modTile_role (k : Nat) (f : Tile → Tile) (m : Mod) : (modTile k f m).role = m.role := by unfold modTile; rfl
@[simp] theorem modTile_upstream (k : Nat) (f : Tile → Tile) (m : Mod) : (modTile k f m).upstream = m.upstream := by unfold modTile; rfl
@[simp] theorem modTile_children (k : Nat) (f : Tile → Tile) (m : Mod) : (modTile k f m).children = m.children := by unfold modTile; rfl
@[simp] theorem modTile_masterDelay (k : Nat) (f : Tile → Tile) (m : Mod) : (modTile k f m).masterDelay = m.masterDelay := by unfold modTile; rfl
@[simp] theorem modTile_hopDelay (k : Nat) (f : Tile → Tile) (m : Mod) : (modTile k f m).hopDelay = m.hopDelay := by unfold modTile; rfl
@[simp] theorem modTile_tetherHops (k : Nat) (f : Tile → Tile) (m : Mod) : (modTile k f m).tetherHops = m.tetherHops := by unfold modTile; rfl
@[simp] theorem modTile_bridleHops (k : Nat) (f : Tile → Tile) (m : Mod) : (modTile k f m).bridleHops = m.bridleHops := by unfold modTile; rfl
@[simp] theorem modTile_bridleTimeout (k : Nat) (f : Tile → Tile) (m : Mod) : (modTile k f m).bridleTimeout = m.bridleTimeout := by unfold modTile; rfl
@[simp] theorem modTile_bridlePart (k : Nat) (f : Tile → Tile) (m : Mod) : (modTile k f m).bridlePart = m.bridlePart := by unfold modTile; rfl
@[simp] theorem modTile_bridleEnable (k : Nat) (f : Tile → Tile) (m : Mod) : (modTile k f m).bridleEnable = m.bridleEnable := by unfold modTile; rfl
@[simp] theorem modTile_timeoutEvent (k : Nat) (f : Tile → Tile) (m : Mod) : (modTile k f m).timeoutEvent = m.timeoutEvent := by unfold modTile; rfl
@[simp] theorem modTile_line (k : Nat) (f : Tile → Tile) (m : Mod) : (modTile k f m).line = m.line := by unfold modTile; rfl
@[simp] theorem modTile_released (k : Nat) (f : Tile → Tile) (m : Mod) : (modTile k f m).released = m.released := by unfold modTile; rfl
@[simp] theorem modTile_releasedAt (k : Nat) (f : Tile → Tile) (m : Mod) : (modTile k f m).releasedAt = m.releasedAt := by unfold modTile; rfl
@[simp] theorem modTile_bridleDone (k : Nat) (f : Tile → Tile) (m : Mod) : (modTile k f m).bridleDone = m.bridleDone := by unfold modTile; rfl
@[simp] theorem modTile_releaseDue (k : Nat) (f : Tile → Tile) (m : Mod) : (modTile k f m).releaseDue = m.releaseDue := by unfold modTile; rfl
@[simp] theorem modTile_lineOn (k : Nat) (f : Tile → Tile) (m : Mod) : (modTile k f m).lineOn = m.lineOn := by unfold modTile; rfl
@[simp] theorem modTile_lineLow (k : Nat) (f : Tile → Tile) (m : Mod) : (modTile k f m).lineLow = m.lineLow := by unfold modTile; rfl
@[simp] theorem modTile_routeDrops (k : Nat) (f : Tile → Tile) (m : Mod) : (modTile k f m).routeDrops = m.routeDrops := by unfold modTile; rfl
@[simp] theorem modTile_forwarded (k : Nat) (f : Tile → Tile) (m : Mod) : (modTile k f m).forwarded = m.forwarded := by unfold modTile; rfl
@[simp] theorem modTile_fwd (k : Nat) (f : Tile → Tile) (m : Mod) : (modTile k f m).fwd = m.fwd := by unfold modTile; rfl
@[simp] theorem modTile_others (k : Nat) (f : Tile → Tile) (m : Mod) : (modTile k f m).others = m.others := by unfold modTile; rfl
@[simp] theorem modTile_training (k : Nat) (f : Tile → Tile) (m : Mod) : (modTile k f m).training = m.training := by unfold modTile; rfl
@[simp] theorem modTile_syncing (k : Nat) (f : Tile → Tile) (m : Mod) : (modTile k f m).syncing = m.syncing := by unfold modTile; rfl
@[simp] theorem modTile_alignLoaded (k : Nat) (f : Tile → Tile) (m : Mod) : (modTile k f m).alignLoaded = m.alignLoaded := by unfold modTile; rfl
@[simp] theorem modTile_reports (k : Nat) (f : Tile → Tile) (m : Mod) : (modTile k f m).reports = m.reports := by unfold modTile; rfl
@[simp] theorem modTile_box (k : Nat) (f : Tile → Tile) (m : Mod) : (modTile k f m).box = m.box := by unfold modTile; rfl
@[simp] theorem modTile_atgen (k : Nat) (f : Tile → Tile) (m : Mod) : (modTile k f m).atgen = m.atgen := by unfold modTile; rfl
@[simp] theorem modTile_power (k : Nat) (f : Tile → Tile) (m : Mod) : (modTile k f m).power = m.power := by unfold modTile; rfl
@[simp] theorem modTile_halves (k : Nat) (f : Tile → Tile) (m : Mod) : (modTile k f m).halves = m.halves := by unfold modTile; rfl
@[simp] theorem modTile_resetTile (k : Nat) (f : Tile → Tile) (m : Mod) : (modTile k f m).resetTile = m.resetTile := by unfold modTile; rfl
@[simp] theorem modTile_resetLast (k : Nat) (f : Tile → Tile) (m : Mod) : (modTile k f m).resetLast = m.resetLast := by unfold modTile; rfl
@[simp] theorem modTile_bringup (k : Nat) (f : Tile → Tile) (m : Mod) : (modTile k f m).bringup = m.bringup := by unfold modTile; rfl
@[simp] theorem modTile_stacksOk (k : Nat) (f : Tile → Tile) (m : Mod) : (modTile k f m).stacksOk = m.stacksOk := by unfold modTile; rfl
@[simp] theorem modTile_warmResets (k : Nat) (f : Tile → Tile) (m : Mod) : (modTile k f m).warmResets = m.warmResets := by unfold modTile; rfl
@[simp] theorem modTile_tileResets (k : Nat) (f : Tile → Tile) (m : Mod) : (modTile k f m).tileResets = m.tileResets := by unfold modTile; rfl
@[simp] theorem modTile_sets (k : Nat) (f : Tile → Tile) (m : Mod) : (modTile k f m).sets = m.sets := by unfold modTile; rfl
@[simp] theorem modTile_warmPending (k : Nat) (f : Tile → Tile) (m : Mod) : (modTile k f m).warmPending = m.warmPending := by unfold modTile; rfl
@[simp] theorem modTile_stuckHigh (k : Nat) (f : Tile → Tile) (m : Mod) : (modTile k f m).stuckHigh = m.stuckHigh := by unfold modTile; rfl
@[simp] theorem modTile_barrierPin (k : Nat) (f : Tile → Tile) (m : Mod) : (modTile k f m).barrierPin = m.barrierPin := by unfold modTile; rfl
@[simp] theorem modTile_tickInHigh (k : Nat) (f : Tile → Tile) (m : Mod) : (modTile k f m).tickInHigh = m.tickInHigh := by unfold modTile; rfl
@[simp] theorem modTile_tickOutHigh (k : Nat) (f : Tile → Tile) (m : Mod) : (modTile k f m).tickOutHigh = m.tickOutHigh := by unfold modTile; rfl
@[simp] theorem modTile_haltRaw (k : Nat) (f : Tile → Tile) (m : Mod) : (modTile k f m).haltRaw = m.haltRaw := by unfold modTile; rfl
@[simp] theorem modTile_resetNPin (k : Nat) (f : Tile → Tile) (m : Mod) : (modTile k f m).resetNPin = m.resetNPin := by unfold modTile; rfl
@[simp] theorem modTile_heldAtRails (k : Nat) (f : Tile → Tile) (m : Mod) : (modTile k f m).heldAtRails = m.heldAtRails := by unfold modTile; rfl
@[simp] theorem modTile_powered (k : Nat) (f : Tile → Tile) (m : Mod) : (modTile k f m).powered = m.powered := by unfold modTile; rfl
@[simp] theorem modTile_lasts (k : Nat) (f : Tile → Tile) (m : Mod) : (modTile k f m).lasts = m.lasts := by unfold modTile; rfl
@[simp] theorem modTile_msums (k : Nat) (f : Tile → Tile) (m : Mod) : (modTile k f m).msums = m.msums := by unfold modTile; rfl
@[simp] theorem modTile_events (k : Nat) (f : Tile → Tile) (m : Mod) : (modTile k f m).events = m.events := by unfold modTile; rfl
@[simp] theorem modTile_passRunning (k : Nat) (f : Tile → Tile) (m : Mod) : (modTile k f m).passRunning = m.passRunning := by unfold modTile; rfl
@[simp] theorem modTile_passStart (k : Nat) (f : Tile → Tile) (m : Mod) : (modTile k f m).passStart = m.passStart := by unfold modTile; rfl
@[simp] theorem modTile_passVals (k : Nat) (f : Tile → Tile) (m : Mod) : (modTile k f m).passVals = m.passVals := by unfold modTile; rfl
@[simp] theorem modTile_passEvents (k : Nat) (f : Tile → Tile) (m : Mod) : (modTile k f m).passEvents = m.passEvents := by unfold modTile; rfl
@[simp] theorem modTile_free (k : Nat) (f : Tile → Tile) (m : Mod) : (modTile k f m).free = m.free := by unfold modTile; rfl
@[simp] theorem modTile_out (k : Nat) (f : Tile → Tile) (m : Mod) : (modTile k f m).out = m.out := by unfold modTile; rfl
theorem tileOf_modTile (k j : Nat) (f : Tile → Tile) (m : Mod) : tileOf (modTile k f m) j = if k = j then f (tileOf m k) else tileOf m j :=
  mget_mmod ({} : Tile) k j f m.tiles
@[simp] theorem tileOf_modTile_self (k : Nat) (f : Tile → Tile) (m : Mod) : tileOf (modTile k f m) k = f (tileOf m k) := by simp [tileOf_modTile]
@[simp] theorem partOf_modTile (k j : Nat) (f : Tile → Tile) (m : Mod) : partOf (modTile k f m) j = partOf m j := by unfold modTile; rfl
@[simp] theorem portOf_modTile (k j : Nat) (f : Tile → Tile) (m : Mod) : portOf (modTile k f m) j = portOf m j := by unfold modTile; rfl
@[simp] theorem engineOf_modTile (k j : Nat) (f : Tile → Tile) (m : Mod) : engineOf (modTile k f m) j = engineOf m j := by unfold modTile; rfl
@[simp] theorem epOf_modTile (k j : Nat) (f : Tile → Tile) (m : Mod) : epOf (modTile k f m) j = epOf m j := by unfold modTile; rfl
@[simp] theorem barOf_modTile (k j : Nat) (f : Tile → Tile) (m : Mod) : barOf (modTile k f m) j = barOf m j := by unfold modTile; rfl
@[simp] theorem pageOf_modTile (k j : Nat) (f : Tile → Tile) (m : Mod) : pageOf (modTile k f m) j = pageOf m j := by unfold modTile; rfl
@[simp] theorem stackOf_modTile (k j : Nat) (f : Tile → Tile) (m : Mod) : stackOf (modTile k f m) j = stackOf m j := by unfold modTile; rfl
@[simp] theorem shardOf_modTile (k j : Nat) (f : Tile → Tile) (m : Mod) : shardOf (modTile k f m) j = shardOf m j := by unfold modTile; rfl
@[simp] theorem halfSt_modTile (k j : Nat) (f : Tile → Tile) (m : Mod) : halfSt (modTile k f m) j = halfSt m j := by unfold modTile; rfl

/-! ## modPart -/

@[simp] theorem modPart_native (k : Nat) (f : Part → Part) (m : Mod) : (modPart k f m).native = m.native := by unfold modPart; rfl
@[simp] theorem modPart_now (k : Nat) (f : Part → Part) (m : Mod) : (modPart k f m).now = m.now := by unfold modPart; rfl
@[simp] theorem modPart_lost (k : Nat) (f : Part → Part) (m : Mod) : (modPart k f m).lost = m.lost := by unfold modPart; rfl
@[simp] theorem modPart_tick (k : Nat) (f : Part → Part) (m : Mod) : (modPart k f m).tick = m.tick := by unfold modPart; rfl
@[simp] theorem modPart_phase (k : Nat) (f : Part → Part) (m : Mod) : (modPart k f m).phase = m.phase := by unfold modPart; rfl
@[simp] theorem modPart_holdTicks (k : Nat) (f : Part → Part) (m : Mod) : (modPart k f m).holdTicks = m.holdTicks := by unfold modPart; rfl
@[simp] theorem modPart_holdFrom (k : Nat) (f : Part → Part) (m : Mod) : (modPart k f m).holdFrom = m.holdFrom := by unfold modPart; rfl
@[simp] theorem modPart_source (k : Nat) (f : Part → Part) (m : Mod) : (modPart k f m).source = m.source := by unfold modPart; rfl
@[simp] theorem modPart_lock (k : Nat) (f : Part → Part) (m : Mod) : (modPart k f m).lock = m.lock := by unfold modPart; rfl
@[simp] theorem modPart_phaseEvent (k : Nat) (f : Part → Part) (m : Mod) : (modPart k f m).phaseEvent = m.phaseEvent := by unfold modPart; rfl
@[simp] theorem modPart_expiredEvent (k : Nat) (f : Part → Part) (m : Mod) : (modPart k f m).expiredEvent = m.expiredEvent := by unfold modPart; rfl
@[simp] theorem modPart_lostEvent (k : Nat) (f : Part → Part) (m : Mod) : (modPart k f m).lostEvent = m.lostEvent := by unfold modPart; rfl
@[simp] theorem modPart_chatter (k : Nat) (f : Part → Part) (m : Mod) : (modPart k f m).chatter = m.chatter := by unfold modPart; rfl
@[simp] theorem modPart_phaseErr (k : Nat) (f : Part → Part) (m : Mod) : (modPart k f m).phaseErr = m.phaseErr := by unfold modPart; rfl
@[simp] theorem modPart_loss (k : Nat) (f : Part → Part) (m : Mod) : (modPart k f m).loss = m.loss := by unfold modPart; rfl
@[simp] theorem modPart_lastEdge (k : Nat) (f : Part → Part) (m : Mod) : (modPart k f m).lastEdge = m.lastEdge := by unfold modPart; rfl
@[simp] theorem modPart_expiryFaulted (k : Nat) (f : Part → Part) (m : Mod) : (modPart k f m).expiryFaulted = m.expiryFaulted := by unfold modPart; rfl
@[simp] theorem modPart_tiles (k : Nat) (f : Part → Part) (m : Mod) : (modPart k f m).tiles = m.tiles := by unfold modPart; rfl
@[simp] theorem modPart_parts (k : Nat) (f : Part → Part) (m : Mod) : (modPart k f m).parts = mmod {} m.parts k f := by unfold modPart; rfl
@[simp] theorem modPart_ports (k : Nat) (f : Part → Part) (m : Mod) : (modPart k f m).ports = m.ports := by unfold modPart; rfl
@[simp] theorem modPart_engines (k : Nat) (f : Part → Part) (m : Mod) : (modPart k f m).engines = m.engines := by unfold modPart; rfl
@[simp] theorem modPart_contribs (k : Nat) (f : Part → Part) (m : Mod) : (modPart k f m).contribs = m.contribs := by unfold modPart; rfl
@[simp] theorem modPart_chainBlks (k : Nat) (f : Part → Part) (m : Mod) : (modPart k f m).chainBlks = m.chainBlks := by unfold modPart; rfl
@[simp] theorem modPart_pool (k : Nat) (f : Part → Part) (m : Mod) : (modPart k f m).pool = m.pool := by unfold modPart; rfl
@[simp] theorem modPart_cgroups (k : Nat) (f : Part → Part) (m : Mod) : (modPart k f m).cgroups = m.cgroups := by unfold modPart; rfl
@[simp] theorem modPart_bars (k : Nat) (f : Part → Part) (m : Mod) : (modPart k f m).bars = m.bars := by unfold modPart; rfl
@[simp] theorem modPart_flight (k : Nat) (f : Part → Part) (m : Mod) : (modPart k f m).flight = m.flight := by unfold modPart; rfl
@[simp] theorem modPart_stopped (k : Nat) (f : Part → Part) (m : Mod) : (modPart k f m).stopped = m.stopped := by unfold modPart; rfl
@[simp] theorem modPart_dir (k : Nat) (f : Part → Part) (m : Mod) : (modPart k f m).dir = m.dir := by unfold modPart; rfl
@[simp] theorem modPart_dram (k : Nat) (f : Part → Part) (m : Mod) : (modPart k f m).dram = m.dram := by unfold modPart; rfl
@[simp] theorem modPart_ecc (k : Nat) (f : Part → Part) (m : Mod) : (modPart k f m).ecc = m.ecc := by unfold modPart; rfl
@[simp] theorem modPart_fills (k : Nat) (f : Part → Part) (m : Mod) : (modPart k f m).fills = m.fills := by unfold modPart; rfl
@[simp] theorem modPart_moves (k : Nat) (f : Part → Part) (m : Mod) : (modPart k f m).moves = m.moves := by unfold modPart; rfl
@[simp] theorem modPart_mvGroups (k : Nat) (f : Part → Part) (m : Mod) : (modPart k f m).mvGroups = m.mvGroups := by unfold modPart; rfl
@[simp] theorem modPart_groupNo (k : Nat) (f : Part → Part) (m : Mod) : (modPart k f m).groupNo = m.groupNo := by unfold modPart; rfl
@[simp] theorem modPart_relFrames (k : Nat) (f : Part → Part) (m : Mod) : (modPart k f m).relFrames = m.relFrames := by unfold modPart; rfl
@[simp] theorem modPart_pagesDone (k : Nat) (f : Part → Part) (m : Mod) : (modPart k f m).pagesDone = m.pagesDone := by unfold modPart; rfl
@[simp] theorem modPart_stk (k : Nat) (f : Part → Part) (m : Mod) : (modPart k f m).stk = m.stk := by unfold modPart; rfl
@[simp] theorem modPart_shards (k : Nat) (f : Part → Part) (m : Mod) : (modPart k f m).shards = m.shards := by unfold modPart; rfl
@[simp] theorem modPart_dwins (k : Nat) (f : Part → Part) (m : Mod) : (modPart k f m).dwins = m.dwins := by unfold modPart; rfl
@[simp] theorem modPart_winDenied (k : Nat) (f : Part → Part) (m : Mod) : (modPart k f m).winDenied = m.winDenied := by unfold modPart; rfl
@[simp] theorem modPart_moduleNum (k : Nat) (f : Part → Part) (m : Mod) : (modPart k f m).moduleNum = m.moduleNum := by unfold modPart; rfl
@[simp] theorem modPart_position (k : Nat) (f : Part → Part) (m : Mod) : (modPart k f m).position = m.position := by unfold modPart; rfl
@[simp] theorem modPart_masterStrap (k : Nat) (f : Part → Part) (m : Mod) : (modPart k f m).masterStrap = m.masterStrap := by unfold modPart; rfl
@[simp] theorem modPart_role (k : Nat) (f : Part → Part) (m : Mod) : (modPart k f m).role = m.role := by unfold modPart; rfl
@[simp] theorem modPart_upstream (k : Nat) (f : Part → Part) (m : Mod) : (modPart k f m).upstream = m.upstream := by unfold modPart; rfl
@[simp] theorem modPart_children (k : Nat) (f : Part → Part) (m : Mod) : (modPart k f m).children = m.children := by unfold modPart; rfl
@[simp] theorem modPart_masterDelay (k : Nat) (f : Part → Part) (m : Mod) : (modPart k f m).masterDelay = m.masterDelay := by unfold modPart; rfl
@[simp] theorem modPart_hopDelay (k : Nat) (f : Part → Part) (m : Mod) : (modPart k f m).hopDelay = m.hopDelay := by unfold modPart; rfl
@[simp] theorem modPart_tetherHops (k : Nat) (f : Part → Part) (m : Mod) : (modPart k f m).tetherHops = m.tetherHops := by unfold modPart; rfl
@[simp] theorem modPart_bridleHops (k : Nat) (f : Part → Part) (m : Mod) : (modPart k f m).bridleHops = m.bridleHops := by unfold modPart; rfl
@[simp] theorem modPart_bridleTimeout (k : Nat) (f : Part → Part) (m : Mod) : (modPart k f m).bridleTimeout = m.bridleTimeout := by unfold modPart; rfl
@[simp] theorem modPart_bridlePart (k : Nat) (f : Part → Part) (m : Mod) : (modPart k f m).bridlePart = m.bridlePart := by unfold modPart; rfl
@[simp] theorem modPart_bridleEnable (k : Nat) (f : Part → Part) (m : Mod) : (modPart k f m).bridleEnable = m.bridleEnable := by unfold modPart; rfl
@[simp] theorem modPart_timeoutEvent (k : Nat) (f : Part → Part) (m : Mod) : (modPart k f m).timeoutEvent = m.timeoutEvent := by unfold modPart; rfl
@[simp] theorem modPart_line (k : Nat) (f : Part → Part) (m : Mod) : (modPart k f m).line = m.line := by unfold modPart; rfl
@[simp] theorem modPart_released (k : Nat) (f : Part → Part) (m : Mod) : (modPart k f m).released = m.released := by unfold modPart; rfl
@[simp] theorem modPart_releasedAt (k : Nat) (f : Part → Part) (m : Mod) : (modPart k f m).releasedAt = m.releasedAt := by unfold modPart; rfl
@[simp] theorem modPart_bridleDone (k : Nat) (f : Part → Part) (m : Mod) : (modPart k f m).bridleDone = m.bridleDone := by unfold modPart; rfl
@[simp] theorem modPart_releaseDue (k : Nat) (f : Part → Part) (m : Mod) : (modPart k f m).releaseDue = m.releaseDue := by unfold modPart; rfl
@[simp] theorem modPart_lineOn (k : Nat) (f : Part → Part) (m : Mod) : (modPart k f m).lineOn = m.lineOn := by unfold modPart; rfl
@[simp] theorem modPart_lineLow (k : Nat) (f : Part → Part) (m : Mod) : (modPart k f m).lineLow = m.lineLow := by unfold modPart; rfl
@[simp] theorem modPart_routeDrops (k : Nat) (f : Part → Part) (m : Mod) : (modPart k f m).routeDrops = m.routeDrops := by unfold modPart; rfl
@[simp] theorem modPart_forwarded (k : Nat) (f : Part → Part) (m : Mod) : (modPart k f m).forwarded = m.forwarded := by unfold modPart; rfl
@[simp] theorem modPart_fwd (k : Nat) (f : Part → Part) (m : Mod) : (modPart k f m).fwd = m.fwd := by unfold modPart; rfl
@[simp] theorem modPart_others (k : Nat) (f : Part → Part) (m : Mod) : (modPart k f m).others = m.others := by unfold modPart; rfl
@[simp] theorem modPart_training (k : Nat) (f : Part → Part) (m : Mod) : (modPart k f m).training = m.training := by unfold modPart; rfl
@[simp] theorem modPart_syncing (k : Nat) (f : Part → Part) (m : Mod) : (modPart k f m).syncing = m.syncing := by unfold modPart; rfl
@[simp] theorem modPart_alignLoaded (k : Nat) (f : Part → Part) (m : Mod) : (modPart k f m).alignLoaded = m.alignLoaded := by unfold modPart; rfl
@[simp] theorem modPart_reports (k : Nat) (f : Part → Part) (m : Mod) : (modPart k f m).reports = m.reports := by unfold modPart; rfl
@[simp] theorem modPart_box (k : Nat) (f : Part → Part) (m : Mod) : (modPart k f m).box = m.box := by unfold modPart; rfl
@[simp] theorem modPart_atgen (k : Nat) (f : Part → Part) (m : Mod) : (modPart k f m).atgen = m.atgen := by unfold modPart; rfl
@[simp] theorem modPart_power (k : Nat) (f : Part → Part) (m : Mod) : (modPart k f m).power = m.power := by unfold modPart; rfl
@[simp] theorem modPart_halves (k : Nat) (f : Part → Part) (m : Mod) : (modPart k f m).halves = m.halves := by unfold modPart; rfl
@[simp] theorem modPart_resetTile (k : Nat) (f : Part → Part) (m : Mod) : (modPart k f m).resetTile = m.resetTile := by unfold modPart; rfl
@[simp] theorem modPart_resetLast (k : Nat) (f : Part → Part) (m : Mod) : (modPart k f m).resetLast = m.resetLast := by unfold modPart; rfl
@[simp] theorem modPart_bringup (k : Nat) (f : Part → Part) (m : Mod) : (modPart k f m).bringup = m.bringup := by unfold modPart; rfl
@[simp] theorem modPart_stacksOk (k : Nat) (f : Part → Part) (m : Mod) : (modPart k f m).stacksOk = m.stacksOk := by unfold modPart; rfl
@[simp] theorem modPart_warmResets (k : Nat) (f : Part → Part) (m : Mod) : (modPart k f m).warmResets = m.warmResets := by unfold modPart; rfl
@[simp] theorem modPart_tileResets (k : Nat) (f : Part → Part) (m : Mod) : (modPart k f m).tileResets = m.tileResets := by unfold modPart; rfl
@[simp] theorem modPart_sets (k : Nat) (f : Part → Part) (m : Mod) : (modPart k f m).sets = m.sets := by unfold modPart; rfl
@[simp] theorem modPart_warmPending (k : Nat) (f : Part → Part) (m : Mod) : (modPart k f m).warmPending = m.warmPending := by unfold modPart; rfl
@[simp] theorem modPart_stuckHigh (k : Nat) (f : Part → Part) (m : Mod) : (modPart k f m).stuckHigh = m.stuckHigh := by unfold modPart; rfl
@[simp] theorem modPart_barrierPin (k : Nat) (f : Part → Part) (m : Mod) : (modPart k f m).barrierPin = m.barrierPin := by unfold modPart; rfl
@[simp] theorem modPart_tickInHigh (k : Nat) (f : Part → Part) (m : Mod) : (modPart k f m).tickInHigh = m.tickInHigh := by unfold modPart; rfl
@[simp] theorem modPart_tickOutHigh (k : Nat) (f : Part → Part) (m : Mod) : (modPart k f m).tickOutHigh = m.tickOutHigh := by unfold modPart; rfl
@[simp] theorem modPart_haltRaw (k : Nat) (f : Part → Part) (m : Mod) : (modPart k f m).haltRaw = m.haltRaw := by unfold modPart; rfl
@[simp] theorem modPart_resetNPin (k : Nat) (f : Part → Part) (m : Mod) : (modPart k f m).resetNPin = m.resetNPin := by unfold modPart; rfl
@[simp] theorem modPart_heldAtRails (k : Nat) (f : Part → Part) (m : Mod) : (modPart k f m).heldAtRails = m.heldAtRails := by unfold modPart; rfl
@[simp] theorem modPart_powered (k : Nat) (f : Part → Part) (m : Mod) : (modPart k f m).powered = m.powered := by unfold modPart; rfl
@[simp] theorem modPart_lasts (k : Nat) (f : Part → Part) (m : Mod) : (modPart k f m).lasts = m.lasts := by unfold modPart; rfl
@[simp] theorem modPart_msums (k : Nat) (f : Part → Part) (m : Mod) : (modPart k f m).msums = m.msums := by unfold modPart; rfl
@[simp] theorem modPart_events (k : Nat) (f : Part → Part) (m : Mod) : (modPart k f m).events = m.events := by unfold modPart; rfl
@[simp] theorem modPart_passRunning (k : Nat) (f : Part → Part) (m : Mod) : (modPart k f m).passRunning = m.passRunning := by unfold modPart; rfl
@[simp] theorem modPart_passStart (k : Nat) (f : Part → Part) (m : Mod) : (modPart k f m).passStart = m.passStart := by unfold modPart; rfl
@[simp] theorem modPart_passVals (k : Nat) (f : Part → Part) (m : Mod) : (modPart k f m).passVals = m.passVals := by unfold modPart; rfl
@[simp] theorem modPart_passEvents (k : Nat) (f : Part → Part) (m : Mod) : (modPart k f m).passEvents = m.passEvents := by unfold modPart; rfl
@[simp] theorem modPart_free (k : Nat) (f : Part → Part) (m : Mod) : (modPart k f m).free = m.free := by unfold modPart; rfl
@[simp] theorem modPart_out (k : Nat) (f : Part → Part) (m : Mod) : (modPart k f m).out = m.out := by unfold modPart; rfl
theorem partOf_modPart (k j : Nat) (f : Part → Part) (m : Mod) : partOf (modPart k f m) j = if k = j then f (partOf m k) else partOf m j :=
  mget_mmod ({} : Part) k j f m.parts
@[simp] theorem partOf_modPart_self (k : Nat) (f : Part → Part) (m : Mod) : partOf (modPart k f m) k = f (partOf m k) := by simp [partOf_modPart]
@[simp] theorem tileOf_modPart (k j : Nat) (f : Part → Part) (m : Mod) : tileOf (modPart k f m) j = tileOf m j := by unfold modPart; rfl
@[simp] theorem portOf_modPart (k j : Nat) (f : Part → Part) (m : Mod) : portOf (modPart k f m) j = portOf m j := by unfold modPart; rfl
@[simp] theorem engineOf_modPart (k j : Nat) (f : Part → Part) (m : Mod) : engineOf (modPart k f m) j = engineOf m j := by unfold modPart; rfl
@[simp] theorem epOf_modPart (k j : Nat) (f : Part → Part) (m : Mod) : epOf (modPart k f m) j = epOf m j := by unfold modPart; rfl
@[simp] theorem barOf_modPart (k j : Nat) (f : Part → Part) (m : Mod) : barOf (modPart k f m) j = barOf m j := by unfold modPart; rfl
@[simp] theorem pageOf_modPart (k j : Nat) (f : Part → Part) (m : Mod) : pageOf (modPart k f m) j = pageOf m j := by unfold modPart; rfl
@[simp] theorem stackOf_modPart (k j : Nat) (f : Part → Part) (m : Mod) : stackOf (modPart k f m) j = stackOf m j := by unfold modPart; rfl
@[simp] theorem shardOf_modPart (k j : Nat) (f : Part → Part) (m : Mod) : shardOf (modPart k f m) j = shardOf m j := by unfold modPart; rfl
@[simp] theorem halfSt_modPart (k j : Nat) (f : Part → Part) (m : Mod) : halfSt (modPart k f m) j = halfSt m j := by unfold modPart; rfl

/-! ## modPort -/

@[simp] theorem modPort_native (k : Nat) (f : Port → Port) (m : Mod) : (modPort k f m).native = m.native := by unfold modPort; rfl
@[simp] theorem modPort_now (k : Nat) (f : Port → Port) (m : Mod) : (modPort k f m).now = m.now := by unfold modPort; rfl
@[simp] theorem modPort_lost (k : Nat) (f : Port → Port) (m : Mod) : (modPort k f m).lost = m.lost := by unfold modPort; rfl
@[simp] theorem modPort_tick (k : Nat) (f : Port → Port) (m : Mod) : (modPort k f m).tick = m.tick := by unfold modPort; rfl
@[simp] theorem modPort_phase (k : Nat) (f : Port → Port) (m : Mod) : (modPort k f m).phase = m.phase := by unfold modPort; rfl
@[simp] theorem modPort_holdTicks (k : Nat) (f : Port → Port) (m : Mod) : (modPort k f m).holdTicks = m.holdTicks := by unfold modPort; rfl
@[simp] theorem modPort_holdFrom (k : Nat) (f : Port → Port) (m : Mod) : (modPort k f m).holdFrom = m.holdFrom := by unfold modPort; rfl
@[simp] theorem modPort_source (k : Nat) (f : Port → Port) (m : Mod) : (modPort k f m).source = m.source := by unfold modPort; rfl
@[simp] theorem modPort_lock (k : Nat) (f : Port → Port) (m : Mod) : (modPort k f m).lock = m.lock := by unfold modPort; rfl
@[simp] theorem modPort_phaseEvent (k : Nat) (f : Port → Port) (m : Mod) : (modPort k f m).phaseEvent = m.phaseEvent := by unfold modPort; rfl
@[simp] theorem modPort_expiredEvent (k : Nat) (f : Port → Port) (m : Mod) : (modPort k f m).expiredEvent = m.expiredEvent := by unfold modPort; rfl
@[simp] theorem modPort_lostEvent (k : Nat) (f : Port → Port) (m : Mod) : (modPort k f m).lostEvent = m.lostEvent := by unfold modPort; rfl
@[simp] theorem modPort_chatter (k : Nat) (f : Port → Port) (m : Mod) : (modPort k f m).chatter = m.chatter := by unfold modPort; rfl
@[simp] theorem modPort_phaseErr (k : Nat) (f : Port → Port) (m : Mod) : (modPort k f m).phaseErr = m.phaseErr := by unfold modPort; rfl
@[simp] theorem modPort_loss (k : Nat) (f : Port → Port) (m : Mod) : (modPort k f m).loss = m.loss := by unfold modPort; rfl
@[simp] theorem modPort_lastEdge (k : Nat) (f : Port → Port) (m : Mod) : (modPort k f m).lastEdge = m.lastEdge := by unfold modPort; rfl
@[simp] theorem modPort_expiryFaulted (k : Nat) (f : Port → Port) (m : Mod) : (modPort k f m).expiryFaulted = m.expiryFaulted := by unfold modPort; rfl
@[simp] theorem modPort_tiles (k : Nat) (f : Port → Port) (m : Mod) : (modPort k f m).tiles = m.tiles := by unfold modPort; rfl
@[simp] theorem modPort_parts (k : Nat) (f : Port → Port) (m : Mod) : (modPort k f m).parts = m.parts := by unfold modPort; rfl
@[simp] theorem modPort_ports (k : Nat) (f : Port → Port) (m : Mod) : (modPort k f m).ports = mmod {} m.ports k f := by unfold modPort; rfl
@[simp] theorem modPort_engines (k : Nat) (f : Port → Port) (m : Mod) : (modPort k f m).engines = m.engines := by unfold modPort; rfl
@[simp] theorem modPort_contribs (k : Nat) (f : Port → Port) (m : Mod) : (modPort k f m).contribs = m.contribs := by unfold modPort; rfl
@[simp] theorem modPort_chainBlks (k : Nat) (f : Port → Port) (m : Mod) : (modPort k f m).chainBlks = m.chainBlks := by unfold modPort; rfl
@[simp] theorem modPort_pool (k : Nat) (f : Port → Port) (m : Mod) : (modPort k f m).pool = m.pool := by unfold modPort; rfl
@[simp] theorem modPort_cgroups (k : Nat) (f : Port → Port) (m : Mod) : (modPort k f m).cgroups = m.cgroups := by unfold modPort; rfl
@[simp] theorem modPort_bars (k : Nat) (f : Port → Port) (m : Mod) : (modPort k f m).bars = m.bars := by unfold modPort; rfl
@[simp] theorem modPort_flight (k : Nat) (f : Port → Port) (m : Mod) : (modPort k f m).flight = m.flight := by unfold modPort; rfl
@[simp] theorem modPort_stopped (k : Nat) (f : Port → Port) (m : Mod) : (modPort k f m).stopped = m.stopped := by unfold modPort; rfl
@[simp] theorem modPort_dir (k : Nat) (f : Port → Port) (m : Mod) : (modPort k f m).dir = m.dir := by unfold modPort; rfl
@[simp] theorem modPort_dram (k : Nat) (f : Port → Port) (m : Mod) : (modPort k f m).dram = m.dram := by unfold modPort; rfl
@[simp] theorem modPort_ecc (k : Nat) (f : Port → Port) (m : Mod) : (modPort k f m).ecc = m.ecc := by unfold modPort; rfl
@[simp] theorem modPort_fills (k : Nat) (f : Port → Port) (m : Mod) : (modPort k f m).fills = m.fills := by unfold modPort; rfl
@[simp] theorem modPort_moves (k : Nat) (f : Port → Port) (m : Mod) : (modPort k f m).moves = m.moves := by unfold modPort; rfl
@[simp] theorem modPort_mvGroups (k : Nat) (f : Port → Port) (m : Mod) : (modPort k f m).mvGroups = m.mvGroups := by unfold modPort; rfl
@[simp] theorem modPort_groupNo (k : Nat) (f : Port → Port) (m : Mod) : (modPort k f m).groupNo = m.groupNo := by unfold modPort; rfl
@[simp] theorem modPort_relFrames (k : Nat) (f : Port → Port) (m : Mod) : (modPort k f m).relFrames = m.relFrames := by unfold modPort; rfl
@[simp] theorem modPort_pagesDone (k : Nat) (f : Port → Port) (m : Mod) : (modPort k f m).pagesDone = m.pagesDone := by unfold modPort; rfl
@[simp] theorem modPort_stk (k : Nat) (f : Port → Port) (m : Mod) : (modPort k f m).stk = m.stk := by unfold modPort; rfl
@[simp] theorem modPort_shards (k : Nat) (f : Port → Port) (m : Mod) : (modPort k f m).shards = m.shards := by unfold modPort; rfl
@[simp] theorem modPort_dwins (k : Nat) (f : Port → Port) (m : Mod) : (modPort k f m).dwins = m.dwins := by unfold modPort; rfl
@[simp] theorem modPort_winDenied (k : Nat) (f : Port → Port) (m : Mod) : (modPort k f m).winDenied = m.winDenied := by unfold modPort; rfl
@[simp] theorem modPort_moduleNum (k : Nat) (f : Port → Port) (m : Mod) : (modPort k f m).moduleNum = m.moduleNum := by unfold modPort; rfl
@[simp] theorem modPort_position (k : Nat) (f : Port → Port) (m : Mod) : (modPort k f m).position = m.position := by unfold modPort; rfl
@[simp] theorem modPort_masterStrap (k : Nat) (f : Port → Port) (m : Mod) : (modPort k f m).masterStrap = m.masterStrap := by unfold modPort; rfl
@[simp] theorem modPort_role (k : Nat) (f : Port → Port) (m : Mod) : (modPort k f m).role = m.role := by unfold modPort; rfl
@[simp] theorem modPort_upstream (k : Nat) (f : Port → Port) (m : Mod) : (modPort k f m).upstream = m.upstream := by unfold modPort; rfl
@[simp] theorem modPort_children (k : Nat) (f : Port → Port) (m : Mod) : (modPort k f m).children = m.children := by unfold modPort; rfl
@[simp] theorem modPort_masterDelay (k : Nat) (f : Port → Port) (m : Mod) : (modPort k f m).masterDelay = m.masterDelay := by unfold modPort; rfl
@[simp] theorem modPort_hopDelay (k : Nat) (f : Port → Port) (m : Mod) : (modPort k f m).hopDelay = m.hopDelay := by unfold modPort; rfl
@[simp] theorem modPort_tetherHops (k : Nat) (f : Port → Port) (m : Mod) : (modPort k f m).tetherHops = m.tetherHops := by unfold modPort; rfl
@[simp] theorem modPort_bridleHops (k : Nat) (f : Port → Port) (m : Mod) : (modPort k f m).bridleHops = m.bridleHops := by unfold modPort; rfl
@[simp] theorem modPort_bridleTimeout (k : Nat) (f : Port → Port) (m : Mod) : (modPort k f m).bridleTimeout = m.bridleTimeout := by unfold modPort; rfl
@[simp] theorem modPort_bridlePart (k : Nat) (f : Port → Port) (m : Mod) : (modPort k f m).bridlePart = m.bridlePart := by unfold modPort; rfl
@[simp] theorem modPort_bridleEnable (k : Nat) (f : Port → Port) (m : Mod) : (modPort k f m).bridleEnable = m.bridleEnable := by unfold modPort; rfl
@[simp] theorem modPort_timeoutEvent (k : Nat) (f : Port → Port) (m : Mod) : (modPort k f m).timeoutEvent = m.timeoutEvent := by unfold modPort; rfl
@[simp] theorem modPort_line (k : Nat) (f : Port → Port) (m : Mod) : (modPort k f m).line = m.line := by unfold modPort; rfl
@[simp] theorem modPort_released (k : Nat) (f : Port → Port) (m : Mod) : (modPort k f m).released = m.released := by unfold modPort; rfl
@[simp] theorem modPort_releasedAt (k : Nat) (f : Port → Port) (m : Mod) : (modPort k f m).releasedAt = m.releasedAt := by unfold modPort; rfl
@[simp] theorem modPort_bridleDone (k : Nat) (f : Port → Port) (m : Mod) : (modPort k f m).bridleDone = m.bridleDone := by unfold modPort; rfl
@[simp] theorem modPort_releaseDue (k : Nat) (f : Port → Port) (m : Mod) : (modPort k f m).releaseDue = m.releaseDue := by unfold modPort; rfl
@[simp] theorem modPort_lineOn (k : Nat) (f : Port → Port) (m : Mod) : (modPort k f m).lineOn = m.lineOn := by unfold modPort; rfl
@[simp] theorem modPort_lineLow (k : Nat) (f : Port → Port) (m : Mod) : (modPort k f m).lineLow = m.lineLow := by unfold modPort; rfl
@[simp] theorem modPort_routeDrops (k : Nat) (f : Port → Port) (m : Mod) : (modPort k f m).routeDrops = m.routeDrops := by unfold modPort; rfl
@[simp] theorem modPort_forwarded (k : Nat) (f : Port → Port) (m : Mod) : (modPort k f m).forwarded = m.forwarded := by unfold modPort; rfl
@[simp] theorem modPort_fwd (k : Nat) (f : Port → Port) (m : Mod) : (modPort k f m).fwd = m.fwd := by unfold modPort; rfl
@[simp] theorem modPort_others (k : Nat) (f : Port → Port) (m : Mod) : (modPort k f m).others = m.others := by unfold modPort; rfl
@[simp] theorem modPort_training (k : Nat) (f : Port → Port) (m : Mod) : (modPort k f m).training = m.training := by unfold modPort; rfl
@[simp] theorem modPort_syncing (k : Nat) (f : Port → Port) (m : Mod) : (modPort k f m).syncing = m.syncing := by unfold modPort; rfl
@[simp] theorem modPort_alignLoaded (k : Nat) (f : Port → Port) (m : Mod) : (modPort k f m).alignLoaded = m.alignLoaded := by unfold modPort; rfl
@[simp] theorem modPort_reports (k : Nat) (f : Port → Port) (m : Mod) : (modPort k f m).reports = m.reports := by unfold modPort; rfl
@[simp] theorem modPort_box (k : Nat) (f : Port → Port) (m : Mod) : (modPort k f m).box = m.box := by unfold modPort; rfl
@[simp] theorem modPort_atgen (k : Nat) (f : Port → Port) (m : Mod) : (modPort k f m).atgen = m.atgen := by unfold modPort; rfl
@[simp] theorem modPort_power (k : Nat) (f : Port → Port) (m : Mod) : (modPort k f m).power = m.power := by unfold modPort; rfl
@[simp] theorem modPort_halves (k : Nat) (f : Port → Port) (m : Mod) : (modPort k f m).halves = m.halves := by unfold modPort; rfl
@[simp] theorem modPort_resetTile (k : Nat) (f : Port → Port) (m : Mod) : (modPort k f m).resetTile = m.resetTile := by unfold modPort; rfl
@[simp] theorem modPort_resetLast (k : Nat) (f : Port → Port) (m : Mod) : (modPort k f m).resetLast = m.resetLast := by unfold modPort; rfl
@[simp] theorem modPort_bringup (k : Nat) (f : Port → Port) (m : Mod) : (modPort k f m).bringup = m.bringup := by unfold modPort; rfl
@[simp] theorem modPort_stacksOk (k : Nat) (f : Port → Port) (m : Mod) : (modPort k f m).stacksOk = m.stacksOk := by unfold modPort; rfl
@[simp] theorem modPort_warmResets (k : Nat) (f : Port → Port) (m : Mod) : (modPort k f m).warmResets = m.warmResets := by unfold modPort; rfl
@[simp] theorem modPort_tileResets (k : Nat) (f : Port → Port) (m : Mod) : (modPort k f m).tileResets = m.tileResets := by unfold modPort; rfl
@[simp] theorem modPort_sets (k : Nat) (f : Port → Port) (m : Mod) : (modPort k f m).sets = m.sets := by unfold modPort; rfl
@[simp] theorem modPort_warmPending (k : Nat) (f : Port → Port) (m : Mod) : (modPort k f m).warmPending = m.warmPending := by unfold modPort; rfl
@[simp] theorem modPort_stuckHigh (k : Nat) (f : Port → Port) (m : Mod) : (modPort k f m).stuckHigh = m.stuckHigh := by unfold modPort; rfl
@[simp] theorem modPort_barrierPin (k : Nat) (f : Port → Port) (m : Mod) : (modPort k f m).barrierPin = m.barrierPin := by unfold modPort; rfl
@[simp] theorem modPort_tickInHigh (k : Nat) (f : Port → Port) (m : Mod) : (modPort k f m).tickInHigh = m.tickInHigh := by unfold modPort; rfl
@[simp] theorem modPort_tickOutHigh (k : Nat) (f : Port → Port) (m : Mod) : (modPort k f m).tickOutHigh = m.tickOutHigh := by unfold modPort; rfl
@[simp] theorem modPort_haltRaw (k : Nat) (f : Port → Port) (m : Mod) : (modPort k f m).haltRaw = m.haltRaw := by unfold modPort; rfl
@[simp] theorem modPort_resetNPin (k : Nat) (f : Port → Port) (m : Mod) : (modPort k f m).resetNPin = m.resetNPin := by unfold modPort; rfl
@[simp] theorem modPort_heldAtRails (k : Nat) (f : Port → Port) (m : Mod) : (modPort k f m).heldAtRails = m.heldAtRails := by unfold modPort; rfl
@[simp] theorem modPort_powered (k : Nat) (f : Port → Port) (m : Mod) : (modPort k f m).powered = m.powered := by unfold modPort; rfl
@[simp] theorem modPort_lasts (k : Nat) (f : Port → Port) (m : Mod) : (modPort k f m).lasts = m.lasts := by unfold modPort; rfl
@[simp] theorem modPort_msums (k : Nat) (f : Port → Port) (m : Mod) : (modPort k f m).msums = m.msums := by unfold modPort; rfl
@[simp] theorem modPort_events (k : Nat) (f : Port → Port) (m : Mod) : (modPort k f m).events = m.events := by unfold modPort; rfl
@[simp] theorem modPort_passRunning (k : Nat) (f : Port → Port) (m : Mod) : (modPort k f m).passRunning = m.passRunning := by unfold modPort; rfl
@[simp] theorem modPort_passStart (k : Nat) (f : Port → Port) (m : Mod) : (modPort k f m).passStart = m.passStart := by unfold modPort; rfl
@[simp] theorem modPort_passVals (k : Nat) (f : Port → Port) (m : Mod) : (modPort k f m).passVals = m.passVals := by unfold modPort; rfl
@[simp] theorem modPort_passEvents (k : Nat) (f : Port → Port) (m : Mod) : (modPort k f m).passEvents = m.passEvents := by unfold modPort; rfl
@[simp] theorem modPort_free (k : Nat) (f : Port → Port) (m : Mod) : (modPort k f m).free = m.free := by unfold modPort; rfl
@[simp] theorem modPort_out (k : Nat) (f : Port → Port) (m : Mod) : (modPort k f m).out = m.out := by unfold modPort; rfl
theorem portOf_modPort (k j : Nat) (f : Port → Port) (m : Mod) : portOf (modPort k f m) j = if k = j then f (portOf m k) else portOf m j :=
  mget_mmod ({} : Port) k j f m.ports
@[simp] theorem portOf_modPort_self (k : Nat) (f : Port → Port) (m : Mod) : portOf (modPort k f m) k = f (portOf m k) := by simp [portOf_modPort]
@[simp] theorem tileOf_modPort (k j : Nat) (f : Port → Port) (m : Mod) : tileOf (modPort k f m) j = tileOf m j := by unfold modPort; rfl
@[simp] theorem partOf_modPort (k j : Nat) (f : Port → Port) (m : Mod) : partOf (modPort k f m) j = partOf m j := by unfold modPort; rfl
@[simp] theorem engineOf_modPort (k j : Nat) (f : Port → Port) (m : Mod) : engineOf (modPort k f m) j = engineOf m j := by unfold modPort; rfl
@[simp] theorem epOf_modPort (k j : Nat) (f : Port → Port) (m : Mod) : epOf (modPort k f m) j = epOf m j := by unfold modPort; rfl
@[simp] theorem barOf_modPort (k j : Nat) (f : Port → Port) (m : Mod) : barOf (modPort k f m) j = barOf m j := by unfold modPort; rfl
@[simp] theorem pageOf_modPort (k j : Nat) (f : Port → Port) (m : Mod) : pageOf (modPort k f m) j = pageOf m j := by unfold modPort; rfl
@[simp] theorem stackOf_modPort (k j : Nat) (f : Port → Port) (m : Mod) : stackOf (modPort k f m) j = stackOf m j := by unfold modPort; rfl
@[simp] theorem shardOf_modPort (k j : Nat) (f : Port → Port) (m : Mod) : shardOf (modPort k f m) j = shardOf m j := by unfold modPort; rfl
@[simp] theorem halfSt_modPort (k j : Nat) (f : Port → Port) (m : Mod) : halfSt (modPort k f m) j = halfSt m j := by unfold modPort; rfl

/-! ## modEngine -/

@[simp] theorem modEngine_native (k : Nat) (f : Engine → Engine) (m : Mod) : (modEngine k f m).native = m.native := by unfold modEngine; rfl
@[simp] theorem modEngine_now (k : Nat) (f : Engine → Engine) (m : Mod) : (modEngine k f m).now = m.now := by unfold modEngine; rfl
@[simp] theorem modEngine_lost (k : Nat) (f : Engine → Engine) (m : Mod) : (modEngine k f m).lost = m.lost := by unfold modEngine; rfl
@[simp] theorem modEngine_tick (k : Nat) (f : Engine → Engine) (m : Mod) : (modEngine k f m).tick = m.tick := by unfold modEngine; rfl
@[simp] theorem modEngine_phase (k : Nat) (f : Engine → Engine) (m : Mod) : (modEngine k f m).phase = m.phase := by unfold modEngine; rfl
@[simp] theorem modEngine_holdTicks (k : Nat) (f : Engine → Engine) (m : Mod) : (modEngine k f m).holdTicks = m.holdTicks := by unfold modEngine; rfl
@[simp] theorem modEngine_holdFrom (k : Nat) (f : Engine → Engine) (m : Mod) : (modEngine k f m).holdFrom = m.holdFrom := by unfold modEngine; rfl
@[simp] theorem modEngine_source (k : Nat) (f : Engine → Engine) (m : Mod) : (modEngine k f m).source = m.source := by unfold modEngine; rfl
@[simp] theorem modEngine_lock (k : Nat) (f : Engine → Engine) (m : Mod) : (modEngine k f m).lock = m.lock := by unfold modEngine; rfl
@[simp] theorem modEngine_phaseEvent (k : Nat) (f : Engine → Engine) (m : Mod) : (modEngine k f m).phaseEvent = m.phaseEvent := by unfold modEngine; rfl
@[simp] theorem modEngine_expiredEvent (k : Nat) (f : Engine → Engine) (m : Mod) : (modEngine k f m).expiredEvent = m.expiredEvent := by unfold modEngine; rfl
@[simp] theorem modEngine_lostEvent (k : Nat) (f : Engine → Engine) (m : Mod) : (modEngine k f m).lostEvent = m.lostEvent := by unfold modEngine; rfl
@[simp] theorem modEngine_chatter (k : Nat) (f : Engine → Engine) (m : Mod) : (modEngine k f m).chatter = m.chatter := by unfold modEngine; rfl
@[simp] theorem modEngine_phaseErr (k : Nat) (f : Engine → Engine) (m : Mod) : (modEngine k f m).phaseErr = m.phaseErr := by unfold modEngine; rfl
@[simp] theorem modEngine_loss (k : Nat) (f : Engine → Engine) (m : Mod) : (modEngine k f m).loss = m.loss := by unfold modEngine; rfl
@[simp] theorem modEngine_lastEdge (k : Nat) (f : Engine → Engine) (m : Mod) : (modEngine k f m).lastEdge = m.lastEdge := by unfold modEngine; rfl
@[simp] theorem modEngine_expiryFaulted (k : Nat) (f : Engine → Engine) (m : Mod) : (modEngine k f m).expiryFaulted = m.expiryFaulted := by unfold modEngine; rfl
@[simp] theorem modEngine_tiles (k : Nat) (f : Engine → Engine) (m : Mod) : (modEngine k f m).tiles = m.tiles := by unfold modEngine; rfl
@[simp] theorem modEngine_parts (k : Nat) (f : Engine → Engine) (m : Mod) : (modEngine k f m).parts = m.parts := by unfold modEngine; rfl
@[simp] theorem modEngine_ports (k : Nat) (f : Engine → Engine) (m : Mod) : (modEngine k f m).ports = m.ports := by unfold modEngine; rfl
@[simp] theorem modEngine_engines (k : Nat) (f : Engine → Engine) (m : Mod) : (modEngine k f m).engines = mmod {} m.engines k f := by unfold modEngine; rfl
@[simp] theorem modEngine_contribs (k : Nat) (f : Engine → Engine) (m : Mod) : (modEngine k f m).contribs = m.contribs := by unfold modEngine; rfl
@[simp] theorem modEngine_chainBlks (k : Nat) (f : Engine → Engine) (m : Mod) : (modEngine k f m).chainBlks = m.chainBlks := by unfold modEngine; rfl
@[simp] theorem modEngine_pool (k : Nat) (f : Engine → Engine) (m : Mod) : (modEngine k f m).pool = m.pool := by unfold modEngine; rfl
@[simp] theorem modEngine_cgroups (k : Nat) (f : Engine → Engine) (m : Mod) : (modEngine k f m).cgroups = m.cgroups := by unfold modEngine; rfl
@[simp] theorem modEngine_bars (k : Nat) (f : Engine → Engine) (m : Mod) : (modEngine k f m).bars = m.bars := by unfold modEngine; rfl
@[simp] theorem modEngine_flight (k : Nat) (f : Engine → Engine) (m : Mod) : (modEngine k f m).flight = m.flight := by unfold modEngine; rfl
@[simp] theorem modEngine_stopped (k : Nat) (f : Engine → Engine) (m : Mod) : (modEngine k f m).stopped = m.stopped := by unfold modEngine; rfl
@[simp] theorem modEngine_dir (k : Nat) (f : Engine → Engine) (m : Mod) : (modEngine k f m).dir = m.dir := by unfold modEngine; rfl
@[simp] theorem modEngine_dram (k : Nat) (f : Engine → Engine) (m : Mod) : (modEngine k f m).dram = m.dram := by unfold modEngine; rfl
@[simp] theorem modEngine_ecc (k : Nat) (f : Engine → Engine) (m : Mod) : (modEngine k f m).ecc = m.ecc := by unfold modEngine; rfl
@[simp] theorem modEngine_fills (k : Nat) (f : Engine → Engine) (m : Mod) : (modEngine k f m).fills = m.fills := by unfold modEngine; rfl
@[simp] theorem modEngine_moves (k : Nat) (f : Engine → Engine) (m : Mod) : (modEngine k f m).moves = m.moves := by unfold modEngine; rfl
@[simp] theorem modEngine_mvGroups (k : Nat) (f : Engine → Engine) (m : Mod) : (modEngine k f m).mvGroups = m.mvGroups := by unfold modEngine; rfl
@[simp] theorem modEngine_groupNo (k : Nat) (f : Engine → Engine) (m : Mod) : (modEngine k f m).groupNo = m.groupNo := by unfold modEngine; rfl
@[simp] theorem modEngine_relFrames (k : Nat) (f : Engine → Engine) (m : Mod) : (modEngine k f m).relFrames = m.relFrames := by unfold modEngine; rfl
@[simp] theorem modEngine_pagesDone (k : Nat) (f : Engine → Engine) (m : Mod) : (modEngine k f m).pagesDone = m.pagesDone := by unfold modEngine; rfl
@[simp] theorem modEngine_stk (k : Nat) (f : Engine → Engine) (m : Mod) : (modEngine k f m).stk = m.stk := by unfold modEngine; rfl
@[simp] theorem modEngine_shards (k : Nat) (f : Engine → Engine) (m : Mod) : (modEngine k f m).shards = m.shards := by unfold modEngine; rfl
@[simp] theorem modEngine_dwins (k : Nat) (f : Engine → Engine) (m : Mod) : (modEngine k f m).dwins = m.dwins := by unfold modEngine; rfl
@[simp] theorem modEngine_winDenied (k : Nat) (f : Engine → Engine) (m : Mod) : (modEngine k f m).winDenied = m.winDenied := by unfold modEngine; rfl
@[simp] theorem modEngine_moduleNum (k : Nat) (f : Engine → Engine) (m : Mod) : (modEngine k f m).moduleNum = m.moduleNum := by unfold modEngine; rfl
@[simp] theorem modEngine_position (k : Nat) (f : Engine → Engine) (m : Mod) : (modEngine k f m).position = m.position := by unfold modEngine; rfl
@[simp] theorem modEngine_masterStrap (k : Nat) (f : Engine → Engine) (m : Mod) : (modEngine k f m).masterStrap = m.masterStrap := by unfold modEngine; rfl
@[simp] theorem modEngine_role (k : Nat) (f : Engine → Engine) (m : Mod) : (modEngine k f m).role = m.role := by unfold modEngine; rfl
@[simp] theorem modEngine_upstream (k : Nat) (f : Engine → Engine) (m : Mod) : (modEngine k f m).upstream = m.upstream := by unfold modEngine; rfl
@[simp] theorem modEngine_children (k : Nat) (f : Engine → Engine) (m : Mod) : (modEngine k f m).children = m.children := by unfold modEngine; rfl
@[simp] theorem modEngine_masterDelay (k : Nat) (f : Engine → Engine) (m : Mod) : (modEngine k f m).masterDelay = m.masterDelay := by unfold modEngine; rfl
@[simp] theorem modEngine_hopDelay (k : Nat) (f : Engine → Engine) (m : Mod) : (modEngine k f m).hopDelay = m.hopDelay := by unfold modEngine; rfl
@[simp] theorem modEngine_tetherHops (k : Nat) (f : Engine → Engine) (m : Mod) : (modEngine k f m).tetherHops = m.tetherHops := by unfold modEngine; rfl
@[simp] theorem modEngine_bridleHops (k : Nat) (f : Engine → Engine) (m : Mod) : (modEngine k f m).bridleHops = m.bridleHops := by unfold modEngine; rfl
@[simp] theorem modEngine_bridleTimeout (k : Nat) (f : Engine → Engine) (m : Mod) : (modEngine k f m).bridleTimeout = m.bridleTimeout := by unfold modEngine; rfl
@[simp] theorem modEngine_bridlePart (k : Nat) (f : Engine → Engine) (m : Mod) : (modEngine k f m).bridlePart = m.bridlePart := by unfold modEngine; rfl
@[simp] theorem modEngine_bridleEnable (k : Nat) (f : Engine → Engine) (m : Mod) : (modEngine k f m).bridleEnable = m.bridleEnable := by unfold modEngine; rfl
@[simp] theorem modEngine_timeoutEvent (k : Nat) (f : Engine → Engine) (m : Mod) : (modEngine k f m).timeoutEvent = m.timeoutEvent := by unfold modEngine; rfl
@[simp] theorem modEngine_line (k : Nat) (f : Engine → Engine) (m : Mod) : (modEngine k f m).line = m.line := by unfold modEngine; rfl
@[simp] theorem modEngine_released (k : Nat) (f : Engine → Engine) (m : Mod) : (modEngine k f m).released = m.released := by unfold modEngine; rfl
@[simp] theorem modEngine_releasedAt (k : Nat) (f : Engine → Engine) (m : Mod) : (modEngine k f m).releasedAt = m.releasedAt := by unfold modEngine; rfl
@[simp] theorem modEngine_bridleDone (k : Nat) (f : Engine → Engine) (m : Mod) : (modEngine k f m).bridleDone = m.bridleDone := by unfold modEngine; rfl
@[simp] theorem modEngine_releaseDue (k : Nat) (f : Engine → Engine) (m : Mod) : (modEngine k f m).releaseDue = m.releaseDue := by unfold modEngine; rfl
@[simp] theorem modEngine_lineOn (k : Nat) (f : Engine → Engine) (m : Mod) : (modEngine k f m).lineOn = m.lineOn := by unfold modEngine; rfl
@[simp] theorem modEngine_lineLow (k : Nat) (f : Engine → Engine) (m : Mod) : (modEngine k f m).lineLow = m.lineLow := by unfold modEngine; rfl
@[simp] theorem modEngine_routeDrops (k : Nat) (f : Engine → Engine) (m : Mod) : (modEngine k f m).routeDrops = m.routeDrops := by unfold modEngine; rfl
@[simp] theorem modEngine_forwarded (k : Nat) (f : Engine → Engine) (m : Mod) : (modEngine k f m).forwarded = m.forwarded := by unfold modEngine; rfl
@[simp] theorem modEngine_fwd (k : Nat) (f : Engine → Engine) (m : Mod) : (modEngine k f m).fwd = m.fwd := by unfold modEngine; rfl
@[simp] theorem modEngine_others (k : Nat) (f : Engine → Engine) (m : Mod) : (modEngine k f m).others = m.others := by unfold modEngine; rfl
@[simp] theorem modEngine_training (k : Nat) (f : Engine → Engine) (m : Mod) : (modEngine k f m).training = m.training := by unfold modEngine; rfl
@[simp] theorem modEngine_syncing (k : Nat) (f : Engine → Engine) (m : Mod) : (modEngine k f m).syncing = m.syncing := by unfold modEngine; rfl
@[simp] theorem modEngine_alignLoaded (k : Nat) (f : Engine → Engine) (m : Mod) : (modEngine k f m).alignLoaded = m.alignLoaded := by unfold modEngine; rfl
@[simp] theorem modEngine_reports (k : Nat) (f : Engine → Engine) (m : Mod) : (modEngine k f m).reports = m.reports := by unfold modEngine; rfl
@[simp] theorem modEngine_box (k : Nat) (f : Engine → Engine) (m : Mod) : (modEngine k f m).box = m.box := by unfold modEngine; rfl
@[simp] theorem modEngine_atgen (k : Nat) (f : Engine → Engine) (m : Mod) : (modEngine k f m).atgen = m.atgen := by unfold modEngine; rfl
@[simp] theorem modEngine_power (k : Nat) (f : Engine → Engine) (m : Mod) : (modEngine k f m).power = m.power := by unfold modEngine; rfl
@[simp] theorem modEngine_halves (k : Nat) (f : Engine → Engine) (m : Mod) : (modEngine k f m).halves = m.halves := by unfold modEngine; rfl
@[simp] theorem modEngine_resetTile (k : Nat) (f : Engine → Engine) (m : Mod) : (modEngine k f m).resetTile = m.resetTile := by unfold modEngine; rfl
@[simp] theorem modEngine_resetLast (k : Nat) (f : Engine → Engine) (m : Mod) : (modEngine k f m).resetLast = m.resetLast := by unfold modEngine; rfl
@[simp] theorem modEngine_bringup (k : Nat) (f : Engine → Engine) (m : Mod) : (modEngine k f m).bringup = m.bringup := by unfold modEngine; rfl
@[simp] theorem modEngine_stacksOk (k : Nat) (f : Engine → Engine) (m : Mod) : (modEngine k f m).stacksOk = m.stacksOk := by unfold modEngine; rfl
@[simp] theorem modEngine_warmResets (k : Nat) (f : Engine → Engine) (m : Mod) : (modEngine k f m).warmResets = m.warmResets := by unfold modEngine; rfl
@[simp] theorem modEngine_tileResets (k : Nat) (f : Engine → Engine) (m : Mod) : (modEngine k f m).tileResets = m.tileResets := by unfold modEngine; rfl
@[simp] theorem modEngine_sets (k : Nat) (f : Engine → Engine) (m : Mod) : (modEngine k f m).sets = m.sets := by unfold modEngine; rfl
@[simp] theorem modEngine_warmPending (k : Nat) (f : Engine → Engine) (m : Mod) : (modEngine k f m).warmPending = m.warmPending := by unfold modEngine; rfl
@[simp] theorem modEngine_stuckHigh (k : Nat) (f : Engine → Engine) (m : Mod) : (modEngine k f m).stuckHigh = m.stuckHigh := by unfold modEngine; rfl
@[simp] theorem modEngine_barrierPin (k : Nat) (f : Engine → Engine) (m : Mod) : (modEngine k f m).barrierPin = m.barrierPin := by unfold modEngine; rfl
@[simp] theorem modEngine_tickInHigh (k : Nat) (f : Engine → Engine) (m : Mod) : (modEngine k f m).tickInHigh = m.tickInHigh := by unfold modEngine; rfl
@[simp] theorem modEngine_tickOutHigh (k : Nat) (f : Engine → Engine) (m : Mod) : (modEngine k f m).tickOutHigh = m.tickOutHigh := by unfold modEngine; rfl
@[simp] theorem modEngine_haltRaw (k : Nat) (f : Engine → Engine) (m : Mod) : (modEngine k f m).haltRaw = m.haltRaw := by unfold modEngine; rfl
@[simp] theorem modEngine_resetNPin (k : Nat) (f : Engine → Engine) (m : Mod) : (modEngine k f m).resetNPin = m.resetNPin := by unfold modEngine; rfl
@[simp] theorem modEngine_heldAtRails (k : Nat) (f : Engine → Engine) (m : Mod) : (modEngine k f m).heldAtRails = m.heldAtRails := by unfold modEngine; rfl
@[simp] theorem modEngine_powered (k : Nat) (f : Engine → Engine) (m : Mod) : (modEngine k f m).powered = m.powered := by unfold modEngine; rfl
@[simp] theorem modEngine_lasts (k : Nat) (f : Engine → Engine) (m : Mod) : (modEngine k f m).lasts = m.lasts := by unfold modEngine; rfl
@[simp] theorem modEngine_msums (k : Nat) (f : Engine → Engine) (m : Mod) : (modEngine k f m).msums = m.msums := by unfold modEngine; rfl
@[simp] theorem modEngine_events (k : Nat) (f : Engine → Engine) (m : Mod) : (modEngine k f m).events = m.events := by unfold modEngine; rfl
@[simp] theorem modEngine_passRunning (k : Nat) (f : Engine → Engine) (m : Mod) : (modEngine k f m).passRunning = m.passRunning := by unfold modEngine; rfl
@[simp] theorem modEngine_passStart (k : Nat) (f : Engine → Engine) (m : Mod) : (modEngine k f m).passStart = m.passStart := by unfold modEngine; rfl
@[simp] theorem modEngine_passVals (k : Nat) (f : Engine → Engine) (m : Mod) : (modEngine k f m).passVals = m.passVals := by unfold modEngine; rfl
@[simp] theorem modEngine_passEvents (k : Nat) (f : Engine → Engine) (m : Mod) : (modEngine k f m).passEvents = m.passEvents := by unfold modEngine; rfl
@[simp] theorem modEngine_free (k : Nat) (f : Engine → Engine) (m : Mod) : (modEngine k f m).free = m.free := by unfold modEngine; rfl
@[simp] theorem modEngine_out (k : Nat) (f : Engine → Engine) (m : Mod) : (modEngine k f m).out = m.out := by unfold modEngine; rfl
theorem engineOf_modEngine (k j : Nat) (f : Engine → Engine) (m : Mod) : engineOf (modEngine k f m) j = if k = j then f (engineOf m k) else engineOf m j :=
  mget_mmod ({} : Engine) k j f m.engines
@[simp] theorem engineOf_modEngine_self (k : Nat) (f : Engine → Engine) (m : Mod) : engineOf (modEngine k f m) k = f (engineOf m k) := by simp [engineOf_modEngine]
@[simp] theorem tileOf_modEngine (k j : Nat) (f : Engine → Engine) (m : Mod) : tileOf (modEngine k f m) j = tileOf m j := by unfold modEngine; rfl
@[simp] theorem partOf_modEngine (k j : Nat) (f : Engine → Engine) (m : Mod) : partOf (modEngine k f m) j = partOf m j := by unfold modEngine; rfl
@[simp] theorem portOf_modEngine (k j : Nat) (f : Engine → Engine) (m : Mod) : portOf (modEngine k f m) j = portOf m j := by unfold modEngine; rfl
@[simp] theorem epOf_modEngine (k j : Nat) (f : Engine → Engine) (m : Mod) : epOf (modEngine k f m) j = epOf m j := by unfold modEngine; rfl
@[simp] theorem barOf_modEngine (k j : Nat) (f : Engine → Engine) (m : Mod) : barOf (modEngine k f m) j = barOf m j := by unfold modEngine; rfl
@[simp] theorem pageOf_modEngine (k j : Nat) (f : Engine → Engine) (m : Mod) : pageOf (modEngine k f m) j = pageOf m j := by unfold modEngine; rfl
@[simp] theorem stackOf_modEngine (k j : Nat) (f : Engine → Engine) (m : Mod) : stackOf (modEngine k f m) j = stackOf m j := by unfold modEngine; rfl
@[simp] theorem shardOf_modEngine (k j : Nat) (f : Engine → Engine) (m : Mod) : shardOf (modEngine k f m) j = shardOf m j := by unfold modEngine; rfl
@[simp] theorem halfSt_modEngine (k j : Nat) (f : Engine → Engine) (m : Mod) : halfSt (modEngine k f m) j = halfSt m j := by unfold modEngine; rfl

/-! ## modEp -/

@[simp] theorem modEp_native (k : Nat) (f : Ep → Ep) (m : Mod) : (modEp k f m).native = m.native := by unfold modEp; rfl
@[simp] theorem modEp_now (k : Nat) (f : Ep → Ep) (m : Mod) : (modEp k f m).now = m.now := by unfold modEp; rfl
@[simp] theorem modEp_lost (k : Nat) (f : Ep → Ep) (m : Mod) : (modEp k f m).lost = m.lost := by unfold modEp; rfl
@[simp] theorem modEp_tick (k : Nat) (f : Ep → Ep) (m : Mod) : (modEp k f m).tick = m.tick := by unfold modEp; rfl
@[simp] theorem modEp_phase (k : Nat) (f : Ep → Ep) (m : Mod) : (modEp k f m).phase = m.phase := by unfold modEp; rfl
@[simp] theorem modEp_holdTicks (k : Nat) (f : Ep → Ep) (m : Mod) : (modEp k f m).holdTicks = m.holdTicks := by unfold modEp; rfl
@[simp] theorem modEp_holdFrom (k : Nat) (f : Ep → Ep) (m : Mod) : (modEp k f m).holdFrom = m.holdFrom := by unfold modEp; rfl
@[simp] theorem modEp_source (k : Nat) (f : Ep → Ep) (m : Mod) : (modEp k f m).source = m.source := by unfold modEp; rfl
@[simp] theorem modEp_lock (k : Nat) (f : Ep → Ep) (m : Mod) : (modEp k f m).lock = m.lock := by unfold modEp; rfl
@[simp] theorem modEp_phaseEvent (k : Nat) (f : Ep → Ep) (m : Mod) : (modEp k f m).phaseEvent = m.phaseEvent := by unfold modEp; rfl
@[simp] theorem modEp_expiredEvent (k : Nat) (f : Ep → Ep) (m : Mod) : (modEp k f m).expiredEvent = m.expiredEvent := by unfold modEp; rfl
@[simp] theorem modEp_lostEvent (k : Nat) (f : Ep → Ep) (m : Mod) : (modEp k f m).lostEvent = m.lostEvent := by unfold modEp; rfl
@[simp] theorem modEp_chatter (k : Nat) (f : Ep → Ep) (m : Mod) : (modEp k f m).chatter = m.chatter := by unfold modEp; rfl
@[simp] theorem modEp_phaseErr (k : Nat) (f : Ep → Ep) (m : Mod) : (modEp k f m).phaseErr = m.phaseErr := by unfold modEp; rfl
@[simp] theorem modEp_loss (k : Nat) (f : Ep → Ep) (m : Mod) : (modEp k f m).loss = m.loss := by unfold modEp; rfl
@[simp] theorem modEp_lastEdge (k : Nat) (f : Ep → Ep) (m : Mod) : (modEp k f m).lastEdge = m.lastEdge := by unfold modEp; rfl
@[simp] theorem modEp_expiryFaulted (k : Nat) (f : Ep → Ep) (m : Mod) : (modEp k f m).expiryFaulted = m.expiryFaulted := by unfold modEp; rfl
@[simp] theorem modEp_tiles (k : Nat) (f : Ep → Ep) (m : Mod) : (modEp k f m).tiles = m.tiles := by unfold modEp; rfl
@[simp] theorem modEp_parts (k : Nat) (f : Ep → Ep) (m : Mod) : (modEp k f m).parts = m.parts := by unfold modEp; rfl
@[simp] theorem modEp_ports (k : Nat) (f : Ep → Ep) (m : Mod) : (modEp k f m).ports = m.ports := by unfold modEp; rfl
@[simp] theorem modEp_engines (k : Nat) (f : Ep → Ep) (m : Mod) : (modEp k f m).engines = m.engines := by unfold modEp; rfl
@[simp] theorem modEp_contribs (k : Nat) (f : Ep → Ep) (m : Mod) : (modEp k f m).contribs = m.contribs := by unfold modEp; rfl
@[simp] theorem modEp_chainBlks (k : Nat) (f : Ep → Ep) (m : Mod) : (modEp k f m).chainBlks = m.chainBlks := by unfold modEp; rfl
@[simp] theorem modEp_pool (k : Nat) (f : Ep → Ep) (m : Mod) : (modEp k f m).pool = mmod {} m.pool k f := by unfold modEp; rfl
@[simp] theorem modEp_cgroups (k : Nat) (f : Ep → Ep) (m : Mod) : (modEp k f m).cgroups = m.cgroups := by unfold modEp; rfl
@[simp] theorem modEp_bars (k : Nat) (f : Ep → Ep) (m : Mod) : (modEp k f m).bars = m.bars := by unfold modEp; rfl
@[simp] theorem modEp_flight (k : Nat) (f : Ep → Ep) (m : Mod) : (modEp k f m).flight = m.flight := by unfold modEp; rfl
@[simp] theorem modEp_stopped (k : Nat) (f : Ep → Ep) (m : Mod) : (modEp k f m).stopped = m.stopped := by unfold modEp; rfl
@[simp] theorem modEp_dir (k : Nat) (f : Ep → Ep) (m : Mod) : (modEp k f m).dir = m.dir := by unfold modEp; rfl
@[simp] theorem modEp_dram (k : Nat) (f : Ep → Ep) (m : Mod) : (modEp k f m).dram = m.dram := by unfold modEp; rfl
@[simp] theorem modEp_ecc (k : Nat) (f : Ep → Ep) (m : Mod) : (modEp k f m).ecc = m.ecc := by unfold modEp; rfl
@[simp] theorem modEp_fills (k : Nat) (f : Ep → Ep) (m : Mod) : (modEp k f m).fills = m.fills := by unfold modEp; rfl
@[simp] theorem modEp_moves (k : Nat) (f : Ep → Ep) (m : Mod) : (modEp k f m).moves = m.moves := by unfold modEp; rfl
@[simp] theorem modEp_mvGroups (k : Nat) (f : Ep → Ep) (m : Mod) : (modEp k f m).mvGroups = m.mvGroups := by unfold modEp; rfl
@[simp] theorem modEp_groupNo (k : Nat) (f : Ep → Ep) (m : Mod) : (modEp k f m).groupNo = m.groupNo := by unfold modEp; rfl
@[simp] theorem modEp_relFrames (k : Nat) (f : Ep → Ep) (m : Mod) : (modEp k f m).relFrames = m.relFrames := by unfold modEp; rfl
@[simp] theorem modEp_pagesDone (k : Nat) (f : Ep → Ep) (m : Mod) : (modEp k f m).pagesDone = m.pagesDone := by unfold modEp; rfl
@[simp] theorem modEp_stk (k : Nat) (f : Ep → Ep) (m : Mod) : (modEp k f m).stk = m.stk := by unfold modEp; rfl
@[simp] theorem modEp_shards (k : Nat) (f : Ep → Ep) (m : Mod) : (modEp k f m).shards = m.shards := by unfold modEp; rfl
@[simp] theorem modEp_dwins (k : Nat) (f : Ep → Ep) (m : Mod) : (modEp k f m).dwins = m.dwins := by unfold modEp; rfl
@[simp] theorem modEp_winDenied (k : Nat) (f : Ep → Ep) (m : Mod) : (modEp k f m).winDenied = m.winDenied := by unfold modEp; rfl
@[simp] theorem modEp_moduleNum (k : Nat) (f : Ep → Ep) (m : Mod) : (modEp k f m).moduleNum = m.moduleNum := by unfold modEp; rfl
@[simp] theorem modEp_position (k : Nat) (f : Ep → Ep) (m : Mod) : (modEp k f m).position = m.position := by unfold modEp; rfl
@[simp] theorem modEp_masterStrap (k : Nat) (f : Ep → Ep) (m : Mod) : (modEp k f m).masterStrap = m.masterStrap := by unfold modEp; rfl
@[simp] theorem modEp_role (k : Nat) (f : Ep → Ep) (m : Mod) : (modEp k f m).role = m.role := by unfold modEp; rfl
@[simp] theorem modEp_upstream (k : Nat) (f : Ep → Ep) (m : Mod) : (modEp k f m).upstream = m.upstream := by unfold modEp; rfl
@[simp] theorem modEp_children (k : Nat) (f : Ep → Ep) (m : Mod) : (modEp k f m).children = m.children := by unfold modEp; rfl
@[simp] theorem modEp_masterDelay (k : Nat) (f : Ep → Ep) (m : Mod) : (modEp k f m).masterDelay = m.masterDelay := by unfold modEp; rfl
@[simp] theorem modEp_hopDelay (k : Nat) (f : Ep → Ep) (m : Mod) : (modEp k f m).hopDelay = m.hopDelay := by unfold modEp; rfl
@[simp] theorem modEp_tetherHops (k : Nat) (f : Ep → Ep) (m : Mod) : (modEp k f m).tetherHops = m.tetherHops := by unfold modEp; rfl
@[simp] theorem modEp_bridleHops (k : Nat) (f : Ep → Ep) (m : Mod) : (modEp k f m).bridleHops = m.bridleHops := by unfold modEp; rfl
@[simp] theorem modEp_bridleTimeout (k : Nat) (f : Ep → Ep) (m : Mod) : (modEp k f m).bridleTimeout = m.bridleTimeout := by unfold modEp; rfl
@[simp] theorem modEp_bridlePart (k : Nat) (f : Ep → Ep) (m : Mod) : (modEp k f m).bridlePart = m.bridlePart := by unfold modEp; rfl
@[simp] theorem modEp_bridleEnable (k : Nat) (f : Ep → Ep) (m : Mod) : (modEp k f m).bridleEnable = m.bridleEnable := by unfold modEp; rfl
@[simp] theorem modEp_timeoutEvent (k : Nat) (f : Ep → Ep) (m : Mod) : (modEp k f m).timeoutEvent = m.timeoutEvent := by unfold modEp; rfl
@[simp] theorem modEp_line (k : Nat) (f : Ep → Ep) (m : Mod) : (modEp k f m).line = m.line := by unfold modEp; rfl
@[simp] theorem modEp_released (k : Nat) (f : Ep → Ep) (m : Mod) : (modEp k f m).released = m.released := by unfold modEp; rfl
@[simp] theorem modEp_releasedAt (k : Nat) (f : Ep → Ep) (m : Mod) : (modEp k f m).releasedAt = m.releasedAt := by unfold modEp; rfl
@[simp] theorem modEp_bridleDone (k : Nat) (f : Ep → Ep) (m : Mod) : (modEp k f m).bridleDone = m.bridleDone := by unfold modEp; rfl
@[simp] theorem modEp_releaseDue (k : Nat) (f : Ep → Ep) (m : Mod) : (modEp k f m).releaseDue = m.releaseDue := by unfold modEp; rfl
@[simp] theorem modEp_lineOn (k : Nat) (f : Ep → Ep) (m : Mod) : (modEp k f m).lineOn = m.lineOn := by unfold modEp; rfl
@[simp] theorem modEp_lineLow (k : Nat) (f : Ep → Ep) (m : Mod) : (modEp k f m).lineLow = m.lineLow := by unfold modEp; rfl
@[simp] theorem modEp_routeDrops (k : Nat) (f : Ep → Ep) (m : Mod) : (modEp k f m).routeDrops = m.routeDrops := by unfold modEp; rfl
@[simp] theorem modEp_forwarded (k : Nat) (f : Ep → Ep) (m : Mod) : (modEp k f m).forwarded = m.forwarded := by unfold modEp; rfl
@[simp] theorem modEp_fwd (k : Nat) (f : Ep → Ep) (m : Mod) : (modEp k f m).fwd = m.fwd := by unfold modEp; rfl
@[simp] theorem modEp_others (k : Nat) (f : Ep → Ep) (m : Mod) : (modEp k f m).others = m.others := by unfold modEp; rfl
@[simp] theorem modEp_training (k : Nat) (f : Ep → Ep) (m : Mod) : (modEp k f m).training = m.training := by unfold modEp; rfl
@[simp] theorem modEp_syncing (k : Nat) (f : Ep → Ep) (m : Mod) : (modEp k f m).syncing = m.syncing := by unfold modEp; rfl
@[simp] theorem modEp_alignLoaded (k : Nat) (f : Ep → Ep) (m : Mod) : (modEp k f m).alignLoaded = m.alignLoaded := by unfold modEp; rfl
@[simp] theorem modEp_reports (k : Nat) (f : Ep → Ep) (m : Mod) : (modEp k f m).reports = m.reports := by unfold modEp; rfl
@[simp] theorem modEp_box (k : Nat) (f : Ep → Ep) (m : Mod) : (modEp k f m).box = m.box := by unfold modEp; rfl
@[simp] theorem modEp_atgen (k : Nat) (f : Ep → Ep) (m : Mod) : (modEp k f m).atgen = m.atgen := by unfold modEp; rfl
@[simp] theorem modEp_power (k : Nat) (f : Ep → Ep) (m : Mod) : (modEp k f m).power = m.power := by unfold modEp; rfl
@[simp] theorem modEp_halves (k : Nat) (f : Ep → Ep) (m : Mod) : (modEp k f m).halves = m.halves := by unfold modEp; rfl
@[simp] theorem modEp_resetTile (k : Nat) (f : Ep → Ep) (m : Mod) : (modEp k f m).resetTile = m.resetTile := by unfold modEp; rfl
@[simp] theorem modEp_resetLast (k : Nat) (f : Ep → Ep) (m : Mod) : (modEp k f m).resetLast = m.resetLast := by unfold modEp; rfl
@[simp] theorem modEp_bringup (k : Nat) (f : Ep → Ep) (m : Mod) : (modEp k f m).bringup = m.bringup := by unfold modEp; rfl
@[simp] theorem modEp_stacksOk (k : Nat) (f : Ep → Ep) (m : Mod) : (modEp k f m).stacksOk = m.stacksOk := by unfold modEp; rfl
@[simp] theorem modEp_warmResets (k : Nat) (f : Ep → Ep) (m : Mod) : (modEp k f m).warmResets = m.warmResets := by unfold modEp; rfl
@[simp] theorem modEp_tileResets (k : Nat) (f : Ep → Ep) (m : Mod) : (modEp k f m).tileResets = m.tileResets := by unfold modEp; rfl
@[simp] theorem modEp_sets (k : Nat) (f : Ep → Ep) (m : Mod) : (modEp k f m).sets = m.sets := by unfold modEp; rfl
@[simp] theorem modEp_warmPending (k : Nat) (f : Ep → Ep) (m : Mod) : (modEp k f m).warmPending = m.warmPending := by unfold modEp; rfl
@[simp] theorem modEp_stuckHigh (k : Nat) (f : Ep → Ep) (m : Mod) : (modEp k f m).stuckHigh = m.stuckHigh := by unfold modEp; rfl
@[simp] theorem modEp_barrierPin (k : Nat) (f : Ep → Ep) (m : Mod) : (modEp k f m).barrierPin = m.barrierPin := by unfold modEp; rfl
@[simp] theorem modEp_tickInHigh (k : Nat) (f : Ep → Ep) (m : Mod) : (modEp k f m).tickInHigh = m.tickInHigh := by unfold modEp; rfl
@[simp] theorem modEp_tickOutHigh (k : Nat) (f : Ep → Ep) (m : Mod) : (modEp k f m).tickOutHigh = m.tickOutHigh := by unfold modEp; rfl
@[simp] theorem modEp_haltRaw (k : Nat) (f : Ep → Ep) (m : Mod) : (modEp k f m).haltRaw = m.haltRaw := by unfold modEp; rfl
@[simp] theorem modEp_resetNPin (k : Nat) (f : Ep → Ep) (m : Mod) : (modEp k f m).resetNPin = m.resetNPin := by unfold modEp; rfl
@[simp] theorem modEp_heldAtRails (k : Nat) (f : Ep → Ep) (m : Mod) : (modEp k f m).heldAtRails = m.heldAtRails := by unfold modEp; rfl
@[simp] theorem modEp_powered (k : Nat) (f : Ep → Ep) (m : Mod) : (modEp k f m).powered = m.powered := by unfold modEp; rfl
@[simp] theorem modEp_lasts (k : Nat) (f : Ep → Ep) (m : Mod) : (modEp k f m).lasts = m.lasts := by unfold modEp; rfl
@[simp] theorem modEp_msums (k : Nat) (f : Ep → Ep) (m : Mod) : (modEp k f m).msums = m.msums := by unfold modEp; rfl
@[simp] theorem modEp_events (k : Nat) (f : Ep → Ep) (m : Mod) : (modEp k f m).events = m.events := by unfold modEp; rfl
@[simp] theorem modEp_passRunning (k : Nat) (f : Ep → Ep) (m : Mod) : (modEp k f m).passRunning = m.passRunning := by unfold modEp; rfl
@[simp] theorem modEp_passStart (k : Nat) (f : Ep → Ep) (m : Mod) : (modEp k f m).passStart = m.passStart := by unfold modEp; rfl
@[simp] theorem modEp_passVals (k : Nat) (f : Ep → Ep) (m : Mod) : (modEp k f m).passVals = m.passVals := by unfold modEp; rfl
@[simp] theorem modEp_passEvents (k : Nat) (f : Ep → Ep) (m : Mod) : (modEp k f m).passEvents = m.passEvents := by unfold modEp; rfl
@[simp] theorem modEp_free (k : Nat) (f : Ep → Ep) (m : Mod) : (modEp k f m).free = m.free := by unfold modEp; rfl
@[simp] theorem modEp_out (k : Nat) (f : Ep → Ep) (m : Mod) : (modEp k f m).out = m.out := by unfold modEp; rfl
theorem epOf_modEp (k j : Nat) (f : Ep → Ep) (m : Mod) : epOf (modEp k f m) j = if k = j then f (epOf m k) else epOf m j :=
  mget_mmod ({} : Ep) k j f m.pool
@[simp] theorem epOf_modEp_self (k : Nat) (f : Ep → Ep) (m : Mod) : epOf (modEp k f m) k = f (epOf m k) := by simp [epOf_modEp]
@[simp] theorem tileOf_modEp (k j : Nat) (f : Ep → Ep) (m : Mod) : tileOf (modEp k f m) j = tileOf m j := by unfold modEp; rfl
@[simp] theorem partOf_modEp (k j : Nat) (f : Ep → Ep) (m : Mod) : partOf (modEp k f m) j = partOf m j := by unfold modEp; rfl
@[simp] theorem portOf_modEp (k j : Nat) (f : Ep → Ep) (m : Mod) : portOf (modEp k f m) j = portOf m j := by unfold modEp; rfl
@[simp] theorem engineOf_modEp (k j : Nat) (f : Ep → Ep) (m : Mod) : engineOf (modEp k f m) j = engineOf m j := by unfold modEp; rfl
@[simp] theorem barOf_modEp (k j : Nat) (f : Ep → Ep) (m : Mod) : barOf (modEp k f m) j = barOf m j := by unfold modEp; rfl
@[simp] theorem pageOf_modEp (k j : Nat) (f : Ep → Ep) (m : Mod) : pageOf (modEp k f m) j = pageOf m j := by unfold modEp; rfl
@[simp] theorem stackOf_modEp (k j : Nat) (f : Ep → Ep) (m : Mod) : stackOf (modEp k f m) j = stackOf m j := by unfold modEp; rfl
@[simp] theorem shardOf_modEp (k j : Nat) (f : Ep → Ep) (m : Mod) : shardOf (modEp k f m) j = shardOf m j := by unfold modEp; rfl
@[simp] theorem halfSt_modEp (k j : Nat) (f : Ep → Ep) (m : Mod) : halfSt (modEp k f m) j = halfSt m j := by unfold modEp; rfl

/-! ## modBar -/

@[simp] theorem modBar_native (k : Nat) (f : Bar → Bar) (m : Mod) : (modBar k f m).native = m.native := by unfold modBar; rfl
@[simp] theorem modBar_now (k : Nat) (f : Bar → Bar) (m : Mod) : (modBar k f m).now = m.now := by unfold modBar; rfl
@[simp] theorem modBar_lost (k : Nat) (f : Bar → Bar) (m : Mod) : (modBar k f m).lost = m.lost := by unfold modBar; rfl
@[simp] theorem modBar_tick (k : Nat) (f : Bar → Bar) (m : Mod) : (modBar k f m).tick = m.tick := by unfold modBar; rfl
@[simp] theorem modBar_phase (k : Nat) (f : Bar → Bar) (m : Mod) : (modBar k f m).phase = m.phase := by unfold modBar; rfl
@[simp] theorem modBar_holdTicks (k : Nat) (f : Bar → Bar) (m : Mod) : (modBar k f m).holdTicks = m.holdTicks := by unfold modBar; rfl
@[simp] theorem modBar_holdFrom (k : Nat) (f : Bar → Bar) (m : Mod) : (modBar k f m).holdFrom = m.holdFrom := by unfold modBar; rfl
@[simp] theorem modBar_source (k : Nat) (f : Bar → Bar) (m : Mod) : (modBar k f m).source = m.source := by unfold modBar; rfl
@[simp] theorem modBar_lock (k : Nat) (f : Bar → Bar) (m : Mod) : (modBar k f m).lock = m.lock := by unfold modBar; rfl
@[simp] theorem modBar_phaseEvent (k : Nat) (f : Bar → Bar) (m : Mod) : (modBar k f m).phaseEvent = m.phaseEvent := by unfold modBar; rfl
@[simp] theorem modBar_expiredEvent (k : Nat) (f : Bar → Bar) (m : Mod) : (modBar k f m).expiredEvent = m.expiredEvent := by unfold modBar; rfl
@[simp] theorem modBar_lostEvent (k : Nat) (f : Bar → Bar) (m : Mod) : (modBar k f m).lostEvent = m.lostEvent := by unfold modBar; rfl
@[simp] theorem modBar_chatter (k : Nat) (f : Bar → Bar) (m : Mod) : (modBar k f m).chatter = m.chatter := by unfold modBar; rfl
@[simp] theorem modBar_phaseErr (k : Nat) (f : Bar → Bar) (m : Mod) : (modBar k f m).phaseErr = m.phaseErr := by unfold modBar; rfl
@[simp] theorem modBar_loss (k : Nat) (f : Bar → Bar) (m : Mod) : (modBar k f m).loss = m.loss := by unfold modBar; rfl
@[simp] theorem modBar_lastEdge (k : Nat) (f : Bar → Bar) (m : Mod) : (modBar k f m).lastEdge = m.lastEdge := by unfold modBar; rfl
@[simp] theorem modBar_expiryFaulted (k : Nat) (f : Bar → Bar) (m : Mod) : (modBar k f m).expiryFaulted = m.expiryFaulted := by unfold modBar; rfl
@[simp] theorem modBar_tiles (k : Nat) (f : Bar → Bar) (m : Mod) : (modBar k f m).tiles = m.tiles := by unfold modBar; rfl
@[simp] theorem modBar_parts (k : Nat) (f : Bar → Bar) (m : Mod) : (modBar k f m).parts = m.parts := by unfold modBar; rfl
@[simp] theorem modBar_ports (k : Nat) (f : Bar → Bar) (m : Mod) : (modBar k f m).ports = m.ports := by unfold modBar; rfl
@[simp] theorem modBar_engines (k : Nat) (f : Bar → Bar) (m : Mod) : (modBar k f m).engines = m.engines := by unfold modBar; rfl
@[simp] theorem modBar_contribs (k : Nat) (f : Bar → Bar) (m : Mod) : (modBar k f m).contribs = m.contribs := by unfold modBar; rfl
@[simp] theorem modBar_chainBlks (k : Nat) (f : Bar → Bar) (m : Mod) : (modBar k f m).chainBlks = m.chainBlks := by unfold modBar; rfl
@[simp] theorem modBar_pool (k : Nat) (f : Bar → Bar) (m : Mod) : (modBar k f m).pool = m.pool := by unfold modBar; rfl
@[simp] theorem modBar_cgroups (k : Nat) (f : Bar → Bar) (m : Mod) : (modBar k f m).cgroups = m.cgroups := by unfold modBar; rfl
@[simp] theorem modBar_bars (k : Nat) (f : Bar → Bar) (m : Mod) : (modBar k f m).bars = mmod {} m.bars k f := by unfold modBar; rfl
@[simp] theorem modBar_flight (k : Nat) (f : Bar → Bar) (m : Mod) : (modBar k f m).flight = m.flight := by unfold modBar; rfl
@[simp] theorem modBar_stopped (k : Nat) (f : Bar → Bar) (m : Mod) : (modBar k f m).stopped = m.stopped := by unfold modBar; rfl
@[simp] theorem modBar_dir (k : Nat) (f : Bar → Bar) (m : Mod) : (modBar k f m).dir = m.dir := by unfold modBar; rfl
@[simp] theorem modBar_dram (k : Nat) (f : Bar → Bar) (m : Mod) : (modBar k f m).dram = m.dram := by unfold modBar; rfl
@[simp] theorem modBar_ecc (k : Nat) (f : Bar → Bar) (m : Mod) : (modBar k f m).ecc = m.ecc := by unfold modBar; rfl
@[simp] theorem modBar_fills (k : Nat) (f : Bar → Bar) (m : Mod) : (modBar k f m).fills = m.fills := by unfold modBar; rfl
@[simp] theorem modBar_moves (k : Nat) (f : Bar → Bar) (m : Mod) : (modBar k f m).moves = m.moves := by unfold modBar; rfl
@[simp] theorem modBar_mvGroups (k : Nat) (f : Bar → Bar) (m : Mod) : (modBar k f m).mvGroups = m.mvGroups := by unfold modBar; rfl
@[simp] theorem modBar_groupNo (k : Nat) (f : Bar → Bar) (m : Mod) : (modBar k f m).groupNo = m.groupNo := by unfold modBar; rfl
@[simp] theorem modBar_relFrames (k : Nat) (f : Bar → Bar) (m : Mod) : (modBar k f m).relFrames = m.relFrames := by unfold modBar; rfl
@[simp] theorem modBar_pagesDone (k : Nat) (f : Bar → Bar) (m : Mod) : (modBar k f m).pagesDone = m.pagesDone := by unfold modBar; rfl
@[simp] theorem modBar_stk (k : Nat) (f : Bar → Bar) (m : Mod) : (modBar k f m).stk = m.stk := by unfold modBar; rfl
@[simp] theorem modBar_shards (k : Nat) (f : Bar → Bar) (m : Mod) : (modBar k f m).shards = m.shards := by unfold modBar; rfl
@[simp] theorem modBar_dwins (k : Nat) (f : Bar → Bar) (m : Mod) : (modBar k f m).dwins = m.dwins := by unfold modBar; rfl
@[simp] theorem modBar_winDenied (k : Nat) (f : Bar → Bar) (m : Mod) : (modBar k f m).winDenied = m.winDenied := by unfold modBar; rfl
@[simp] theorem modBar_moduleNum (k : Nat) (f : Bar → Bar) (m : Mod) : (modBar k f m).moduleNum = m.moduleNum := by unfold modBar; rfl
@[simp] theorem modBar_position (k : Nat) (f : Bar → Bar) (m : Mod) : (modBar k f m).position = m.position := by unfold modBar; rfl
@[simp] theorem modBar_masterStrap (k : Nat) (f : Bar → Bar) (m : Mod) : (modBar k f m).masterStrap = m.masterStrap := by unfold modBar; rfl
@[simp] theorem modBar_role (k : Nat) (f : Bar → Bar) (m : Mod) : (modBar k f m).role = m.role := by unfold modBar; rfl
@[simp] theorem modBar_upstream (k : Nat) (f : Bar → Bar) (m : Mod) : (modBar k f m).upstream = m.upstream := by unfold modBar; rfl
@[simp] theorem modBar_children (k : Nat) (f : Bar → Bar) (m : Mod) : (modBar k f m).children = m.children := by unfold modBar; rfl
@[simp] theorem modBar_masterDelay (k : Nat) (f : Bar → Bar) (m : Mod) : (modBar k f m).masterDelay = m.masterDelay := by unfold modBar; rfl
@[simp] theorem modBar_hopDelay (k : Nat) (f : Bar → Bar) (m : Mod) : (modBar k f m).hopDelay = m.hopDelay := by unfold modBar; rfl
@[simp] theorem modBar_tetherHops (k : Nat) (f : Bar → Bar) (m : Mod) : (modBar k f m).tetherHops = m.tetherHops := by unfold modBar; rfl
@[simp] theorem modBar_bridleHops (k : Nat) (f : Bar → Bar) (m : Mod) : (modBar k f m).bridleHops = m.bridleHops := by unfold modBar; rfl
@[simp] theorem modBar_bridleTimeout (k : Nat) (f : Bar → Bar) (m : Mod) : (modBar k f m).bridleTimeout = m.bridleTimeout := by unfold modBar; rfl
@[simp] theorem modBar_bridlePart (k : Nat) (f : Bar → Bar) (m : Mod) : (modBar k f m).bridlePart = m.bridlePart := by unfold modBar; rfl
@[simp] theorem modBar_bridleEnable (k : Nat) (f : Bar → Bar) (m : Mod) : (modBar k f m).bridleEnable = m.bridleEnable := by unfold modBar; rfl
@[simp] theorem modBar_timeoutEvent (k : Nat) (f : Bar → Bar) (m : Mod) : (modBar k f m).timeoutEvent = m.timeoutEvent := by unfold modBar; rfl
@[simp] theorem modBar_line (k : Nat) (f : Bar → Bar) (m : Mod) : (modBar k f m).line = m.line := by unfold modBar; rfl
@[simp] theorem modBar_released (k : Nat) (f : Bar → Bar) (m : Mod) : (modBar k f m).released = m.released := by unfold modBar; rfl
@[simp] theorem modBar_releasedAt (k : Nat) (f : Bar → Bar) (m : Mod) : (modBar k f m).releasedAt = m.releasedAt := by unfold modBar; rfl
@[simp] theorem modBar_bridleDone (k : Nat) (f : Bar → Bar) (m : Mod) : (modBar k f m).bridleDone = m.bridleDone := by unfold modBar; rfl
@[simp] theorem modBar_releaseDue (k : Nat) (f : Bar → Bar) (m : Mod) : (modBar k f m).releaseDue = m.releaseDue := by unfold modBar; rfl
@[simp] theorem modBar_lineOn (k : Nat) (f : Bar → Bar) (m : Mod) : (modBar k f m).lineOn = m.lineOn := by unfold modBar; rfl
@[simp] theorem modBar_lineLow (k : Nat) (f : Bar → Bar) (m : Mod) : (modBar k f m).lineLow = m.lineLow := by unfold modBar; rfl
@[simp] theorem modBar_routeDrops (k : Nat) (f : Bar → Bar) (m : Mod) : (modBar k f m).routeDrops = m.routeDrops := by unfold modBar; rfl
@[simp] theorem modBar_forwarded (k : Nat) (f : Bar → Bar) (m : Mod) : (modBar k f m).forwarded = m.forwarded := by unfold modBar; rfl
@[simp] theorem modBar_fwd (k : Nat) (f : Bar → Bar) (m : Mod) : (modBar k f m).fwd = m.fwd := by unfold modBar; rfl
@[simp] theorem modBar_others (k : Nat) (f : Bar → Bar) (m : Mod) : (modBar k f m).others = m.others := by unfold modBar; rfl
@[simp] theorem modBar_training (k : Nat) (f : Bar → Bar) (m : Mod) : (modBar k f m).training = m.training := by unfold modBar; rfl
@[simp] theorem modBar_syncing (k : Nat) (f : Bar → Bar) (m : Mod) : (modBar k f m).syncing = m.syncing := by unfold modBar; rfl
@[simp] theorem modBar_alignLoaded (k : Nat) (f : Bar → Bar) (m : Mod) : (modBar k f m).alignLoaded = m.alignLoaded := by unfold modBar; rfl
@[simp] theorem modBar_reports (k : Nat) (f : Bar → Bar) (m : Mod) : (modBar k f m).reports = m.reports := by unfold modBar; rfl
@[simp] theorem modBar_box (k : Nat) (f : Bar → Bar) (m : Mod) : (modBar k f m).box = m.box := by unfold modBar; rfl
@[simp] theorem modBar_atgen (k : Nat) (f : Bar → Bar) (m : Mod) : (modBar k f m).atgen = m.atgen := by unfold modBar; rfl
@[simp] theorem modBar_power (k : Nat) (f : Bar → Bar) (m : Mod) : (modBar k f m).power = m.power := by unfold modBar; rfl
@[simp] theorem modBar_halves (k : Nat) (f : Bar → Bar) (m : Mod) : (modBar k f m).halves = m.halves := by unfold modBar; rfl
@[simp] theorem modBar_resetTile (k : Nat) (f : Bar → Bar) (m : Mod) : (modBar k f m).resetTile = m.resetTile := by unfold modBar; rfl
@[simp] theorem modBar_resetLast (k : Nat) (f : Bar → Bar) (m : Mod) : (modBar k f m).resetLast = m.resetLast := by unfold modBar; rfl
@[simp] theorem modBar_bringup (k : Nat) (f : Bar → Bar) (m : Mod) : (modBar k f m).bringup = m.bringup := by unfold modBar; rfl
@[simp] theorem modBar_stacksOk (k : Nat) (f : Bar → Bar) (m : Mod) : (modBar k f m).stacksOk = m.stacksOk := by unfold modBar; rfl
@[simp] theorem modBar_warmResets (k : Nat) (f : Bar → Bar) (m : Mod) : (modBar k f m).warmResets = m.warmResets := by unfold modBar; rfl
@[simp] theorem modBar_tileResets (k : Nat) (f : Bar → Bar) (m : Mod) : (modBar k f m).tileResets = m.tileResets := by unfold modBar; rfl
@[simp] theorem modBar_sets (k : Nat) (f : Bar → Bar) (m : Mod) : (modBar k f m).sets = m.sets := by unfold modBar; rfl
@[simp] theorem modBar_warmPending (k : Nat) (f : Bar → Bar) (m : Mod) : (modBar k f m).warmPending = m.warmPending := by unfold modBar; rfl
@[simp] theorem modBar_stuckHigh (k : Nat) (f : Bar → Bar) (m : Mod) : (modBar k f m).stuckHigh = m.stuckHigh := by unfold modBar; rfl
@[simp] theorem modBar_barrierPin (k : Nat) (f : Bar → Bar) (m : Mod) : (modBar k f m).barrierPin = m.barrierPin := by unfold modBar; rfl
@[simp] theorem modBar_tickInHigh (k : Nat) (f : Bar → Bar) (m : Mod) : (modBar k f m).tickInHigh = m.tickInHigh := by unfold modBar; rfl
@[simp] theorem modBar_tickOutHigh (k : Nat) (f : Bar → Bar) (m : Mod) : (modBar k f m).tickOutHigh = m.tickOutHigh := by unfold modBar; rfl
@[simp] theorem modBar_haltRaw (k : Nat) (f : Bar → Bar) (m : Mod) : (modBar k f m).haltRaw = m.haltRaw := by unfold modBar; rfl
@[simp] theorem modBar_resetNPin (k : Nat) (f : Bar → Bar) (m : Mod) : (modBar k f m).resetNPin = m.resetNPin := by unfold modBar; rfl
@[simp] theorem modBar_heldAtRails (k : Nat) (f : Bar → Bar) (m : Mod) : (modBar k f m).heldAtRails = m.heldAtRails := by unfold modBar; rfl
@[simp] theorem modBar_powered (k : Nat) (f : Bar → Bar) (m : Mod) : (modBar k f m).powered = m.powered := by unfold modBar; rfl
@[simp] theorem modBar_lasts (k : Nat) (f : Bar → Bar) (m : Mod) : (modBar k f m).lasts = m.lasts := by unfold modBar; rfl
@[simp] theorem modBar_msums (k : Nat) (f : Bar → Bar) (m : Mod) : (modBar k f m).msums = m.msums := by unfold modBar; rfl
@[simp] theorem modBar_events (k : Nat) (f : Bar → Bar) (m : Mod) : (modBar k f m).events = m.events := by unfold modBar; rfl
@[simp] theorem modBar_passRunning (k : Nat) (f : Bar → Bar) (m : Mod) : (modBar k f m).passRunning = m.passRunning := by unfold modBar; rfl
@[simp] theorem modBar_passStart (k : Nat) (f : Bar → Bar) (m : Mod) : (modBar k f m).passStart = m.passStart := by unfold modBar; rfl
@[simp] theorem modBar_passVals (k : Nat) (f : Bar → Bar) (m : Mod) : (modBar k f m).passVals = m.passVals := by unfold modBar; rfl
@[simp] theorem modBar_passEvents (k : Nat) (f : Bar → Bar) (m : Mod) : (modBar k f m).passEvents = m.passEvents := by unfold modBar; rfl
@[simp] theorem modBar_free (k : Nat) (f : Bar → Bar) (m : Mod) : (modBar k f m).free = m.free := by unfold modBar; rfl
@[simp] theorem modBar_out (k : Nat) (f : Bar → Bar) (m : Mod) : (modBar k f m).out = m.out := by unfold modBar; rfl
theorem barOf_modBar (k j : Nat) (f : Bar → Bar) (m : Mod) : barOf (modBar k f m) j = if k = j then f (barOf m k) else barOf m j :=
  mget_mmod ({} : Bar) k j f m.bars
@[simp] theorem barOf_modBar_self (k : Nat) (f : Bar → Bar) (m : Mod) : barOf (modBar k f m) k = f (barOf m k) := by simp [barOf_modBar]
@[simp] theorem tileOf_modBar (k j : Nat) (f : Bar → Bar) (m : Mod) : tileOf (modBar k f m) j = tileOf m j := by unfold modBar; rfl
@[simp] theorem partOf_modBar (k j : Nat) (f : Bar → Bar) (m : Mod) : partOf (modBar k f m) j = partOf m j := by unfold modBar; rfl
@[simp] theorem portOf_modBar (k j : Nat) (f : Bar → Bar) (m : Mod) : portOf (modBar k f m) j = portOf m j := by unfold modBar; rfl
@[simp] theorem engineOf_modBar (k j : Nat) (f : Bar → Bar) (m : Mod) : engineOf (modBar k f m) j = engineOf m j := by unfold modBar; rfl
@[simp] theorem epOf_modBar (k j : Nat) (f : Bar → Bar) (m : Mod) : epOf (modBar k f m) j = epOf m j := by unfold modBar; rfl
@[simp] theorem pageOf_modBar (k j : Nat) (f : Bar → Bar) (m : Mod) : pageOf (modBar k f m) j = pageOf m j := by unfold modBar; rfl
@[simp] theorem stackOf_modBar (k j : Nat) (f : Bar → Bar) (m : Mod) : stackOf (modBar k f m) j = stackOf m j := by unfold modBar; rfl
@[simp] theorem shardOf_modBar (k j : Nat) (f : Bar → Bar) (m : Mod) : shardOf (modBar k f m) j = shardOf m j := by unfold modBar; rfl
@[simp] theorem halfSt_modBar (k j : Nat) (f : Bar → Bar) (m : Mod) : halfSt (modBar k f m) j = halfSt m j := by unfold modBar; rfl

/-! ## modPage -/

@[simp] theorem modPage_native (k : Nat) (f : Page → Page) (m : Mod) : (modPage k f m).native = m.native := by unfold modPage; rfl
@[simp] theorem modPage_now (k : Nat) (f : Page → Page) (m : Mod) : (modPage k f m).now = m.now := by unfold modPage; rfl
@[simp] theorem modPage_lost (k : Nat) (f : Page → Page) (m : Mod) : (modPage k f m).lost = m.lost := by unfold modPage; rfl
@[simp] theorem modPage_tick (k : Nat) (f : Page → Page) (m : Mod) : (modPage k f m).tick = m.tick := by unfold modPage; rfl
@[simp] theorem modPage_phase (k : Nat) (f : Page → Page) (m : Mod) : (modPage k f m).phase = m.phase := by unfold modPage; rfl
@[simp] theorem modPage_holdTicks (k : Nat) (f : Page → Page) (m : Mod) : (modPage k f m).holdTicks = m.holdTicks := by unfold modPage; rfl
@[simp] theorem modPage_holdFrom (k : Nat) (f : Page → Page) (m : Mod) : (modPage k f m).holdFrom = m.holdFrom := by unfold modPage; rfl
@[simp] theorem modPage_source (k : Nat) (f : Page → Page) (m : Mod) : (modPage k f m).source = m.source := by unfold modPage; rfl
@[simp] theorem modPage_lock (k : Nat) (f : Page → Page) (m : Mod) : (modPage k f m).lock = m.lock := by unfold modPage; rfl
@[simp] theorem modPage_phaseEvent (k : Nat) (f : Page → Page) (m : Mod) : (modPage k f m).phaseEvent = m.phaseEvent := by unfold modPage; rfl
@[simp] theorem modPage_expiredEvent (k : Nat) (f : Page → Page) (m : Mod) : (modPage k f m).expiredEvent = m.expiredEvent := by unfold modPage; rfl
@[simp] theorem modPage_lostEvent (k : Nat) (f : Page → Page) (m : Mod) : (modPage k f m).lostEvent = m.lostEvent := by unfold modPage; rfl
@[simp] theorem modPage_chatter (k : Nat) (f : Page → Page) (m : Mod) : (modPage k f m).chatter = m.chatter := by unfold modPage; rfl
@[simp] theorem modPage_phaseErr (k : Nat) (f : Page → Page) (m : Mod) : (modPage k f m).phaseErr = m.phaseErr := by unfold modPage; rfl
@[simp] theorem modPage_loss (k : Nat) (f : Page → Page) (m : Mod) : (modPage k f m).loss = m.loss := by unfold modPage; rfl
@[simp] theorem modPage_lastEdge (k : Nat) (f : Page → Page) (m : Mod) : (modPage k f m).lastEdge = m.lastEdge := by unfold modPage; rfl
@[simp] theorem modPage_expiryFaulted (k : Nat) (f : Page → Page) (m : Mod) : (modPage k f m).expiryFaulted = m.expiryFaulted := by unfold modPage; rfl
@[simp] theorem modPage_tiles (k : Nat) (f : Page → Page) (m : Mod) : (modPage k f m).tiles = m.tiles := by unfold modPage; rfl
@[simp] theorem modPage_parts (k : Nat) (f : Page → Page) (m : Mod) : (modPage k f m).parts = m.parts := by unfold modPage; rfl
@[simp] theorem modPage_ports (k : Nat) (f : Page → Page) (m : Mod) : (modPage k f m).ports = m.ports := by unfold modPage; rfl
@[simp] theorem modPage_engines (k : Nat) (f : Page → Page) (m : Mod) : (modPage k f m).engines = m.engines := by unfold modPage; rfl
@[simp] theorem modPage_contribs (k : Nat) (f : Page → Page) (m : Mod) : (modPage k f m).contribs = m.contribs := by unfold modPage; rfl
@[simp] theorem modPage_chainBlks (k : Nat) (f : Page → Page) (m : Mod) : (modPage k f m).chainBlks = m.chainBlks := by unfold modPage; rfl
@[simp] theorem modPage_pool (k : Nat) (f : Page → Page) (m : Mod) : (modPage k f m).pool = m.pool := by unfold modPage; rfl
@[simp] theorem modPage_cgroups (k : Nat) (f : Page → Page) (m : Mod) : (modPage k f m).cgroups = m.cgroups := by unfold modPage; rfl
@[simp] theorem modPage_bars (k : Nat) (f : Page → Page) (m : Mod) : (modPage k f m).bars = m.bars := by unfold modPage; rfl
@[simp] theorem modPage_flight (k : Nat) (f : Page → Page) (m : Mod) : (modPage k f m).flight = m.flight := by unfold modPage; rfl
@[simp] theorem modPage_stopped (k : Nat) (f : Page → Page) (m : Mod) : (modPage k f m).stopped = m.stopped := by unfold modPage; rfl
@[simp] theorem modPage_dir (k : Nat) (f : Page → Page) (m : Mod) : (modPage k f m).dir = mmod {} m.dir k f := by unfold modPage; rfl
@[simp] theorem modPage_dram (k : Nat) (f : Page → Page) (m : Mod) : (modPage k f m).dram = m.dram := by unfold modPage; rfl
@[simp] theorem modPage_ecc (k : Nat) (f : Page → Page) (m : Mod) : (modPage k f m).ecc = m.ecc := by unfold modPage; rfl
@[simp] theorem modPage_fills (k : Nat) (f : Page → Page) (m : Mod) : (modPage k f m).fills = m.fills := by unfold modPage; rfl
@[simp] theorem modPage_moves (k : Nat) (f : Page → Page) (m : Mod) : (modPage k f m).moves = m.moves := by unfold modPage; rfl
@[simp] theorem modPage_mvGroups (k : Nat) (f : Page → Page) (m : Mod) : (modPage k f m).mvGroups = m.mvGroups := by unfold modPage; rfl
@[simp] theorem modPage_groupNo (k : Nat) (f : Page → Page) (m : Mod) : (modPage k f m).groupNo = m.groupNo := by unfold modPage; rfl
@[simp] theorem modPage_relFrames (k : Nat) (f : Page → Page) (m : Mod) : (modPage k f m).relFrames = m.relFrames := by unfold modPage; rfl
@[simp] theorem modPage_pagesDone (k : Nat) (f : Page → Page) (m : Mod) : (modPage k f m).pagesDone = m.pagesDone := by unfold modPage; rfl
@[simp] theorem modPage_stk (k : Nat) (f : Page → Page) (m : Mod) : (modPage k f m).stk = m.stk := by unfold modPage; rfl
@[simp] theorem modPage_shards (k : Nat) (f : Page → Page) (m : Mod) : (modPage k f m).shards = m.shards := by unfold modPage; rfl
@[simp] theorem modPage_dwins (k : Nat) (f : Page → Page) (m : Mod) : (modPage k f m).dwins = m.dwins := by unfold modPage; rfl
@[simp] theorem modPage_winDenied (k : Nat) (f : Page → Page) (m : Mod) : (modPage k f m).winDenied = m.winDenied := by unfold modPage; rfl
@[simp] theorem modPage_moduleNum (k : Nat) (f : Page → Page) (m : Mod) : (modPage k f m).moduleNum = m.moduleNum := by unfold modPage; rfl
@[simp] theorem modPage_position (k : Nat) (f : Page → Page) (m : Mod) : (modPage k f m).position = m.position := by unfold modPage; rfl
@[simp] theorem modPage_masterStrap (k : Nat) (f : Page → Page) (m : Mod) : (modPage k f m).masterStrap = m.masterStrap := by unfold modPage; rfl
@[simp] theorem modPage_role (k : Nat) (f : Page → Page) (m : Mod) : (modPage k f m).role = m.role := by unfold modPage; rfl
@[simp] theorem modPage_upstream (k : Nat) (f : Page → Page) (m : Mod) : (modPage k f m).upstream = m.upstream := by unfold modPage; rfl
@[simp] theorem modPage_children (k : Nat) (f : Page → Page) (m : Mod) : (modPage k f m).children = m.children := by unfold modPage; rfl
@[simp] theorem modPage_masterDelay (k : Nat) (f : Page → Page) (m : Mod) : (modPage k f m).masterDelay = m.masterDelay := by unfold modPage; rfl
@[simp] theorem modPage_hopDelay (k : Nat) (f : Page → Page) (m : Mod) : (modPage k f m).hopDelay = m.hopDelay := by unfold modPage; rfl
@[simp] theorem modPage_tetherHops (k : Nat) (f : Page → Page) (m : Mod) : (modPage k f m).tetherHops = m.tetherHops := by unfold modPage; rfl
@[simp] theorem modPage_bridleHops (k : Nat) (f : Page → Page) (m : Mod) : (modPage k f m).bridleHops = m.bridleHops := by unfold modPage; rfl
@[simp] theorem modPage_bridleTimeout (k : Nat) (f : Page → Page) (m : Mod) : (modPage k f m).bridleTimeout = m.bridleTimeout := by unfold modPage; rfl
@[simp] theorem modPage_bridlePart (k : Nat) (f : Page → Page) (m : Mod) : (modPage k f m).bridlePart = m.bridlePart := by unfold modPage; rfl
@[simp] theorem modPage_bridleEnable (k : Nat) (f : Page → Page) (m : Mod) : (modPage k f m).bridleEnable = m.bridleEnable := by unfold modPage; rfl
@[simp] theorem modPage_timeoutEvent (k : Nat) (f : Page → Page) (m : Mod) : (modPage k f m).timeoutEvent = m.timeoutEvent := by unfold modPage; rfl
@[simp] theorem modPage_line (k : Nat) (f : Page → Page) (m : Mod) : (modPage k f m).line = m.line := by unfold modPage; rfl
@[simp] theorem modPage_released (k : Nat) (f : Page → Page) (m : Mod) : (modPage k f m).released = m.released := by unfold modPage; rfl
@[simp] theorem modPage_releasedAt (k : Nat) (f : Page → Page) (m : Mod) : (modPage k f m).releasedAt = m.releasedAt := by unfold modPage; rfl
@[simp] theorem modPage_bridleDone (k : Nat) (f : Page → Page) (m : Mod) : (modPage k f m).bridleDone = m.bridleDone := by unfold modPage; rfl
@[simp] theorem modPage_releaseDue (k : Nat) (f : Page → Page) (m : Mod) : (modPage k f m).releaseDue = m.releaseDue := by unfold modPage; rfl
@[simp] theorem modPage_lineOn (k : Nat) (f : Page → Page) (m : Mod) : (modPage k f m).lineOn = m.lineOn := by unfold modPage; rfl
@[simp] theorem modPage_lineLow (k : Nat) (f : Page → Page) (m : Mod) : (modPage k f m).lineLow = m.lineLow := by unfold modPage; rfl
@[simp] theorem modPage_routeDrops (k : Nat) (f : Page → Page) (m : Mod) : (modPage k f m).routeDrops = m.routeDrops := by unfold modPage; rfl
@[simp] theorem modPage_forwarded (k : Nat) (f : Page → Page) (m : Mod) : (modPage k f m).forwarded = m.forwarded := by unfold modPage; rfl
@[simp] theorem modPage_fwd (k : Nat) (f : Page → Page) (m : Mod) : (modPage k f m).fwd = m.fwd := by unfold modPage; rfl
@[simp] theorem modPage_others (k : Nat) (f : Page → Page) (m : Mod) : (modPage k f m).others = m.others := by unfold modPage; rfl
@[simp] theorem modPage_training (k : Nat) (f : Page → Page) (m : Mod) : (modPage k f m).training = m.training := by unfold modPage; rfl
@[simp] theorem modPage_syncing (k : Nat) (f : Page → Page) (m : Mod) : (modPage k f m).syncing = m.syncing := by unfold modPage; rfl
@[simp] theorem modPage_alignLoaded (k : Nat) (f : Page → Page) (m : Mod) : (modPage k f m).alignLoaded = m.alignLoaded := by unfold modPage; rfl
@[simp] theorem modPage_reports (k : Nat) (f : Page → Page) (m : Mod) : (modPage k f m).reports = m.reports := by unfold modPage; rfl
@[simp] theorem modPage_box (k : Nat) (f : Page → Page) (m : Mod) : (modPage k f m).box = m.box := by unfold modPage; rfl
@[simp] theorem modPage_atgen (k : Nat) (f : Page → Page) (m : Mod) : (modPage k f m).atgen = m.atgen := by unfold modPage; rfl
@[simp] theorem modPage_power (k : Nat) (f : Page → Page) (m : Mod) : (modPage k f m).power = m.power := by unfold modPage; rfl
@[simp] theorem modPage_halves (k : Nat) (f : Page → Page) (m : Mod) : (modPage k f m).halves = m.halves := by unfold modPage; rfl
@[simp] theorem modPage_resetTile (k : Nat) (f : Page → Page) (m : Mod) : (modPage k f m).resetTile = m.resetTile := by unfold modPage; rfl
@[simp] theorem modPage_resetLast (k : Nat) (f : Page → Page) (m : Mod) : (modPage k f m).resetLast = m.resetLast := by unfold modPage; rfl
@[simp] theorem modPage_bringup (k : Nat) (f : Page → Page) (m : Mod) : (modPage k f m).bringup = m.bringup := by unfold modPage; rfl
@[simp] theorem modPage_stacksOk (k : Nat) (f : Page → Page) (m : Mod) : (modPage k f m).stacksOk = m.stacksOk := by unfold modPage; rfl
@[simp] theorem modPage_warmResets (k : Nat) (f : Page → Page) (m : Mod) : (modPage k f m).warmResets = m.warmResets := by unfold modPage; rfl
@[simp] theorem modPage_tileResets (k : Nat) (f : Page → Page) (m : Mod) : (modPage k f m).tileResets = m.tileResets := by unfold modPage; rfl
@[simp] theorem modPage_sets (k : Nat) (f : Page → Page) (m : Mod) : (modPage k f m).sets = m.sets := by unfold modPage; rfl
@[simp] theorem modPage_warmPending (k : Nat) (f : Page → Page) (m : Mod) : (modPage k f m).warmPending = m.warmPending := by unfold modPage; rfl
@[simp] theorem modPage_stuckHigh (k : Nat) (f : Page → Page) (m : Mod) : (modPage k f m).stuckHigh = m.stuckHigh := by unfold modPage; rfl
@[simp] theorem modPage_barrierPin (k : Nat) (f : Page → Page) (m : Mod) : (modPage k f m).barrierPin = m.barrierPin := by unfold modPage; rfl
@[simp] theorem modPage_tickInHigh (k : Nat) (f : Page → Page) (m : Mod) : (modPage k f m).tickInHigh = m.tickInHigh := by unfold modPage; rfl
@[simp] theorem modPage_tickOutHigh (k : Nat) (f : Page → Page) (m : Mod) : (modPage k f m).tickOutHigh = m.tickOutHigh := by unfold modPage; rfl
@[simp] theorem modPage_haltRaw (k : Nat) (f : Page → Page) (m : Mod) : (modPage k f m).haltRaw = m.haltRaw := by unfold modPage; rfl
@[simp] theorem modPage_resetNPin (k : Nat) (f : Page → Page) (m : Mod) : (modPage k f m).resetNPin = m.resetNPin := by unfold modPage; rfl
@[simp] theorem modPage_heldAtRails (k : Nat) (f : Page → Page) (m : Mod) : (modPage k f m).heldAtRails = m.heldAtRails := by unfold modPage; rfl
@[simp] theorem modPage_powered (k : Nat) (f : Page → Page) (m : Mod) : (modPage k f m).powered = m.powered := by unfold modPage; rfl
@[simp] theorem modPage_lasts (k : Nat) (f : Page → Page) (m : Mod) : (modPage k f m).lasts = m.lasts := by unfold modPage; rfl
@[simp] theorem modPage_msums (k : Nat) (f : Page → Page) (m : Mod) : (modPage k f m).msums = m.msums := by unfold modPage; rfl
@[simp] theorem modPage_events (k : Nat) (f : Page → Page) (m : Mod) : (modPage k f m).events = m.events := by unfold modPage; rfl
@[simp] theorem modPage_passRunning (k : Nat) (f : Page → Page) (m : Mod) : (modPage k f m).passRunning = m.passRunning := by unfold modPage; rfl
@[simp] theorem modPage_passStart (k : Nat) (f : Page → Page) (m : Mod) : (modPage k f m).passStart = m.passStart := by unfold modPage; rfl
@[simp] theorem modPage_passVals (k : Nat) (f : Page → Page) (m : Mod) : (modPage k f m).passVals = m.passVals := by unfold modPage; rfl
@[simp] theorem modPage_passEvents (k : Nat) (f : Page → Page) (m : Mod) : (modPage k f m).passEvents = m.passEvents := by unfold modPage; rfl
@[simp] theorem modPage_free (k : Nat) (f : Page → Page) (m : Mod) : (modPage k f m).free = m.free := by unfold modPage; rfl
@[simp] theorem modPage_out (k : Nat) (f : Page → Page) (m : Mod) : (modPage k f m).out = m.out := by unfold modPage; rfl
theorem pageOf_modPage (k j : Nat) (f : Page → Page) (m : Mod) : pageOf (modPage k f m) j = if k = j then f (pageOf m k) else pageOf m j :=
  mget_mmod ({} : Page) k j f m.dir
@[simp] theorem pageOf_modPage_self (k : Nat) (f : Page → Page) (m : Mod) : pageOf (modPage k f m) k = f (pageOf m k) := by simp [pageOf_modPage]
@[simp] theorem tileOf_modPage (k j : Nat) (f : Page → Page) (m : Mod) : tileOf (modPage k f m) j = tileOf m j := by unfold modPage; rfl
@[simp] theorem partOf_modPage (k j : Nat) (f : Page → Page) (m : Mod) : partOf (modPage k f m) j = partOf m j := by unfold modPage; rfl
@[simp] theorem portOf_modPage (k j : Nat) (f : Page → Page) (m : Mod) : portOf (modPage k f m) j = portOf m j := by unfold modPage; rfl
@[simp] theorem engineOf_modPage (k j : Nat) (f : Page → Page) (m : Mod) : engineOf (modPage k f m) j = engineOf m j := by unfold modPage; rfl
@[simp] theorem epOf_modPage (k j : Nat) (f : Page → Page) (m : Mod) : epOf (modPage k f m) j = epOf m j := by unfold modPage; rfl
@[simp] theorem barOf_modPage (k j : Nat) (f : Page → Page) (m : Mod) : barOf (modPage k f m) j = barOf m j := by unfold modPage; rfl
@[simp] theorem stackOf_modPage (k j : Nat) (f : Page → Page) (m : Mod) : stackOf (modPage k f m) j = stackOf m j := by unfold modPage; rfl
@[simp] theorem shardOf_modPage (k j : Nat) (f : Page → Page) (m : Mod) : shardOf (modPage k f m) j = shardOf m j := by unfold modPage; rfl
@[simp] theorem halfSt_modPage (k j : Nat) (f : Page → Page) (m : Mod) : halfSt (modPage k f m) j = halfSt m j := by unfold modPage; rfl

/-! ## modStack -/

@[simp] theorem modStack_native (k : Nat) (f : Stack → Stack) (m : Mod) : (modStack k f m).native = m.native := by unfold modStack; rfl
@[simp] theorem modStack_now (k : Nat) (f : Stack → Stack) (m : Mod) : (modStack k f m).now = m.now := by unfold modStack; rfl
@[simp] theorem modStack_lost (k : Nat) (f : Stack → Stack) (m : Mod) : (modStack k f m).lost = m.lost := by unfold modStack; rfl
@[simp] theorem modStack_tick (k : Nat) (f : Stack → Stack) (m : Mod) : (modStack k f m).tick = m.tick := by unfold modStack; rfl
@[simp] theorem modStack_phase (k : Nat) (f : Stack → Stack) (m : Mod) : (modStack k f m).phase = m.phase := by unfold modStack; rfl
@[simp] theorem modStack_holdTicks (k : Nat) (f : Stack → Stack) (m : Mod) : (modStack k f m).holdTicks = m.holdTicks := by unfold modStack; rfl
@[simp] theorem modStack_holdFrom (k : Nat) (f : Stack → Stack) (m : Mod) : (modStack k f m).holdFrom = m.holdFrom := by unfold modStack; rfl
@[simp] theorem modStack_source (k : Nat) (f : Stack → Stack) (m : Mod) : (modStack k f m).source = m.source := by unfold modStack; rfl
@[simp] theorem modStack_lock (k : Nat) (f : Stack → Stack) (m : Mod) : (modStack k f m).lock = m.lock := by unfold modStack; rfl
@[simp] theorem modStack_phaseEvent (k : Nat) (f : Stack → Stack) (m : Mod) : (modStack k f m).phaseEvent = m.phaseEvent := by unfold modStack; rfl
@[simp] theorem modStack_expiredEvent (k : Nat) (f : Stack → Stack) (m : Mod) : (modStack k f m).expiredEvent = m.expiredEvent := by unfold modStack; rfl
@[simp] theorem modStack_lostEvent (k : Nat) (f : Stack → Stack) (m : Mod) : (modStack k f m).lostEvent = m.lostEvent := by unfold modStack; rfl
@[simp] theorem modStack_chatter (k : Nat) (f : Stack → Stack) (m : Mod) : (modStack k f m).chatter = m.chatter := by unfold modStack; rfl
@[simp] theorem modStack_phaseErr (k : Nat) (f : Stack → Stack) (m : Mod) : (modStack k f m).phaseErr = m.phaseErr := by unfold modStack; rfl
@[simp] theorem modStack_loss (k : Nat) (f : Stack → Stack) (m : Mod) : (modStack k f m).loss = m.loss := by unfold modStack; rfl
@[simp] theorem modStack_lastEdge (k : Nat) (f : Stack → Stack) (m : Mod) : (modStack k f m).lastEdge = m.lastEdge := by unfold modStack; rfl
@[simp] theorem modStack_expiryFaulted (k : Nat) (f : Stack → Stack) (m : Mod) : (modStack k f m).expiryFaulted = m.expiryFaulted := by unfold modStack; rfl
@[simp] theorem modStack_tiles (k : Nat) (f : Stack → Stack) (m : Mod) : (modStack k f m).tiles = m.tiles := by unfold modStack; rfl
@[simp] theorem modStack_parts (k : Nat) (f : Stack → Stack) (m : Mod) : (modStack k f m).parts = m.parts := by unfold modStack; rfl
@[simp] theorem modStack_ports (k : Nat) (f : Stack → Stack) (m : Mod) : (modStack k f m).ports = m.ports := by unfold modStack; rfl
@[simp] theorem modStack_engines (k : Nat) (f : Stack → Stack) (m : Mod) : (modStack k f m).engines = m.engines := by unfold modStack; rfl
@[simp] theorem modStack_contribs (k : Nat) (f : Stack → Stack) (m : Mod) : (modStack k f m).contribs = m.contribs := by unfold modStack; rfl
@[simp] theorem modStack_chainBlks (k : Nat) (f : Stack → Stack) (m : Mod) : (modStack k f m).chainBlks = m.chainBlks := by unfold modStack; rfl
@[simp] theorem modStack_pool (k : Nat) (f : Stack → Stack) (m : Mod) : (modStack k f m).pool = m.pool := by unfold modStack; rfl
@[simp] theorem modStack_cgroups (k : Nat) (f : Stack → Stack) (m : Mod) : (modStack k f m).cgroups = m.cgroups := by unfold modStack; rfl
@[simp] theorem modStack_bars (k : Nat) (f : Stack → Stack) (m : Mod) : (modStack k f m).bars = m.bars := by unfold modStack; rfl
@[simp] theorem modStack_flight (k : Nat) (f : Stack → Stack) (m : Mod) : (modStack k f m).flight = m.flight := by unfold modStack; rfl
@[simp] theorem modStack_stopped (k : Nat) (f : Stack → Stack) (m : Mod) : (modStack k f m).stopped = m.stopped := by unfold modStack; rfl
@[simp] theorem modStack_dir (k : Nat) (f : Stack → Stack) (m : Mod) : (modStack k f m).dir = m.dir := by unfold modStack; rfl
@[simp] theorem modStack_dram (k : Nat) (f : Stack → Stack) (m : Mod) : (modStack k f m).dram = m.dram := by unfold modStack; rfl
@[simp] theorem modStack_ecc (k : Nat) (f : Stack → Stack) (m : Mod) : (modStack k f m).ecc = m.ecc := by unfold modStack; rfl
@[simp] theorem modStack_fills (k : Nat) (f : Stack → Stack) (m : Mod) : (modStack k f m).fills = m.fills := by unfold modStack; rfl
@[simp] theorem modStack_moves (k : Nat) (f : Stack → Stack) (m : Mod) : (modStack k f m).moves = m.moves := by unfold modStack; rfl
@[simp] theorem modStack_mvGroups (k : Nat) (f : Stack → Stack) (m : Mod) : (modStack k f m).mvGroups = m.mvGroups := by unfold modStack; rfl
@[simp] theorem modStack_groupNo (k : Nat) (f : Stack → Stack) (m : Mod) : (modStack k f m).groupNo = m.groupNo := by unfold modStack; rfl
@[simp] theorem modStack_relFrames (k : Nat) (f : Stack → Stack) (m : Mod) : (modStack k f m).relFrames = m.relFrames := by unfold modStack; rfl
@[simp] theorem modStack_pagesDone (k : Nat) (f : Stack → Stack) (m : Mod) : (modStack k f m).pagesDone = m.pagesDone := by unfold modStack; rfl
@[simp] theorem modStack_stk (k : Nat) (f : Stack → Stack) (m : Mod) : (modStack k f m).stk = mmod {} m.stk k f := by unfold modStack; rfl
@[simp] theorem modStack_shards (k : Nat) (f : Stack → Stack) (m : Mod) : (modStack k f m).shards = m.shards := by unfold modStack; rfl
@[simp] theorem modStack_dwins (k : Nat) (f : Stack → Stack) (m : Mod) : (modStack k f m).dwins = m.dwins := by unfold modStack; rfl
@[simp] theorem modStack_winDenied (k : Nat) (f : Stack → Stack) (m : Mod) : (modStack k f m).winDenied = m.winDenied := by unfold modStack; rfl
@[simp] theorem modStack_moduleNum (k : Nat) (f : Stack → Stack) (m : Mod) : (modStack k f m).moduleNum = m.moduleNum := by unfold modStack; rfl
@[simp] theorem modStack_position (k : Nat) (f : Stack → Stack) (m : Mod) : (modStack k f m).position = m.position := by unfold modStack; rfl
@[simp] theorem modStack_masterStrap (k : Nat) (f : Stack → Stack) (m : Mod) : (modStack k f m).masterStrap = m.masterStrap := by unfold modStack; rfl
@[simp] theorem modStack_role (k : Nat) (f : Stack → Stack) (m : Mod) : (modStack k f m).role = m.role := by unfold modStack; rfl
@[simp] theorem modStack_upstream (k : Nat) (f : Stack → Stack) (m : Mod) : (modStack k f m).upstream = m.upstream := by unfold modStack; rfl
@[simp] theorem modStack_children (k : Nat) (f : Stack → Stack) (m : Mod) : (modStack k f m).children = m.children := by unfold modStack; rfl
@[simp] theorem modStack_masterDelay (k : Nat) (f : Stack → Stack) (m : Mod) : (modStack k f m).masterDelay = m.masterDelay := by unfold modStack; rfl
@[simp] theorem modStack_hopDelay (k : Nat) (f : Stack → Stack) (m : Mod) : (modStack k f m).hopDelay = m.hopDelay := by unfold modStack; rfl
@[simp] theorem modStack_tetherHops (k : Nat) (f : Stack → Stack) (m : Mod) : (modStack k f m).tetherHops = m.tetherHops := by unfold modStack; rfl
@[simp] theorem modStack_bridleHops (k : Nat) (f : Stack → Stack) (m : Mod) : (modStack k f m).bridleHops = m.bridleHops := by unfold modStack; rfl
@[simp] theorem modStack_bridleTimeout (k : Nat) (f : Stack → Stack) (m : Mod) : (modStack k f m).bridleTimeout = m.bridleTimeout := by unfold modStack; rfl
@[simp] theorem modStack_bridlePart (k : Nat) (f : Stack → Stack) (m : Mod) : (modStack k f m).bridlePart = m.bridlePart := by unfold modStack; rfl
@[simp] theorem modStack_bridleEnable (k : Nat) (f : Stack → Stack) (m : Mod) : (modStack k f m).bridleEnable = m.bridleEnable := by unfold modStack; rfl
@[simp] theorem modStack_timeoutEvent (k : Nat) (f : Stack → Stack) (m : Mod) : (modStack k f m).timeoutEvent = m.timeoutEvent := by unfold modStack; rfl
@[simp] theorem modStack_line (k : Nat) (f : Stack → Stack) (m : Mod) : (modStack k f m).line = m.line := by unfold modStack; rfl
@[simp] theorem modStack_released (k : Nat) (f : Stack → Stack) (m : Mod) : (modStack k f m).released = m.released := by unfold modStack; rfl
@[simp] theorem modStack_releasedAt (k : Nat) (f : Stack → Stack) (m : Mod) : (modStack k f m).releasedAt = m.releasedAt := by unfold modStack; rfl
@[simp] theorem modStack_bridleDone (k : Nat) (f : Stack → Stack) (m : Mod) : (modStack k f m).bridleDone = m.bridleDone := by unfold modStack; rfl
@[simp] theorem modStack_releaseDue (k : Nat) (f : Stack → Stack) (m : Mod) : (modStack k f m).releaseDue = m.releaseDue := by unfold modStack; rfl
@[simp] theorem modStack_lineOn (k : Nat) (f : Stack → Stack) (m : Mod) : (modStack k f m).lineOn = m.lineOn := by unfold modStack; rfl
@[simp] theorem modStack_lineLow (k : Nat) (f : Stack → Stack) (m : Mod) : (modStack k f m).lineLow = m.lineLow := by unfold modStack; rfl
@[simp] theorem modStack_routeDrops (k : Nat) (f : Stack → Stack) (m : Mod) : (modStack k f m).routeDrops = m.routeDrops := by unfold modStack; rfl
@[simp] theorem modStack_forwarded (k : Nat) (f : Stack → Stack) (m : Mod) : (modStack k f m).forwarded = m.forwarded := by unfold modStack; rfl
@[simp] theorem modStack_fwd (k : Nat) (f : Stack → Stack) (m : Mod) : (modStack k f m).fwd = m.fwd := by unfold modStack; rfl
@[simp] theorem modStack_others (k : Nat) (f : Stack → Stack) (m : Mod) : (modStack k f m).others = m.others := by unfold modStack; rfl
@[simp] theorem modStack_training (k : Nat) (f : Stack → Stack) (m : Mod) : (modStack k f m).training = m.training := by unfold modStack; rfl
@[simp] theorem modStack_syncing (k : Nat) (f : Stack → Stack) (m : Mod) : (modStack k f m).syncing = m.syncing := by unfold modStack; rfl
@[simp] theorem modStack_alignLoaded (k : Nat) (f : Stack → Stack) (m : Mod) : (modStack k f m).alignLoaded = m.alignLoaded := by unfold modStack; rfl
@[simp] theorem modStack_reports (k : Nat) (f : Stack → Stack) (m : Mod) : (modStack k f m).reports = m.reports := by unfold modStack; rfl
@[simp] theorem modStack_box (k : Nat) (f : Stack → Stack) (m : Mod) : (modStack k f m).box = m.box := by unfold modStack; rfl
@[simp] theorem modStack_atgen (k : Nat) (f : Stack → Stack) (m : Mod) : (modStack k f m).atgen = m.atgen := by unfold modStack; rfl
@[simp] theorem modStack_power (k : Nat) (f : Stack → Stack) (m : Mod) : (modStack k f m).power = m.power := by unfold modStack; rfl
@[simp] theorem modStack_halves (k : Nat) (f : Stack → Stack) (m : Mod) : (modStack k f m).halves = m.halves := by unfold modStack; rfl
@[simp] theorem modStack_resetTile (k : Nat) (f : Stack → Stack) (m : Mod) : (modStack k f m).resetTile = m.resetTile := by unfold modStack; rfl
@[simp] theorem modStack_resetLast (k : Nat) (f : Stack → Stack) (m : Mod) : (modStack k f m).resetLast = m.resetLast := by unfold modStack; rfl
@[simp] theorem modStack_bringup (k : Nat) (f : Stack → Stack) (m : Mod) : (modStack k f m).bringup = m.bringup := by unfold modStack; rfl
@[simp] theorem modStack_stacksOk (k : Nat) (f : Stack → Stack) (m : Mod) : (modStack k f m).stacksOk = m.stacksOk := by unfold modStack; rfl
@[simp] theorem modStack_warmResets (k : Nat) (f : Stack → Stack) (m : Mod) : (modStack k f m).warmResets = m.warmResets := by unfold modStack; rfl
@[simp] theorem modStack_tileResets (k : Nat) (f : Stack → Stack) (m : Mod) : (modStack k f m).tileResets = m.tileResets := by unfold modStack; rfl
@[simp] theorem modStack_sets (k : Nat) (f : Stack → Stack) (m : Mod) : (modStack k f m).sets = m.sets := by unfold modStack; rfl
@[simp] theorem modStack_warmPending (k : Nat) (f : Stack → Stack) (m : Mod) : (modStack k f m).warmPending = m.warmPending := by unfold modStack; rfl
@[simp] theorem modStack_stuckHigh (k : Nat) (f : Stack → Stack) (m : Mod) : (modStack k f m).stuckHigh = m.stuckHigh := by unfold modStack; rfl
@[simp] theorem modStack_barrierPin (k : Nat) (f : Stack → Stack) (m : Mod) : (modStack k f m).barrierPin = m.barrierPin := by unfold modStack; rfl
@[simp] theorem modStack_tickInHigh (k : Nat) (f : Stack → Stack) (m : Mod) : (modStack k f m).tickInHigh = m.tickInHigh := by unfold modStack; rfl
@[simp] theorem modStack_tickOutHigh (k : Nat) (f : Stack → Stack) (m : Mod) : (modStack k f m).tickOutHigh = m.tickOutHigh := by unfold modStack; rfl
@[simp] theorem modStack_haltRaw (k : Nat) (f : Stack → Stack) (m : Mod) : (modStack k f m).haltRaw = m.haltRaw := by unfold modStack; rfl
@[simp] theorem modStack_resetNPin (k : Nat) (f : Stack → Stack) (m : Mod) : (modStack k f m).resetNPin = m.resetNPin := by unfold modStack; rfl
@[simp] theorem modStack_heldAtRails (k : Nat) (f : Stack → Stack) (m : Mod) : (modStack k f m).heldAtRails = m.heldAtRails := by unfold modStack; rfl
@[simp] theorem modStack_powered (k : Nat) (f : Stack → Stack) (m : Mod) : (modStack k f m).powered = m.powered := by unfold modStack; rfl
@[simp] theorem modStack_lasts (k : Nat) (f : Stack → Stack) (m : Mod) : (modStack k f m).lasts = m.lasts := by unfold modStack; rfl
@[simp] theorem modStack_msums (k : Nat) (f : Stack → Stack) (m : Mod) : (modStack k f m).msums = m.msums := by unfold modStack; rfl
@[simp] theorem modStack_events (k : Nat) (f : Stack → Stack) (m : Mod) : (modStack k f m).events = m.events := by unfold modStack; rfl
@[simp] theorem modStack_passRunning (k : Nat) (f : Stack → Stack) (m : Mod) : (modStack k f m).passRunning = m.passRunning := by unfold modStack; rfl
@[simp] theorem modStack_passStart (k : Nat) (f : Stack → Stack) (m : Mod) : (modStack k f m).passStart = m.passStart := by unfold modStack; rfl
@[simp] theorem modStack_passVals (k : Nat) (f : Stack → Stack) (m : Mod) : (modStack k f m).passVals = m.passVals := by unfold modStack; rfl
@[simp] theorem modStack_passEvents (k : Nat) (f : Stack → Stack) (m : Mod) : (modStack k f m).passEvents = m.passEvents := by unfold modStack; rfl
@[simp] theorem modStack_free (k : Nat) (f : Stack → Stack) (m : Mod) : (modStack k f m).free = m.free := by unfold modStack; rfl
@[simp] theorem modStack_out (k : Nat) (f : Stack → Stack) (m : Mod) : (modStack k f m).out = m.out := by unfold modStack; rfl
theorem stackOf_modStack (k j : Nat) (f : Stack → Stack) (m : Mod) : stackOf (modStack k f m) j = if k = j then f (stackOf m k) else stackOf m j :=
  mget_mmod ({} : Stack) k j f m.stk
@[simp] theorem stackOf_modStack_self (k : Nat) (f : Stack → Stack) (m : Mod) : stackOf (modStack k f m) k = f (stackOf m k) := by simp [stackOf_modStack]
@[simp] theorem tileOf_modStack (k j : Nat) (f : Stack → Stack) (m : Mod) : tileOf (modStack k f m) j = tileOf m j := by unfold modStack; rfl
@[simp] theorem partOf_modStack (k j : Nat) (f : Stack → Stack) (m : Mod) : partOf (modStack k f m) j = partOf m j := by unfold modStack; rfl
@[simp] theorem portOf_modStack (k j : Nat) (f : Stack → Stack) (m : Mod) : portOf (modStack k f m) j = portOf m j := by unfold modStack; rfl
@[simp] theorem engineOf_modStack (k j : Nat) (f : Stack → Stack) (m : Mod) : engineOf (modStack k f m) j = engineOf m j := by unfold modStack; rfl
@[simp] theorem epOf_modStack (k j : Nat) (f : Stack → Stack) (m : Mod) : epOf (modStack k f m) j = epOf m j := by unfold modStack; rfl
@[simp] theorem barOf_modStack (k j : Nat) (f : Stack → Stack) (m : Mod) : barOf (modStack k f m) j = barOf m j := by unfold modStack; rfl
@[simp] theorem pageOf_modStack (k j : Nat) (f : Stack → Stack) (m : Mod) : pageOf (modStack k f m) j = pageOf m j := by unfold modStack; rfl
@[simp] theorem shardOf_modStack (k j : Nat) (f : Stack → Stack) (m : Mod) : shardOf (modStack k f m) j = shardOf m j := by unfold modStack; rfl
@[simp] theorem halfSt_modStack (k j : Nat) (f : Stack → Stack) (m : Mod) : halfSt (modStack k f m) j = halfSt m j := by unfold modStack; rfl

/-! ## modShard -/

@[simp] theorem modShard_native (k : Nat) (f : Shard → Shard) (m : Mod) : (modShard k f m).native = m.native := by unfold modShard; rfl
@[simp] theorem modShard_now (k : Nat) (f : Shard → Shard) (m : Mod) : (modShard k f m).now = m.now := by unfold modShard; rfl
@[simp] theorem modShard_lost (k : Nat) (f : Shard → Shard) (m : Mod) : (modShard k f m).lost = m.lost := by unfold modShard; rfl
@[simp] theorem modShard_tick (k : Nat) (f : Shard → Shard) (m : Mod) : (modShard k f m).tick = m.tick := by unfold modShard; rfl
@[simp] theorem modShard_phase (k : Nat) (f : Shard → Shard) (m : Mod) : (modShard k f m).phase = m.phase := by unfold modShard; rfl
@[simp] theorem modShard_holdTicks (k : Nat) (f : Shard → Shard) (m : Mod) : (modShard k f m).holdTicks = m.holdTicks := by unfold modShard; rfl
@[simp] theorem modShard_holdFrom (k : Nat) (f : Shard → Shard) (m : Mod) : (modShard k f m).holdFrom = m.holdFrom := by unfold modShard; rfl
@[simp] theorem modShard_source (k : Nat) (f : Shard → Shard) (m : Mod) : (modShard k f m).source = m.source := by unfold modShard; rfl
@[simp] theorem modShard_lock (k : Nat) (f : Shard → Shard) (m : Mod) : (modShard k f m).lock = m.lock := by unfold modShard; rfl
@[simp] theorem modShard_phaseEvent (k : Nat) (f : Shard → Shard) (m : Mod) : (modShard k f m).phaseEvent = m.phaseEvent := by unfold modShard; rfl
@[simp] theorem modShard_expiredEvent (k : Nat) (f : Shard → Shard) (m : Mod) : (modShard k f m).expiredEvent = m.expiredEvent := by unfold modShard; rfl
@[simp] theorem modShard_lostEvent (k : Nat) (f : Shard → Shard) (m : Mod) : (modShard k f m).lostEvent = m.lostEvent := by unfold modShard; rfl
@[simp] theorem modShard_chatter (k : Nat) (f : Shard → Shard) (m : Mod) : (modShard k f m).chatter = m.chatter := by unfold modShard; rfl
@[simp] theorem modShard_phaseErr (k : Nat) (f : Shard → Shard) (m : Mod) : (modShard k f m).phaseErr = m.phaseErr := by unfold modShard; rfl
@[simp] theorem modShard_loss (k : Nat) (f : Shard → Shard) (m : Mod) : (modShard k f m).loss = m.loss := by unfold modShard; rfl
@[simp] theorem modShard_lastEdge (k : Nat) (f : Shard → Shard) (m : Mod) : (modShard k f m).lastEdge = m.lastEdge := by unfold modShard; rfl
@[simp] theorem modShard_expiryFaulted (k : Nat) (f : Shard → Shard) (m : Mod) : (modShard k f m).expiryFaulted = m.expiryFaulted := by unfold modShard; rfl
@[simp] theorem modShard_tiles (k : Nat) (f : Shard → Shard) (m : Mod) : (modShard k f m).tiles = m.tiles := by unfold modShard; rfl
@[simp] theorem modShard_parts (k : Nat) (f : Shard → Shard) (m : Mod) : (modShard k f m).parts = m.parts := by unfold modShard; rfl
@[simp] theorem modShard_ports (k : Nat) (f : Shard → Shard) (m : Mod) : (modShard k f m).ports = m.ports := by unfold modShard; rfl
@[simp] theorem modShard_engines (k : Nat) (f : Shard → Shard) (m : Mod) : (modShard k f m).engines = m.engines := by unfold modShard; rfl
@[simp] theorem modShard_contribs (k : Nat) (f : Shard → Shard) (m : Mod) : (modShard k f m).contribs = m.contribs := by unfold modShard; rfl
@[simp] theorem modShard_chainBlks (k : Nat) (f : Shard → Shard) (m : Mod) : (modShard k f m).chainBlks = m.chainBlks := by unfold modShard; rfl
@[simp] theorem modShard_pool (k : Nat) (f : Shard → Shard) (m : Mod) : (modShard k f m).pool = m.pool := by unfold modShard; rfl
@[simp] theorem modShard_cgroups (k : Nat) (f : Shard → Shard) (m : Mod) : (modShard k f m).cgroups = m.cgroups := by unfold modShard; rfl
@[simp] theorem modShard_bars (k : Nat) (f : Shard → Shard) (m : Mod) : (modShard k f m).bars = m.bars := by unfold modShard; rfl
@[simp] theorem modShard_flight (k : Nat) (f : Shard → Shard) (m : Mod) : (modShard k f m).flight = m.flight := by unfold modShard; rfl
@[simp] theorem modShard_stopped (k : Nat) (f : Shard → Shard) (m : Mod) : (modShard k f m).stopped = m.stopped := by unfold modShard; rfl
@[simp] theorem modShard_dir (k : Nat) (f : Shard → Shard) (m : Mod) : (modShard k f m).dir = m.dir := by unfold modShard; rfl
@[simp] theorem modShard_dram (k : Nat) (f : Shard → Shard) (m : Mod) : (modShard k f m).dram = m.dram := by unfold modShard; rfl
@[simp] theorem modShard_ecc (k : Nat) (f : Shard → Shard) (m : Mod) : (modShard k f m).ecc = m.ecc := by unfold modShard; rfl
@[simp] theorem modShard_fills (k : Nat) (f : Shard → Shard) (m : Mod) : (modShard k f m).fills = m.fills := by unfold modShard; rfl
@[simp] theorem modShard_moves (k : Nat) (f : Shard → Shard) (m : Mod) : (modShard k f m).moves = m.moves := by unfold modShard; rfl
@[simp] theorem modShard_mvGroups (k : Nat) (f : Shard → Shard) (m : Mod) : (modShard k f m).mvGroups = m.mvGroups := by unfold modShard; rfl
@[simp] theorem modShard_groupNo (k : Nat) (f : Shard → Shard) (m : Mod) : (modShard k f m).groupNo = m.groupNo := by unfold modShard; rfl
@[simp] theorem modShard_relFrames (k : Nat) (f : Shard → Shard) (m : Mod) : (modShard k f m).relFrames = m.relFrames := by unfold modShard; rfl
@[simp] theorem modShard_pagesDone (k : Nat) (f : Shard → Shard) (m : Mod) : (modShard k f m).pagesDone = m.pagesDone := by unfold modShard; rfl
@[simp] theorem modShard_stk (k : Nat) (f : Shard → Shard) (m : Mod) : (modShard k f m).stk = m.stk := by unfold modShard; rfl
@[simp] theorem modShard_shards (k : Nat) (f : Shard → Shard) (m : Mod) : (modShard k f m).shards = mmod {} m.shards k f := by unfold modShard; rfl
@[simp] theorem modShard_dwins (k : Nat) (f : Shard → Shard) (m : Mod) : (modShard k f m).dwins = m.dwins := by unfold modShard; rfl
@[simp] theorem modShard_winDenied (k : Nat) (f : Shard → Shard) (m : Mod) : (modShard k f m).winDenied = m.winDenied := by unfold modShard; rfl
@[simp] theorem modShard_moduleNum (k : Nat) (f : Shard → Shard) (m : Mod) : (modShard k f m).moduleNum = m.moduleNum := by unfold modShard; rfl
@[simp] theorem modShard_position (k : Nat) (f : Shard → Shard) (m : Mod) : (modShard k f m).position = m.position := by unfold modShard; rfl
@[simp] theorem modShard_masterStrap (k : Nat) (f : Shard → Shard) (m : Mod) : (modShard k f m).masterStrap = m.masterStrap := by unfold modShard; rfl
@[simp] theorem modShard_role (k : Nat) (f : Shard → Shard) (m : Mod) : (modShard k f m).role = m.role := by unfold modShard; rfl
@[simp] theorem modShard_upstream (k : Nat) (f : Shard → Shard) (m : Mod) : (modShard k f m).upstream = m.upstream := by unfold modShard; rfl
@[simp] theorem modShard_children (k : Nat) (f : Shard → Shard) (m : Mod) : (modShard k f m).children = m.children := by unfold modShard; rfl
@[simp] theorem modShard_masterDelay (k : Nat) (f : Shard → Shard) (m : Mod) : (modShard k f m).masterDelay = m.masterDelay := by unfold modShard; rfl
@[simp] theorem modShard_hopDelay (k : Nat) (f : Shard → Shard) (m : Mod) : (modShard k f m).hopDelay = m.hopDelay := by unfold modShard; rfl
@[simp] theorem modShard_tetherHops (k : Nat) (f : Shard → Shard) (m : Mod) : (modShard k f m).tetherHops = m.tetherHops := by unfold modShard; rfl
@[simp] theorem modShard_bridleHops (k : Nat) (f : Shard → Shard) (m : Mod) : (modShard k f m).bridleHops = m.bridleHops := by unfold modShard; rfl
@[simp] theorem modShard_bridleTimeout (k : Nat) (f : Shard → Shard) (m : Mod) : (modShard k f m).bridleTimeout = m.bridleTimeout := by unfold modShard; rfl
@[simp] theorem modShard_bridlePart (k : Nat) (f : Shard → Shard) (m : Mod) : (modShard k f m).bridlePart = m.bridlePart := by unfold modShard; rfl
@[simp] theorem modShard_bridleEnable (k : Nat) (f : Shard → Shard) (m : Mod) : (modShard k f m).bridleEnable = m.bridleEnable := by unfold modShard; rfl
@[simp] theorem modShard_timeoutEvent (k : Nat) (f : Shard → Shard) (m : Mod) : (modShard k f m).timeoutEvent = m.timeoutEvent := by unfold modShard; rfl
@[simp] theorem modShard_line (k : Nat) (f : Shard → Shard) (m : Mod) : (modShard k f m).line = m.line := by unfold modShard; rfl
@[simp] theorem modShard_released (k : Nat) (f : Shard → Shard) (m : Mod) : (modShard k f m).released = m.released := by unfold modShard; rfl
@[simp] theorem modShard_releasedAt (k : Nat) (f : Shard → Shard) (m : Mod) : (modShard k f m).releasedAt = m.releasedAt := by unfold modShard; rfl
@[simp] theorem modShard_bridleDone (k : Nat) (f : Shard → Shard) (m : Mod) : (modShard k f m).bridleDone = m.bridleDone := by unfold modShard; rfl
@[simp] theorem modShard_releaseDue (k : Nat) (f : Shard → Shard) (m : Mod) : (modShard k f m).releaseDue = m.releaseDue := by unfold modShard; rfl
@[simp] theorem modShard_lineOn (k : Nat) (f : Shard → Shard) (m : Mod) : (modShard k f m).lineOn = m.lineOn := by unfold modShard; rfl
@[simp] theorem modShard_lineLow (k : Nat) (f : Shard → Shard) (m : Mod) : (modShard k f m).lineLow = m.lineLow := by unfold modShard; rfl
@[simp] theorem modShard_routeDrops (k : Nat) (f : Shard → Shard) (m : Mod) : (modShard k f m).routeDrops = m.routeDrops := by unfold modShard; rfl
@[simp] theorem modShard_forwarded (k : Nat) (f : Shard → Shard) (m : Mod) : (modShard k f m).forwarded = m.forwarded := by unfold modShard; rfl
@[simp] theorem modShard_fwd (k : Nat) (f : Shard → Shard) (m : Mod) : (modShard k f m).fwd = m.fwd := by unfold modShard; rfl
@[simp] theorem modShard_others (k : Nat) (f : Shard → Shard) (m : Mod) : (modShard k f m).others = m.others := by unfold modShard; rfl
@[simp] theorem modShard_training (k : Nat) (f : Shard → Shard) (m : Mod) : (modShard k f m).training = m.training := by unfold modShard; rfl
@[simp] theorem modShard_syncing (k : Nat) (f : Shard → Shard) (m : Mod) : (modShard k f m).syncing = m.syncing := by unfold modShard; rfl
@[simp] theorem modShard_alignLoaded (k : Nat) (f : Shard → Shard) (m : Mod) : (modShard k f m).alignLoaded = m.alignLoaded := by unfold modShard; rfl
@[simp] theorem modShard_reports (k : Nat) (f : Shard → Shard) (m : Mod) : (modShard k f m).reports = m.reports := by unfold modShard; rfl
@[simp] theorem modShard_box (k : Nat) (f : Shard → Shard) (m : Mod) : (modShard k f m).box = m.box := by unfold modShard; rfl
@[simp] theorem modShard_atgen (k : Nat) (f : Shard → Shard) (m : Mod) : (modShard k f m).atgen = m.atgen := by unfold modShard; rfl
@[simp] theorem modShard_power (k : Nat) (f : Shard → Shard) (m : Mod) : (modShard k f m).power = m.power := by unfold modShard; rfl
@[simp] theorem modShard_halves (k : Nat) (f : Shard → Shard) (m : Mod) : (modShard k f m).halves = m.halves := by unfold modShard; rfl
@[simp] theorem modShard_resetTile (k : Nat) (f : Shard → Shard) (m : Mod) : (modShard k f m).resetTile = m.resetTile := by unfold modShard; rfl
@[simp] theorem modShard_resetLast (k : Nat) (f : Shard → Shard) (m : Mod) : (modShard k f m).resetLast = m.resetLast := by unfold modShard; rfl
@[simp] theorem modShard_bringup (k : Nat) (f : Shard → Shard) (m : Mod) : (modShard k f m).bringup = m.bringup := by unfold modShard; rfl
@[simp] theorem modShard_stacksOk (k : Nat) (f : Shard → Shard) (m : Mod) : (modShard k f m).stacksOk = m.stacksOk := by unfold modShard; rfl
@[simp] theorem modShard_warmResets (k : Nat) (f : Shard → Shard) (m : Mod) : (modShard k f m).warmResets = m.warmResets := by unfold modShard; rfl
@[simp] theorem modShard_tileResets (k : Nat) (f : Shard → Shard) (m : Mod) : (modShard k f m).tileResets = m.tileResets := by unfold modShard; rfl
@[simp] theorem modShard_sets (k : Nat) (f : Shard → Shard) (m : Mod) : (modShard k f m).sets = m.sets := by unfold modShard; rfl
@[simp] theorem modShard_warmPending (k : Nat) (f : Shard → Shard) (m : Mod) : (modShard k f m).warmPending = m.warmPending := by unfold modShard; rfl
@[simp] theorem modShard_stuckHigh (k : Nat) (f : Shard → Shard) (m : Mod) : (modShard k f m).stuckHigh = m.stuckHigh := by unfold modShard; rfl
@[simp] theorem modShard_barrierPin (k : Nat) (f : Shard → Shard) (m : Mod) : (modShard k f m).barrierPin = m.barrierPin := by unfold modShard; rfl
@[simp] theorem modShard_tickInHigh (k : Nat) (f : Shard → Shard) (m : Mod) : (modShard k f m).tickInHigh = m.tickInHigh := by unfold modShard; rfl
@[simp] theorem modShard_tickOutHigh (k : Nat) (f : Shard → Shard) (m : Mod) : (modShard k f m).tickOutHigh = m.tickOutHigh := by unfold modShard; rfl
@[simp] theorem modShard_haltRaw (k : Nat) (f : Shard → Shard) (m : Mod) : (modShard k f m).haltRaw = m.haltRaw := by unfold modShard; rfl
@[simp] theorem modShard_resetNPin (k : Nat) (f : Shard → Shard) (m : Mod) : (modShard k f m).resetNPin = m.resetNPin := by unfold modShard; rfl
@[simp] theorem modShard_heldAtRails (k : Nat) (f : Shard → Shard) (m : Mod) : (modShard k f m).heldAtRails = m.heldAtRails := by unfold modShard; rfl
@[simp] theorem modShard_powered (k : Nat) (f : Shard → Shard) (m : Mod) : (modShard k f m).powered = m.powered := by unfold modShard; rfl
@[simp] theorem modShard_lasts (k : Nat) (f : Shard → Shard) (m : Mod) : (modShard k f m).lasts = m.lasts := by unfold modShard; rfl
@[simp] theorem modShard_msums (k : Nat) (f : Shard → Shard) (m : Mod) : (modShard k f m).msums = m.msums := by unfold modShard; rfl
@[simp] theorem modShard_events (k : Nat) (f : Shard → Shard) (m : Mod) : (modShard k f m).events = m.events := by unfold modShard; rfl
@[simp] theorem modShard_passRunning (k : Nat) (f : Shard → Shard) (m : Mod) : (modShard k f m).passRunning = m.passRunning := by unfold modShard; rfl
@[simp] theorem modShard_passStart (k : Nat) (f : Shard → Shard) (m : Mod) : (modShard k f m).passStart = m.passStart := by unfold modShard; rfl
@[simp] theorem modShard_passVals (k : Nat) (f : Shard → Shard) (m : Mod) : (modShard k f m).passVals = m.passVals := by unfold modShard; rfl
@[simp] theorem modShard_passEvents (k : Nat) (f : Shard → Shard) (m : Mod) : (modShard k f m).passEvents = m.passEvents := by unfold modShard; rfl
@[simp] theorem modShard_free (k : Nat) (f : Shard → Shard) (m : Mod) : (modShard k f m).free = m.free := by unfold modShard; rfl
@[simp] theorem modShard_out (k : Nat) (f : Shard → Shard) (m : Mod) : (modShard k f m).out = m.out := by unfold modShard; rfl
theorem shardOf_modShard (k j : Nat) (f : Shard → Shard) (m : Mod) : shardOf (modShard k f m) j = if k = j then f (shardOf m k) else shardOf m j :=
  mget_mmod ({} : Shard) k j f m.shards
@[simp] theorem shardOf_modShard_self (k : Nat) (f : Shard → Shard) (m : Mod) : shardOf (modShard k f m) k = f (shardOf m k) := by simp [shardOf_modShard]
@[simp] theorem tileOf_modShard (k j : Nat) (f : Shard → Shard) (m : Mod) : tileOf (modShard k f m) j = tileOf m j := by unfold modShard; rfl
@[simp] theorem partOf_modShard (k j : Nat) (f : Shard → Shard) (m : Mod) : partOf (modShard k f m) j = partOf m j := by unfold modShard; rfl
@[simp] theorem portOf_modShard (k j : Nat) (f : Shard → Shard) (m : Mod) : portOf (modShard k f m) j = portOf m j := by unfold modShard; rfl
@[simp] theorem engineOf_modShard (k j : Nat) (f : Shard → Shard) (m : Mod) : engineOf (modShard k f m) j = engineOf m j := by unfold modShard; rfl
@[simp] theorem epOf_modShard (k j : Nat) (f : Shard → Shard) (m : Mod) : epOf (modShard k f m) j = epOf m j := by unfold modShard; rfl
@[simp] theorem barOf_modShard (k j : Nat) (f : Shard → Shard) (m : Mod) : barOf (modShard k f m) j = barOf m j := by unfold modShard; rfl
@[simp] theorem pageOf_modShard (k j : Nat) (f : Shard → Shard) (m : Mod) : pageOf (modShard k f m) j = pageOf m j := by unfold modShard; rfl
@[simp] theorem stackOf_modShard (k j : Nat) (f : Shard → Shard) (m : Mod) : stackOf (modShard k f m) j = stackOf m j := by unfold modShard; rfl
@[simp] theorem halfSt_modShard (k j : Nat) (f : Shard → Shard) (m : Mod) : halfSt (modShard k f m) j = halfSt m j := by unfold modShard; rfl

/-! ## modHalf -/

@[simp] theorem modHalf_native (k : Nat) (f : HalfSt → HalfSt) (m : Mod) : (modHalf k f m).native = m.native := by unfold modHalf; rfl
@[simp] theorem modHalf_now (k : Nat) (f : HalfSt → HalfSt) (m : Mod) : (modHalf k f m).now = m.now := by unfold modHalf; rfl
@[simp] theorem modHalf_lost (k : Nat) (f : HalfSt → HalfSt) (m : Mod) : (modHalf k f m).lost = m.lost := by unfold modHalf; rfl
@[simp] theorem modHalf_tick (k : Nat) (f : HalfSt → HalfSt) (m : Mod) : (modHalf k f m).tick = m.tick := by unfold modHalf; rfl
@[simp] theorem modHalf_phase (k : Nat) (f : HalfSt → HalfSt) (m : Mod) : (modHalf k f m).phase = m.phase := by unfold modHalf; rfl
@[simp] theorem modHalf_holdTicks (k : Nat) (f : HalfSt → HalfSt) (m : Mod) : (modHalf k f m).holdTicks = m.holdTicks := by unfold modHalf; rfl
@[simp] theorem modHalf_holdFrom (k : Nat) (f : HalfSt → HalfSt) (m : Mod) : (modHalf k f m).holdFrom = m.holdFrom := by unfold modHalf; rfl
@[simp] theorem modHalf_source (k : Nat) (f : HalfSt → HalfSt) (m : Mod) : (modHalf k f m).source = m.source := by unfold modHalf; rfl
@[simp] theorem modHalf_lock (k : Nat) (f : HalfSt → HalfSt) (m : Mod) : (modHalf k f m).lock = m.lock := by unfold modHalf; rfl
@[simp] theorem modHalf_phaseEvent (k : Nat) (f : HalfSt → HalfSt) (m : Mod) : (modHalf k f m).phaseEvent = m.phaseEvent := by unfold modHalf; rfl
@[simp] theorem modHalf_expiredEvent (k : Nat) (f : HalfSt → HalfSt) (m : Mod) : (modHalf k f m).expiredEvent = m.expiredEvent := by unfold modHalf; rfl
@[simp] theorem modHalf_lostEvent (k : Nat) (f : HalfSt → HalfSt) (m : Mod) : (modHalf k f m).lostEvent = m.lostEvent := by unfold modHalf; rfl
@[simp] theorem modHalf_chatter (k : Nat) (f : HalfSt → HalfSt) (m : Mod) : (modHalf k f m).chatter = m.chatter := by unfold modHalf; rfl
@[simp] theorem modHalf_phaseErr (k : Nat) (f : HalfSt → HalfSt) (m : Mod) : (modHalf k f m).phaseErr = m.phaseErr := by unfold modHalf; rfl
@[simp] theorem modHalf_loss (k : Nat) (f : HalfSt → HalfSt) (m : Mod) : (modHalf k f m).loss = m.loss := by unfold modHalf; rfl
@[simp] theorem modHalf_lastEdge (k : Nat) (f : HalfSt → HalfSt) (m : Mod) : (modHalf k f m).lastEdge = m.lastEdge := by unfold modHalf; rfl
@[simp] theorem modHalf_expiryFaulted (k : Nat) (f : HalfSt → HalfSt) (m : Mod) : (modHalf k f m).expiryFaulted = m.expiryFaulted := by unfold modHalf; rfl
@[simp] theorem modHalf_tiles (k : Nat) (f : HalfSt → HalfSt) (m : Mod) : (modHalf k f m).tiles = m.tiles := by unfold modHalf; rfl
@[simp] theorem modHalf_parts (k : Nat) (f : HalfSt → HalfSt) (m : Mod) : (modHalf k f m).parts = m.parts := by unfold modHalf; rfl
@[simp] theorem modHalf_ports (k : Nat) (f : HalfSt → HalfSt) (m : Mod) : (modHalf k f m).ports = m.ports := by unfold modHalf; rfl
@[simp] theorem modHalf_engines (k : Nat) (f : HalfSt → HalfSt) (m : Mod) : (modHalf k f m).engines = m.engines := by unfold modHalf; rfl
@[simp] theorem modHalf_contribs (k : Nat) (f : HalfSt → HalfSt) (m : Mod) : (modHalf k f m).contribs = m.contribs := by unfold modHalf; rfl
@[simp] theorem modHalf_chainBlks (k : Nat) (f : HalfSt → HalfSt) (m : Mod) : (modHalf k f m).chainBlks = m.chainBlks := by unfold modHalf; rfl
@[simp] theorem modHalf_pool (k : Nat) (f : HalfSt → HalfSt) (m : Mod) : (modHalf k f m).pool = m.pool := by unfold modHalf; rfl
@[simp] theorem modHalf_cgroups (k : Nat) (f : HalfSt → HalfSt) (m : Mod) : (modHalf k f m).cgroups = m.cgroups := by unfold modHalf; rfl
@[simp] theorem modHalf_bars (k : Nat) (f : HalfSt → HalfSt) (m : Mod) : (modHalf k f m).bars = m.bars := by unfold modHalf; rfl
@[simp] theorem modHalf_flight (k : Nat) (f : HalfSt → HalfSt) (m : Mod) : (modHalf k f m).flight = m.flight := by unfold modHalf; rfl
@[simp] theorem modHalf_stopped (k : Nat) (f : HalfSt → HalfSt) (m : Mod) : (modHalf k f m).stopped = m.stopped := by unfold modHalf; rfl
@[simp] theorem modHalf_dir (k : Nat) (f : HalfSt → HalfSt) (m : Mod) : (modHalf k f m).dir = m.dir := by unfold modHalf; rfl
@[simp] theorem modHalf_dram (k : Nat) (f : HalfSt → HalfSt) (m : Mod) : (modHalf k f m).dram = m.dram := by unfold modHalf; rfl
@[simp] theorem modHalf_ecc (k : Nat) (f : HalfSt → HalfSt) (m : Mod) : (modHalf k f m).ecc = m.ecc := by unfold modHalf; rfl
@[simp] theorem modHalf_fills (k : Nat) (f : HalfSt → HalfSt) (m : Mod) : (modHalf k f m).fills = m.fills := by unfold modHalf; rfl
@[simp] theorem modHalf_moves (k : Nat) (f : HalfSt → HalfSt) (m : Mod) : (modHalf k f m).moves = m.moves := by unfold modHalf; rfl
@[simp] theorem modHalf_mvGroups (k : Nat) (f : HalfSt → HalfSt) (m : Mod) : (modHalf k f m).mvGroups = m.mvGroups := by unfold modHalf; rfl
@[simp] theorem modHalf_groupNo (k : Nat) (f : HalfSt → HalfSt) (m : Mod) : (modHalf k f m).groupNo = m.groupNo := by unfold modHalf; rfl
@[simp] theorem modHalf_relFrames (k : Nat) (f : HalfSt → HalfSt) (m : Mod) : (modHalf k f m).relFrames = m.relFrames := by unfold modHalf; rfl
@[simp] theorem modHalf_pagesDone (k : Nat) (f : HalfSt → HalfSt) (m : Mod) : (modHalf k f m).pagesDone = m.pagesDone := by unfold modHalf; rfl
@[simp] theorem modHalf_stk (k : Nat) (f : HalfSt → HalfSt) (m : Mod) : (modHalf k f m).stk = m.stk := by unfold modHalf; rfl
@[simp] theorem modHalf_shards (k : Nat) (f : HalfSt → HalfSt) (m : Mod) : (modHalf k f m).shards = m.shards := by unfold modHalf; rfl
@[simp] theorem modHalf_dwins (k : Nat) (f : HalfSt → HalfSt) (m : Mod) : (modHalf k f m).dwins = m.dwins := by unfold modHalf; rfl
@[simp] theorem modHalf_winDenied (k : Nat) (f : HalfSt → HalfSt) (m : Mod) : (modHalf k f m).winDenied = m.winDenied := by unfold modHalf; rfl
@[simp] theorem modHalf_moduleNum (k : Nat) (f : HalfSt → HalfSt) (m : Mod) : (modHalf k f m).moduleNum = m.moduleNum := by unfold modHalf; rfl
@[simp] theorem modHalf_position (k : Nat) (f : HalfSt → HalfSt) (m : Mod) : (modHalf k f m).position = m.position := by unfold modHalf; rfl
@[simp] theorem modHalf_masterStrap (k : Nat) (f : HalfSt → HalfSt) (m : Mod) : (modHalf k f m).masterStrap = m.masterStrap := by unfold modHalf; rfl
@[simp] theorem modHalf_role (k : Nat) (f : HalfSt → HalfSt) (m : Mod) : (modHalf k f m).role = m.role := by unfold modHalf; rfl
@[simp] theorem modHalf_upstream (k : Nat) (f : HalfSt → HalfSt) (m : Mod) : (modHalf k f m).upstream = m.upstream := by unfold modHalf; rfl
@[simp] theorem modHalf_children (k : Nat) (f : HalfSt → HalfSt) (m : Mod) : (modHalf k f m).children = m.children := by unfold modHalf; rfl
@[simp] theorem modHalf_masterDelay (k : Nat) (f : HalfSt → HalfSt) (m : Mod) : (modHalf k f m).masterDelay = m.masterDelay := by unfold modHalf; rfl
@[simp] theorem modHalf_hopDelay (k : Nat) (f : HalfSt → HalfSt) (m : Mod) : (modHalf k f m).hopDelay = m.hopDelay := by unfold modHalf; rfl
@[simp] theorem modHalf_tetherHops (k : Nat) (f : HalfSt → HalfSt) (m : Mod) : (modHalf k f m).tetherHops = m.tetherHops := by unfold modHalf; rfl
@[simp] theorem modHalf_bridleHops (k : Nat) (f : HalfSt → HalfSt) (m : Mod) : (modHalf k f m).bridleHops = m.bridleHops := by unfold modHalf; rfl
@[simp] theorem modHalf_bridleTimeout (k : Nat) (f : HalfSt → HalfSt) (m : Mod) : (modHalf k f m).bridleTimeout = m.bridleTimeout := by unfold modHalf; rfl
@[simp] theorem modHalf_bridlePart (k : Nat) (f : HalfSt → HalfSt) (m : Mod) : (modHalf k f m).bridlePart = m.bridlePart := by unfold modHalf; rfl
@[simp] theorem modHalf_bridleEnable (k : Nat) (f : HalfSt → HalfSt) (m : Mod) : (modHalf k f m).bridleEnable = m.bridleEnable := by unfold modHalf; rfl
@[simp] theorem modHalf_timeoutEvent (k : Nat) (f : HalfSt → HalfSt) (m : Mod) : (modHalf k f m).timeoutEvent = m.timeoutEvent := by unfold modHalf; rfl
@[simp] theorem modHalf_line (k : Nat) (f : HalfSt → HalfSt) (m : Mod) : (modHalf k f m).line = m.line := by unfold modHalf; rfl
@[simp] theorem modHalf_released (k : Nat) (f : HalfSt → HalfSt) (m : Mod) : (modHalf k f m).released = m.released := by unfold modHalf; rfl
@[simp] theorem modHalf_releasedAt (k : Nat) (f : HalfSt → HalfSt) (m : Mod) : (modHalf k f m).releasedAt = m.releasedAt := by unfold modHalf; rfl
@[simp] theorem modHalf_bridleDone (k : Nat) (f : HalfSt → HalfSt) (m : Mod) : (modHalf k f m).bridleDone = m.bridleDone := by unfold modHalf; rfl
@[simp] theorem modHalf_releaseDue (k : Nat) (f : HalfSt → HalfSt) (m : Mod) : (modHalf k f m).releaseDue = m.releaseDue := by unfold modHalf; rfl
@[simp] theorem modHalf_lineOn (k : Nat) (f : HalfSt → HalfSt) (m : Mod) : (modHalf k f m).lineOn = m.lineOn := by unfold modHalf; rfl
@[simp] theorem modHalf_lineLow (k : Nat) (f : HalfSt → HalfSt) (m : Mod) : (modHalf k f m).lineLow = m.lineLow := by unfold modHalf; rfl
@[simp] theorem modHalf_routeDrops (k : Nat) (f : HalfSt → HalfSt) (m : Mod) : (modHalf k f m).routeDrops = m.routeDrops := by unfold modHalf; rfl
@[simp] theorem modHalf_forwarded (k : Nat) (f : HalfSt → HalfSt) (m : Mod) : (modHalf k f m).forwarded = m.forwarded := by unfold modHalf; rfl
@[simp] theorem modHalf_fwd (k : Nat) (f : HalfSt → HalfSt) (m : Mod) : (modHalf k f m).fwd = m.fwd := by unfold modHalf; rfl
@[simp] theorem modHalf_others (k : Nat) (f : HalfSt → HalfSt) (m : Mod) : (modHalf k f m).others = m.others := by unfold modHalf; rfl
@[simp] theorem modHalf_training (k : Nat) (f : HalfSt → HalfSt) (m : Mod) : (modHalf k f m).training = m.training := by unfold modHalf; rfl
@[simp] theorem modHalf_syncing (k : Nat) (f : HalfSt → HalfSt) (m : Mod) : (modHalf k f m).syncing = m.syncing := by unfold modHalf; rfl
@[simp] theorem modHalf_alignLoaded (k : Nat) (f : HalfSt → HalfSt) (m : Mod) : (modHalf k f m).alignLoaded = m.alignLoaded := by unfold modHalf; rfl
@[simp] theorem modHalf_reports (k : Nat) (f : HalfSt → HalfSt) (m : Mod) : (modHalf k f m).reports = m.reports := by unfold modHalf; rfl
@[simp] theorem modHalf_box (k : Nat) (f : HalfSt → HalfSt) (m : Mod) : (modHalf k f m).box = m.box := by unfold modHalf; rfl
@[simp] theorem modHalf_atgen (k : Nat) (f : HalfSt → HalfSt) (m : Mod) : (modHalf k f m).atgen = m.atgen := by unfold modHalf; rfl
@[simp] theorem modHalf_power (k : Nat) (f : HalfSt → HalfSt) (m : Mod) : (modHalf k f m).power = m.power := by unfold modHalf; rfl
@[simp] theorem modHalf_halves (k : Nat) (f : HalfSt → HalfSt) (m : Mod) : (modHalf k f m).halves = mmod {} m.halves k f := by unfold modHalf; rfl
@[simp] theorem modHalf_resetTile (k : Nat) (f : HalfSt → HalfSt) (m : Mod) : (modHalf k f m).resetTile = m.resetTile := by unfold modHalf; rfl
@[simp] theorem modHalf_resetLast (k : Nat) (f : HalfSt → HalfSt) (m : Mod) : (modHalf k f m).resetLast = m.resetLast := by unfold modHalf; rfl
@[simp] theorem modHalf_bringup (k : Nat) (f : HalfSt → HalfSt) (m : Mod) : (modHalf k f m).bringup = m.bringup := by unfold modHalf; rfl
@[simp] theorem modHalf_stacksOk (k : Nat) (f : HalfSt → HalfSt) (m : Mod) : (modHalf k f m).stacksOk = m.stacksOk := by unfold modHalf; rfl
@[simp] theorem modHalf_warmResets (k : Nat) (f : HalfSt → HalfSt) (m : Mod) : (modHalf k f m).warmResets = m.warmResets := by unfold modHalf; rfl
@[simp] theorem modHalf_tileResets (k : Nat) (f : HalfSt → HalfSt) (m : Mod) : (modHalf k f m).tileResets = m.tileResets := by unfold modHalf; rfl
@[simp] theorem modHalf_sets (k : Nat) (f : HalfSt → HalfSt) (m : Mod) : (modHalf k f m).sets = m.sets := by unfold modHalf; rfl
@[simp] theorem modHalf_warmPending (k : Nat) (f : HalfSt → HalfSt) (m : Mod) : (modHalf k f m).warmPending = m.warmPending := by unfold modHalf; rfl
@[simp] theorem modHalf_stuckHigh (k : Nat) (f : HalfSt → HalfSt) (m : Mod) : (modHalf k f m).stuckHigh = m.stuckHigh := by unfold modHalf; rfl
@[simp] theorem modHalf_barrierPin (k : Nat) (f : HalfSt → HalfSt) (m : Mod) : (modHalf k f m).barrierPin = m.barrierPin := by unfold modHalf; rfl
@[simp] theorem modHalf_tickInHigh (k : Nat) (f : HalfSt → HalfSt) (m : Mod) : (modHalf k f m).tickInHigh = m.tickInHigh := by unfold modHalf; rfl
@[simp] theorem modHalf_tickOutHigh (k : Nat) (f : HalfSt → HalfSt) (m : Mod) : (modHalf k f m).tickOutHigh = m.tickOutHigh := by unfold modHalf; rfl
@[simp] theorem modHalf_haltRaw (k : Nat) (f : HalfSt → HalfSt) (m : Mod) : (modHalf k f m).haltRaw = m.haltRaw := by unfold modHalf; rfl
@[simp] theorem modHalf_resetNPin (k : Nat) (f : HalfSt → HalfSt) (m : Mod) : (modHalf k f m).resetNPin = m.resetNPin := by unfold modHalf; rfl
@[simp] theorem modHalf_heldAtRails (k : Nat) (f : HalfSt → HalfSt) (m : Mod) : (modHalf k f m).heldAtRails = m.heldAtRails := by unfold modHalf; rfl
@[simp] theorem modHalf_powered (k : Nat) (f : HalfSt → HalfSt) (m : Mod) : (modHalf k f m).powered = m.powered := by unfold modHalf; rfl
@[simp] theorem modHalf_lasts (k : Nat) (f : HalfSt → HalfSt) (m : Mod) : (modHalf k f m).lasts = m.lasts := by unfold modHalf; rfl
@[simp] theorem modHalf_msums (k : Nat) (f : HalfSt → HalfSt) (m : Mod) : (modHalf k f m).msums = m.msums := by unfold modHalf; rfl
@[simp] theorem modHalf_events (k : Nat) (f : HalfSt → HalfSt) (m : Mod) : (modHalf k f m).events = m.events := by unfold modHalf; rfl
@[simp] theorem modHalf_passRunning (k : Nat) (f : HalfSt → HalfSt) (m : Mod) : (modHalf k f m).passRunning = m.passRunning := by unfold modHalf; rfl
@[simp] theorem modHalf_passStart (k : Nat) (f : HalfSt → HalfSt) (m : Mod) : (modHalf k f m).passStart = m.passStart := by unfold modHalf; rfl
@[simp] theorem modHalf_passVals (k : Nat) (f : HalfSt → HalfSt) (m : Mod) : (modHalf k f m).passVals = m.passVals := by unfold modHalf; rfl
@[simp] theorem modHalf_passEvents (k : Nat) (f : HalfSt → HalfSt) (m : Mod) : (modHalf k f m).passEvents = m.passEvents := by unfold modHalf; rfl
@[simp] theorem modHalf_free (k : Nat) (f : HalfSt → HalfSt) (m : Mod) : (modHalf k f m).free = m.free := by unfold modHalf; rfl
@[simp] theorem modHalf_out (k : Nat) (f : HalfSt → HalfSt) (m : Mod) : (modHalf k f m).out = m.out := by unfold modHalf; rfl
theorem halfSt_modHalf (k j : Nat) (f : HalfSt → HalfSt) (m : Mod) : halfSt (modHalf k f m) j = if k = j then f (halfSt m k) else halfSt m j :=
  mget_mmod ({} : HalfSt) k j f m.halves
@[simp] theorem halfSt_modHalf_self (k : Nat) (f : HalfSt → HalfSt) (m : Mod) : halfSt (modHalf k f m) k = f (halfSt m k) := by simp [halfSt_modHalf]
@[simp] theorem tileOf_modHalf (k j : Nat) (f : HalfSt → HalfSt) (m : Mod) : tileOf (modHalf k f m) j = tileOf m j := by unfold modHalf; rfl
@[simp] theorem partOf_modHalf (k j : Nat) (f : HalfSt → HalfSt) (m : Mod) : partOf (modHalf k f m) j = partOf m j := by unfold modHalf; rfl
@[simp] theorem portOf_modHalf (k j : Nat) (f : HalfSt → HalfSt) (m : Mod) : portOf (modHalf k f m) j = portOf m j := by unfold modHalf; rfl
@[simp] theorem engineOf_modHalf (k j : Nat) (f : HalfSt → HalfSt) (m : Mod) : engineOf (modHalf k f m) j = engineOf m j := by unfold modHalf; rfl
@[simp] theorem epOf_modHalf (k j : Nat) (f : HalfSt → HalfSt) (m : Mod) : epOf (modHalf k f m) j = epOf m j := by unfold modHalf; rfl
@[simp] theorem barOf_modHalf (k j : Nat) (f : HalfSt → HalfSt) (m : Mod) : barOf (modHalf k f m) j = barOf m j := by unfold modHalf; rfl
@[simp] theorem pageOf_modHalf (k j : Nat) (f : HalfSt → HalfSt) (m : Mod) : pageOf (modHalf k f m) j = pageOf m j := by unfold modHalf; rfl
@[simp] theorem stackOf_modHalf (k j : Nat) (f : HalfSt → HalfSt) (m : Mod) : stackOf (modHalf k f m) j = stackOf m j := by unfold modHalf; rfl
@[simp] theorem shardOf_modHalf (k j : Nat) (f : HalfSt → HalfSt) (m : Mod) : shardOf (modHalf k f m) j = shardOf m j := by unfold modHalf; rfl

/-! ## modTd -/

@[simp] theorem modTd_native (k : Nat) (f : TileData → TileData) (m : Mod) : (modTd k f m).native = m.native := by unfold modTd modTile; rfl
@[simp] theorem modTd_now (k : Nat) (f : TileData → TileData) (m : Mod) : (modTd k f m).now = m.now := by unfold modTd modTile; rfl
@[simp] theorem modTd_lost (k : Nat) (f : TileData → TileData) (m : Mod) : (modTd k f m).lost = m.lost := by unfold modTd modTile; rfl
@[simp] theorem modTd_tick (k : Nat) (f : TileData → TileData) (m : Mod) : (modTd k f m).tick = m.tick := by unfold modTd modTile; rfl
@[simp] theorem modTd_phase (k : Nat) (f : TileData → TileData) (m : Mod) : (modTd k f m).phase = m.phase := by unfold modTd modTile; rfl
@[simp] theorem modTd_holdTicks (k : Nat) (f : TileData → TileData) (m : Mod) : (modTd k f m).holdTicks = m.holdTicks := by unfold modTd modTile; rfl
@[simp] theorem modTd_holdFrom (k : Nat) (f : TileData → TileData) (m : Mod) : (modTd k f m).holdFrom = m.holdFrom := by unfold modTd modTile; rfl
@[simp] theorem modTd_source (k : Nat) (f : TileData → TileData) (m : Mod) : (modTd k f m).source = m.source := by unfold modTd modTile; rfl
@[simp] theorem modTd_lock (k : Nat) (f : TileData → TileData) (m : Mod) : (modTd k f m).lock = m.lock := by unfold modTd modTile; rfl
@[simp] theorem modTd_phaseEvent (k : Nat) (f : TileData → TileData) (m : Mod) : (modTd k f m).phaseEvent = m.phaseEvent := by unfold modTd modTile; rfl
@[simp] theorem modTd_expiredEvent (k : Nat) (f : TileData → TileData) (m : Mod) : (modTd k f m).expiredEvent = m.expiredEvent := by unfold modTd modTile; rfl
@[simp] theorem modTd_lostEvent (k : Nat) (f : TileData → TileData) (m : Mod) : (modTd k f m).lostEvent = m.lostEvent := by unfold modTd modTile; rfl
@[simp] theorem modTd_chatter (k : Nat) (f : TileData → TileData) (m : Mod) : (modTd k f m).chatter = m.chatter := by unfold modTd modTile; rfl
@[simp] theorem modTd_phaseErr (k : Nat) (f : TileData → TileData) (m : Mod) : (modTd k f m).phaseErr = m.phaseErr := by unfold modTd modTile; rfl
@[simp] theorem modTd_loss (k : Nat) (f : TileData → TileData) (m : Mod) : (modTd k f m).loss = m.loss := by unfold modTd modTile; rfl
@[simp] theorem modTd_lastEdge (k : Nat) (f : TileData → TileData) (m : Mod) : (modTd k f m).lastEdge = m.lastEdge := by unfold modTd modTile; rfl
@[simp] theorem modTd_expiryFaulted (k : Nat) (f : TileData → TileData) (m : Mod) : (modTd k f m).expiryFaulted = m.expiryFaulted := by unfold modTd modTile; rfl
@[simp] theorem modTd_parts (k : Nat) (f : TileData → TileData) (m : Mod) : (modTd k f m).parts = m.parts := by unfold modTd modTile; rfl
@[simp] theorem modTd_ports (k : Nat) (f : TileData → TileData) (m : Mod) : (modTd k f m).ports = m.ports := by unfold modTd modTile; rfl
@[simp] theorem modTd_engines (k : Nat) (f : TileData → TileData) (m : Mod) : (modTd k f m).engines = m.engines := by unfold modTd modTile; rfl
@[simp] theorem modTd_contribs (k : Nat) (f : TileData → TileData) (m : Mod) : (modTd k f m).contribs = m.contribs := by unfold modTd modTile; rfl
@[simp] theorem modTd_chainBlks (k : Nat) (f : TileData → TileData) (m : Mod) : (modTd k f m).chainBlks = m.chainBlks := by unfold modTd modTile; rfl
@[simp] theorem modTd_pool (k : Nat) (f : TileData → TileData) (m : Mod) : (modTd k f m).pool = m.pool := by unfold modTd modTile; rfl
@[simp] theorem modTd_cgroups (k : Nat) (f : TileData → TileData) (m : Mod) : (modTd k f m).cgroups = m.cgroups := by unfold modTd modTile; rfl
@[simp] theorem modTd_bars (k : Nat) (f : TileData → TileData) (m : Mod) : (modTd k f m).bars = m.bars := by unfold modTd modTile; rfl
@[simp] theorem modTd_flight (k : Nat) (f : TileData → TileData) (m : Mod) : (modTd k f m).flight = m.flight := by unfold modTd modTile; rfl
@[simp] theorem modTd_stopped (k : Nat) (f : TileData → TileData) (m : Mod) : (modTd k f m).stopped = m.stopped := by unfold modTd modTile; rfl
@[simp] theorem modTd_dir (k : Nat) (f : TileData → TileData) (m : Mod) : (modTd k f m).dir = m.dir := by unfold modTd modTile; rfl
@[simp] theorem modTd_dram (k : Nat) (f : TileData → TileData) (m : Mod) : (modTd k f m).dram = m.dram := by unfold modTd modTile; rfl
@[simp] theorem modTd_ecc (k : Nat) (f : TileData → TileData) (m : Mod) : (modTd k f m).ecc = m.ecc := by unfold modTd modTile; rfl
@[simp] theorem modTd_fills (k : Nat) (f : TileData → TileData) (m : Mod) : (modTd k f m).fills = m.fills := by unfold modTd modTile; rfl
@[simp] theorem modTd_moves (k : Nat) (f : TileData → TileData) (m : Mod) : (modTd k f m).moves = m.moves := by unfold modTd modTile; rfl
@[simp] theorem modTd_mvGroups (k : Nat) (f : TileData → TileData) (m : Mod) : (modTd k f m).mvGroups = m.mvGroups := by unfold modTd modTile; rfl
@[simp] theorem modTd_groupNo (k : Nat) (f : TileData → TileData) (m : Mod) : (modTd k f m).groupNo = m.groupNo := by unfold modTd modTile; rfl
@[simp] theorem modTd_relFrames (k : Nat) (f : TileData → TileData) (m : Mod) : (modTd k f m).relFrames = m.relFrames := by unfold modTd modTile; rfl
@[simp] theorem modTd_pagesDone (k : Nat) (f : TileData → TileData) (m : Mod) : (modTd k f m).pagesDone = m.pagesDone := by unfold modTd modTile; rfl
@[simp] theorem modTd_stk (k : Nat) (f : TileData → TileData) (m : Mod) : (modTd k f m).stk = m.stk := by unfold modTd modTile; rfl
@[simp] theorem modTd_shards (k : Nat) (f : TileData → TileData) (m : Mod) : (modTd k f m).shards = m.shards := by unfold modTd modTile; rfl
@[simp] theorem modTd_dwins (k : Nat) (f : TileData → TileData) (m : Mod) : (modTd k f m).dwins = m.dwins := by unfold modTd modTile; rfl
@[simp] theorem modTd_winDenied (k : Nat) (f : TileData → TileData) (m : Mod) : (modTd k f m).winDenied = m.winDenied := by unfold modTd modTile; rfl
@[simp] theorem modTd_moduleNum (k : Nat) (f : TileData → TileData) (m : Mod) : (modTd k f m).moduleNum = m.moduleNum := by unfold modTd modTile; rfl
@[simp] theorem modTd_position (k : Nat) (f : TileData → TileData) (m : Mod) : (modTd k f m).position = m.position := by unfold modTd modTile; rfl
@[simp] theorem modTd_masterStrap (k : Nat) (f : TileData → TileData) (m : Mod) : (modTd k f m).masterStrap = m.masterStrap := by unfold modTd modTile; rfl
@[simp] theorem modTd_role (k : Nat) (f : TileData → TileData) (m : Mod) : (modTd k f m).role = m.role := by unfold modTd modTile; rfl
@[simp] theorem modTd_upstream (k : Nat) (f : TileData → TileData) (m : Mod) : (modTd k f m).upstream = m.upstream := by unfold modTd modTile; rfl
@[simp] theorem modTd_children (k : Nat) (f : TileData → TileData) (m : Mod) : (modTd k f m).children = m.children := by unfold modTd modTile; rfl
@[simp] theorem modTd_masterDelay (k : Nat) (f : TileData → TileData) (m : Mod) : (modTd k f m).masterDelay = m.masterDelay := by unfold modTd modTile; rfl
@[simp] theorem modTd_hopDelay (k : Nat) (f : TileData → TileData) (m : Mod) : (modTd k f m).hopDelay = m.hopDelay := by unfold modTd modTile; rfl
@[simp] theorem modTd_tetherHops (k : Nat) (f : TileData → TileData) (m : Mod) : (modTd k f m).tetherHops = m.tetherHops := by unfold modTd modTile; rfl
@[simp] theorem modTd_bridleHops (k : Nat) (f : TileData → TileData) (m : Mod) : (modTd k f m).bridleHops = m.bridleHops := by unfold modTd modTile; rfl
@[simp] theorem modTd_bridleTimeout (k : Nat) (f : TileData → TileData) (m : Mod) : (modTd k f m).bridleTimeout = m.bridleTimeout := by unfold modTd modTile; rfl
@[simp] theorem modTd_bridlePart (k : Nat) (f : TileData → TileData) (m : Mod) : (modTd k f m).bridlePart = m.bridlePart := by unfold modTd modTile; rfl
@[simp] theorem modTd_bridleEnable (k : Nat) (f : TileData → TileData) (m : Mod) : (modTd k f m).bridleEnable = m.bridleEnable := by unfold modTd modTile; rfl
@[simp] theorem modTd_timeoutEvent (k : Nat) (f : TileData → TileData) (m : Mod) : (modTd k f m).timeoutEvent = m.timeoutEvent := by unfold modTd modTile; rfl
@[simp] theorem modTd_line (k : Nat) (f : TileData → TileData) (m : Mod) : (modTd k f m).line = m.line := by unfold modTd modTile; rfl
@[simp] theorem modTd_released (k : Nat) (f : TileData → TileData) (m : Mod) : (modTd k f m).released = m.released := by unfold modTd modTile; rfl
@[simp] theorem modTd_releasedAt (k : Nat) (f : TileData → TileData) (m : Mod) : (modTd k f m).releasedAt = m.releasedAt := by unfold modTd modTile; rfl
@[simp] theorem modTd_bridleDone (k : Nat) (f : TileData → TileData) (m : Mod) : (modTd k f m).bridleDone = m.bridleDone := by unfold modTd modTile; rfl
@[simp] theorem modTd_releaseDue (k : Nat) (f : TileData → TileData) (m : Mod) : (modTd k f m).releaseDue = m.releaseDue := by unfold modTd modTile; rfl
@[simp] theorem modTd_lineOn (k : Nat) (f : TileData → TileData) (m : Mod) : (modTd k f m).lineOn = m.lineOn := by unfold modTd modTile; rfl
@[simp] theorem modTd_lineLow (k : Nat) (f : TileData → TileData) (m : Mod) : (modTd k f m).lineLow = m.lineLow := by unfold modTd modTile; rfl
@[simp] theorem modTd_routeDrops (k : Nat) (f : TileData → TileData) (m : Mod) : (modTd k f m).routeDrops = m.routeDrops := by unfold modTd modTile; rfl
@[simp] theorem modTd_forwarded (k : Nat) (f : TileData → TileData) (m : Mod) : (modTd k f m).forwarded = m.forwarded := by unfold modTd modTile; rfl
@[simp] theorem modTd_fwd (k : Nat) (f : TileData → TileData) (m : Mod) : (modTd k f m).fwd = m.fwd := by unfold modTd modTile; rfl
@[simp] theorem modTd_others (k : Nat) (f : TileData → TileData) (m : Mod) : (modTd k f m).others = m.others := by unfold modTd modTile; rfl
@[simp] theorem modTd_training (k : Nat) (f : TileData → TileData) (m : Mod) : (modTd k f m).training = m.training := by unfold modTd modTile; rfl
@[simp] theorem modTd_syncing (k : Nat) (f : TileData → TileData) (m : Mod) : (modTd k f m).syncing = m.syncing := by unfold modTd modTile; rfl
@[simp] theorem modTd_alignLoaded (k : Nat) (f : TileData → TileData) (m : Mod) : (modTd k f m).alignLoaded = m.alignLoaded := by unfold modTd modTile; rfl
@[simp] theorem modTd_reports (k : Nat) (f : TileData → TileData) (m : Mod) : (modTd k f m).reports = m.reports := by unfold modTd modTile; rfl
@[simp] theorem modTd_box (k : Nat) (f : TileData → TileData) (m : Mod) : (modTd k f m).box = m.box := by unfold modTd modTile; rfl
@[simp] theorem modTd_atgen (k : Nat) (f : TileData → TileData) (m : Mod) : (modTd k f m).atgen = m.atgen := by unfold modTd modTile; rfl
@[simp] theorem modTd_power (k : Nat) (f : TileData → TileData) (m : Mod) : (modTd k f m).power = m.power := by unfold modTd modTile; rfl
@[simp] theorem modTd_halves (k : Nat) (f : TileData → TileData) (m : Mod) : (modTd k f m).halves = m.halves := by unfold modTd modTile; rfl
@[simp] theorem modTd_resetTile (k : Nat) (f : TileData → TileData) (m : Mod) : (modTd k f m).resetTile = m.resetTile := by unfold modTd modTile; rfl
@[simp] theorem modTd_resetLast (k : Nat) (f : TileData → TileData) (m : Mod) : (modTd k f m).resetLast = m.resetLast := by unfold modTd modTile; rfl
@[simp] theorem modTd_bringup (k : Nat) (f : TileData → TileData) (m : Mod) : (modTd k f m).bringup = m.bringup := by unfold modTd modTile; rfl
@[simp] theorem modTd_stacksOk (k : Nat) (f : TileData → TileData) (m : Mod) : (modTd k f m).stacksOk = m.stacksOk := by unfold modTd modTile; rfl
@[simp] theorem modTd_warmResets (k : Nat) (f : TileData → TileData) (m : Mod) : (modTd k f m).warmResets = m.warmResets := by unfold modTd modTile; rfl
@[simp] theorem modTd_tileResets (k : Nat) (f : TileData → TileData) (m : Mod) : (modTd k f m).tileResets = m.tileResets := by unfold modTd modTile; rfl
@[simp] theorem modTd_sets (k : Nat) (f : TileData → TileData) (m : Mod) : (modTd k f m).sets = m.sets := by unfold modTd modTile; rfl
@[simp] theorem modTd_warmPending (k : Nat) (f : TileData → TileData) (m : Mod) : (modTd k f m).warmPending = m.warmPending := by unfold modTd modTile; rfl
@[simp] theorem modTd_stuckHigh (k : Nat) (f : TileData → TileData) (m : Mod) : (modTd k f m).stuckHigh = m.stuckHigh := by unfold modTd modTile; rfl
@[simp] theorem modTd_barrierPin (k : Nat) (f : TileData → TileData) (m : Mod) : (modTd k f m).barrierPin = m.barrierPin := by unfold modTd modTile; rfl
@[simp] theorem modTd_tickInHigh (k : Nat) (f : TileData → TileData) (m : Mod) : (modTd k f m).tickInHigh = m.tickInHigh := by unfold modTd modTile; rfl
@[simp] theorem modTd_tickOutHigh (k : Nat) (f : TileData → TileData) (m : Mod) : (modTd k f m).tickOutHigh = m.tickOutHigh := by unfold modTd modTile; rfl
@[simp] theorem modTd_haltRaw (k : Nat) (f : TileData → TileData) (m : Mod) : (modTd k f m).haltRaw = m.haltRaw := by unfold modTd modTile; rfl
@[simp] theorem modTd_resetNPin (k : Nat) (f : TileData → TileData) (m : Mod) : (modTd k f m).resetNPin = m.resetNPin := by unfold modTd modTile; rfl
@[simp] theorem modTd_heldAtRails (k : Nat) (f : TileData → TileData) (m : Mod) : (modTd k f m).heldAtRails = m.heldAtRails := by unfold modTd modTile; rfl
@[simp] theorem modTd_powered (k : Nat) (f : TileData → TileData) (m : Mod) : (modTd k f m).powered = m.powered := by unfold modTd modTile; rfl
@[simp] theorem modTd_lasts (k : Nat) (f : TileData → TileData) (m : Mod) : (modTd k f m).lasts = m.lasts := by unfold modTd modTile; rfl
@[simp] theorem modTd_msums (k : Nat) (f : TileData → TileData) (m : Mod) : (modTd k f m).msums = m.msums := by unfold modTd modTile; rfl
@[simp] theorem modTd_events (k : Nat) (f : TileData → TileData) (m : Mod) : (modTd k f m).events = m.events := by unfold modTd modTile; rfl
@[simp] theorem modTd_passRunning (k : Nat) (f : TileData → TileData) (m : Mod) : (modTd k f m).passRunning = m.passRunning := by unfold modTd modTile; rfl
@[simp] theorem modTd_passStart (k : Nat) (f : TileData → TileData) (m : Mod) : (modTd k f m).passStart = m.passStart := by unfold modTd modTile; rfl
@[simp] theorem modTd_passVals (k : Nat) (f : TileData → TileData) (m : Mod) : (modTd k f m).passVals = m.passVals := by unfold modTd modTile; rfl
@[simp] theorem modTd_passEvents (k : Nat) (f : TileData → TileData) (m : Mod) : (modTd k f m).passEvents = m.passEvents := by unfold modTd modTile; rfl
@[simp] theorem modTd_free (k : Nat) (f : TileData → TileData) (m : Mod) : (modTd k f m).free = m.free := by unfold modTd modTile; rfl
@[simp] theorem modTd_out (k : Nat) (f : TileData → TileData) (m : Mod) : (modTd k f m).out = m.out := by unfold modTd modTile; rfl
theorem tdOf_modTile (k j : Nat) (f : Tile → Tile) (m : Mod) : tdOf (modTile k f m) j = if k = j then (f (tileOf m k)).d else tdOf m j := by
  unfold tdOf; rw [tileOf_modTile]; split <;> rfl
@[simp] theorem tdOf_modTile_self (k : Nat) (f : Tile → Tile) (m : Mod) : tdOf (modTile k f m) k = (f (tileOf m k)).d := by
  simp [tdOf_modTile]
theorem tdOf_modTd (k j : Nat) (f : TileData → TileData) (m : Mod) : tdOf (modTd k f m) j = if k = j then f (tdOf m k) else tdOf m j := by
  unfold modTd; rw [tdOf_modTile]; rfl
@[simp] theorem tdOf_modTd_self (k : Nat) (f : TileData → TileData) (m : Mod) : tdOf (modTd k f m) k = f (tdOf m k) := by simp [tdOf_modTd]
theorem tileOf_modTd (k j : Nat) (f : TileData → TileData) (m : Mod) :
    tileOf (modTd k f m) j = if k = j then
      { d := f (tdOf m k), bundle := (tileOf m k).bundle.map (fun b => { b with base := f b.base }) } else tileOf m j := tileOf_modTile k j _ m
@[simp] theorem tdOf_modPart (k j : Nat) (f : Part → Part) (m : Mod) : tdOf (modPart k f m) j = tdOf m j := by unfold modPart; rfl
@[simp] theorem partOf_modTd (k j : Nat) (f : TileData → TileData) (m : Mod) : partOf (modTd k f m) j = partOf m j := by unfold modTd modTile; rfl
@[simp] theorem tdOf_modPort (k j : Nat) (f : Port → Port) (m : Mod) : tdOf (modPort k f m) j = tdOf m j := by unfold modPort; rfl
@[simp] theorem portOf_modTd (k j : Nat) (f : TileData → TileData) (m : Mod) : portOf (modTd k f m) j = portOf m j := by unfold modTd modTile; rfl
@[simp] theorem tdOf_modEngine (k j : Nat) (f : Engine → Engine) (m : Mod) : tdOf (modEngine k f m) j = tdOf m j := by unfold modEngine; rfl
@[simp] theorem engineOf_modTd (k j : Nat) (f : TileData → TileData) (m : Mod) : engineOf (modTd k f m) j = engineOf m j := by unfold modTd modTile; rfl
@[simp] theorem tdOf_modEp (k j : Nat) (f : Ep → Ep) (m : Mod) : tdOf (modEp k f m) j = tdOf m j := by unfold modEp; rfl
@[simp] theorem epOf_modTd (k j : Nat) (f : TileData → TileData) (m : Mod) : epOf (modTd k f m) j = epOf m j := by unfold modTd modTile; rfl
@[simp] theorem tdOf_modBar (k j : Nat) (f : Bar → Bar) (m : Mod) : tdOf (modBar k f m) j = tdOf m j := by unfold modBar; rfl
@[simp] theorem barOf_modTd (k j : Nat) (f : TileData → TileData) (m : Mod) : barOf (modTd k f m) j = barOf m j := by unfold modTd modTile; rfl
@[simp] theorem tdOf_modPage (k j : Nat) (f : Page → Page) (m : Mod) : tdOf (modPage k f m) j = tdOf m j := by unfold modPage; rfl
@[simp] theorem pageOf_modTd (k j : Nat) (f : TileData → TileData) (m : Mod) : pageOf (modTd k f m) j = pageOf m j := by unfold modTd modTile; rfl
@[simp] theorem tdOf_modStack (k j : Nat) (f : Stack → Stack) (m : Mod) : tdOf (modStack k f m) j = tdOf m j := by unfold modStack; rfl
@[simp] theorem stackOf_modTd (k j : Nat) (f : TileData → TileData) (m : Mod) : stackOf (modTd k f m) j = stackOf m j := by unfold modTd modTile; rfl
@[simp] theorem tdOf_modShard (k j : Nat) (f : Shard → Shard) (m : Mod) : tdOf (modShard k f m) j = tdOf m j := by unfold modShard; rfl
@[simp] theorem shardOf_modTd (k j : Nat) (f : TileData → TileData) (m : Mod) : shardOf (modTd k f m) j = shardOf m j := by unfold modTd modTile; rfl
@[simp] theorem tdOf_modHalf (k j : Nat) (f : HalfSt → HalfSt) (m : Mod) : tdOf (modHalf k f m) j = tdOf m j := by unfold modHalf; rfl
@[simp] theorem halfSt_modTd (k j : Nat) (f : TileData → TileData) (m : Mod) : halfSt (modTd k f m) j = halfSt m j := by unfold modTd modTile; rfl

/-! ## emit, takeFree and noteSet -/

@[simp] theorem emit_native (o : Out) (m : Mod) : (emit o m).native = m.native := by unfold emit; rfl
@[simp] theorem emit_now (o : Out) (m : Mod) : (emit o m).now = m.now := by unfold emit; rfl
@[simp] theorem emit_lost (o : Out) (m : Mod) : (emit o m).lost = m.lost := by unfold emit; rfl
@[simp] theorem emit_tick (o : Out) (m : Mod) : (emit o m).tick = m.tick := by unfold emit; rfl
@[simp] theorem emit_phase (o : Out) (m : Mod) : (emit o m).phase = m.phase := by unfold emit; rfl
@[simp] theorem emit_holdTicks (o : Out) (m : Mod) : (emit o m).holdTicks = m.holdTicks := by unfold emit; rfl
@[simp] theorem emit_holdFrom (o : Out) (m : Mod) : (emit o m).holdFrom = m.holdFrom := by unfold emit; rfl
@[simp] theorem emit_source (o : Out) (m : Mod) : (emit o m).source = m.source := by unfold emit; rfl
@[simp] theorem emit_lock (o : Out) (m : Mod) : (emit o m).lock = m.lock := by unfold emit; rfl
@[simp] theorem emit_phaseEvent (o : Out) (m : Mod) : (emit o m).phaseEvent = m.phaseEvent := by unfold emit; rfl
@[simp] theorem emit_expiredEvent (o : Out) (m : Mod) : (emit o m).expiredEvent = m.expiredEvent := by unfold emit; rfl
@[simp] theorem emit_lostEvent (o : Out) (m : Mod) : (emit o m).lostEvent = m.lostEvent := by unfold emit; rfl
@[simp] theorem emit_chatter (o : Out) (m : Mod) : (emit o m).chatter = m.chatter := by unfold emit; rfl
@[simp] theorem emit_phaseErr (o : Out) (m : Mod) : (emit o m).phaseErr = m.phaseErr := by unfold emit; rfl
@[simp] theorem emit_loss (o : Out) (m : Mod) : (emit o m).loss = m.loss := by unfold emit; rfl
@[simp] theorem emit_lastEdge (o : Out) (m : Mod) : (emit o m).lastEdge = m.lastEdge := by unfold emit; rfl
@[simp] theorem emit_expiryFaulted (o : Out) (m : Mod) : (emit o m).expiryFaulted = m.expiryFaulted := by unfold emit; rfl
@[simp] theorem emit_tiles (o : Out) (m : Mod) : (emit o m).tiles = m.tiles := by unfold emit; rfl
@[simp] theorem emit_parts (o : Out) (m : Mod) : (emit o m).parts = m.parts := by unfold emit; rfl
@[simp] theorem emit_ports (o : Out) (m : Mod) : (emit o m).ports = m.ports := by unfold emit; rfl
@[simp] theorem emit_engines (o : Out) (m : Mod) : (emit o m).engines = m.engines := by unfold emit; rfl
@[simp] theorem emit_contribs (o : Out) (m : Mod) : (emit o m).contribs = m.contribs := by unfold emit; rfl
@[simp] theorem emit_chainBlks (o : Out) (m : Mod) : (emit o m).chainBlks = m.chainBlks := by unfold emit; rfl
@[simp] theorem emit_pool (o : Out) (m : Mod) : (emit o m).pool = m.pool := by unfold emit; rfl
@[simp] theorem emit_cgroups (o : Out) (m : Mod) : (emit o m).cgroups = m.cgroups := by unfold emit; rfl
@[simp] theorem emit_bars (o : Out) (m : Mod) : (emit o m).bars = m.bars := by unfold emit; rfl
@[simp] theorem emit_flight (o : Out) (m : Mod) : (emit o m).flight = m.flight := by unfold emit; rfl
@[simp] theorem emit_stopped (o : Out) (m : Mod) : (emit o m).stopped = m.stopped := by unfold emit; rfl
@[simp] theorem emit_dir (o : Out) (m : Mod) : (emit o m).dir = m.dir := by unfold emit; rfl
@[simp] theorem emit_dram (o : Out) (m : Mod) : (emit o m).dram = m.dram := by unfold emit; rfl
@[simp] theorem emit_ecc (o : Out) (m : Mod) : (emit o m).ecc = m.ecc := by unfold emit; rfl
@[simp] theorem emit_fills (o : Out) (m : Mod) : (emit o m).fills = m.fills := by unfold emit; rfl
@[simp] theorem emit_moves (o : Out) (m : Mod) : (emit o m).moves = m.moves := by unfold emit; rfl
@[simp] theorem emit_mvGroups (o : Out) (m : Mod) : (emit o m).mvGroups = m.mvGroups := by unfold emit; rfl
@[simp] theorem emit_groupNo (o : Out) (m : Mod) : (emit o m).groupNo = m.groupNo := by unfold emit; rfl
@[simp] theorem emit_relFrames (o : Out) (m : Mod) : (emit o m).relFrames = m.relFrames := by unfold emit; rfl
@[simp] theorem emit_pagesDone (o : Out) (m : Mod) : (emit o m).pagesDone = m.pagesDone := by unfold emit; rfl
@[simp] theorem emit_stk (o : Out) (m : Mod) : (emit o m).stk = m.stk := by unfold emit; rfl
@[simp] theorem emit_shards (o : Out) (m : Mod) : (emit o m).shards = m.shards := by unfold emit; rfl
@[simp] theorem emit_dwins (o : Out) (m : Mod) : (emit o m).dwins = m.dwins := by unfold emit; rfl
@[simp] theorem emit_winDenied (o : Out) (m : Mod) : (emit o m).winDenied = m.winDenied := by unfold emit; rfl
@[simp] theorem emit_moduleNum (o : Out) (m : Mod) : (emit o m).moduleNum = m.moduleNum := by unfold emit; rfl
@[simp] theorem emit_position (o : Out) (m : Mod) : (emit o m).position = m.position := by unfold emit; rfl
@[simp] theorem emit_masterStrap (o : Out) (m : Mod) : (emit o m).masterStrap = m.masterStrap := by unfold emit; rfl
@[simp] theorem emit_role (o : Out) (m : Mod) : (emit o m).role = m.role := by unfold emit; rfl
@[simp] theorem emit_upstream (o : Out) (m : Mod) : (emit o m).upstream = m.upstream := by unfold emit; rfl
@[simp] theorem emit_children (o : Out) (m : Mod) : (emit o m).children = m.children := by unfold emit; rfl
@[simp] theorem emit_masterDelay (o : Out) (m : Mod) : (emit o m).masterDelay = m.masterDelay := by unfold emit; rfl
@[simp] theorem emit_hopDelay (o : Out) (m : Mod) : (emit o m).hopDelay = m.hopDelay := by unfold emit; rfl
@[simp] theorem emit_tetherHops (o : Out) (m : Mod) : (emit o m).tetherHops = m.tetherHops := by unfold emit; rfl
@[simp] theorem emit_bridleHops (o : Out) (m : Mod) : (emit o m).bridleHops = m.bridleHops := by unfold emit; rfl
@[simp] theorem emit_bridleTimeout (o : Out) (m : Mod) : (emit o m).bridleTimeout = m.bridleTimeout := by unfold emit; rfl
@[simp] theorem emit_bridlePart (o : Out) (m : Mod) : (emit o m).bridlePart = m.bridlePart := by unfold emit; rfl
@[simp] theorem emit_bridleEnable (o : Out) (m : Mod) : (emit o m).bridleEnable = m.bridleEnable := by unfold emit; rfl
@[simp] theorem emit_timeoutEvent (o : Out) (m : Mod) : (emit o m).timeoutEvent = m.timeoutEvent := by unfold emit; rfl
@[simp] theorem emit_line (o : Out) (m : Mod) : (emit o m).line = m.line := by unfold emit; rfl
@[simp] theorem emit_released (o : Out) (m : Mod) : (emit o m).released = m.released := by unfold emit; rfl
@[simp] theorem emit_releasedAt (o : Out) (m : Mod) : (emit o m).releasedAt = m.releasedAt := by unfold emit; rfl
@[simp] theorem emit_bridleDone (o : Out) (m : Mod) : (emit o m).bridleDone = m.bridleDone := by unfold emit; rfl
@[simp] theorem emit_releaseDue (o : Out) (m : Mod) : (emit o m).releaseDue = m.releaseDue := by unfold emit; rfl
@[simp] theorem emit_lineOn (o : Out) (m : Mod) : (emit o m).lineOn = m.lineOn := by unfold emit; rfl
@[simp] theorem emit_lineLow (o : Out) (m : Mod) : (emit o m).lineLow = m.lineLow := by unfold emit; rfl
@[simp] theorem emit_routeDrops (o : Out) (m : Mod) : (emit o m).routeDrops = m.routeDrops := by unfold emit; rfl
@[simp] theorem emit_forwarded (o : Out) (m : Mod) : (emit o m).forwarded = m.forwarded := by unfold emit; rfl
@[simp] theorem emit_fwd (o : Out) (m : Mod) : (emit o m).fwd = m.fwd := by unfold emit; rfl
@[simp] theorem emit_others (o : Out) (m : Mod) : (emit o m).others = m.others := by unfold emit; rfl
@[simp] theorem emit_training (o : Out) (m : Mod) : (emit o m).training = m.training := by unfold emit; rfl
@[simp] theorem emit_syncing (o : Out) (m : Mod) : (emit o m).syncing = m.syncing := by unfold emit; rfl
@[simp] theorem emit_alignLoaded (o : Out) (m : Mod) : (emit o m).alignLoaded = m.alignLoaded := by unfold emit; rfl
@[simp] theorem emit_reports (o : Out) (m : Mod) : (emit o m).reports = m.reports := by unfold emit; rfl
@[simp] theorem emit_box (o : Out) (m : Mod) : (emit o m).box = m.box := by unfold emit; rfl
@[simp] theorem emit_atgen (o : Out) (m : Mod) : (emit o m).atgen = m.atgen := by unfold emit; rfl
@[simp] theorem emit_power (o : Out) (m : Mod) : (emit o m).power = m.power := by unfold emit; rfl
@[simp] theorem emit_halves (o : Out) (m : Mod) : (emit o m).halves = m.halves := by unfold emit; rfl
@[simp] theorem emit_resetTile (o : Out) (m : Mod) : (emit o m).resetTile = m.resetTile := by unfold emit; rfl
@[simp] theorem emit_resetLast (o : Out) (m : Mod) : (emit o m).resetLast = m.resetLast := by unfold emit; rfl
@[simp] theorem emit_bringup (o : Out) (m : Mod) : (emit o m).bringup = m.bringup := by unfold emit; rfl
@[simp] theorem emit_stacksOk (o : Out) (m : Mod) : (emit o m).stacksOk = m.stacksOk := by unfold emit; rfl
@[simp] theorem emit_warmResets (o : Out) (m : Mod) : (emit o m).warmResets = m.warmResets := by unfold emit; rfl
@[simp] theorem emit_tileResets (o : Out) (m : Mod) : (emit o m).tileResets = m.tileResets := by unfold emit; rfl
@[simp] theorem emit_sets (o : Out) (m : Mod) : (emit o m).sets = m.sets := by unfold emit; rfl
@[simp] theorem emit_warmPending (o : Out) (m : Mod) : (emit o m).warmPending = m.warmPending := by unfold emit; rfl
@[simp] theorem emit_stuckHigh (o : Out) (m : Mod) : (emit o m).stuckHigh = m.stuckHigh := by unfold emit; rfl
@[simp] theorem emit_barrierPin (o : Out) (m : Mod) : (emit o m).barrierPin = m.barrierPin := by unfold emit; rfl
@[simp] theorem emit_tickInHigh (o : Out) (m : Mod) : (emit o m).tickInHigh = m.tickInHigh := by unfold emit; rfl
@[simp] theorem emit_tickOutHigh (o : Out) (m : Mod) : (emit o m).tickOutHigh = m.tickOutHigh := by unfold emit; rfl
@[simp] theorem emit_haltRaw (o : Out) (m : Mod) : (emit o m).haltRaw = m.haltRaw := by unfold emit; rfl
@[simp] theorem emit_resetNPin (o : Out) (m : Mod) : (emit o m).resetNPin = m.resetNPin := by unfold emit; rfl
@[simp] theorem emit_heldAtRails (o : Out) (m : Mod) : (emit o m).heldAtRails = m.heldAtRails := by unfold emit; rfl
@[simp] theorem emit_powered (o : Out) (m : Mod) : (emit o m).powered = m.powered := by unfold emit; rfl
@[simp] theorem emit_lasts (o : Out) (m : Mod) : (emit o m).lasts = m.lasts := by unfold emit; rfl
@[simp] theorem emit_msums (o : Out) (m : Mod) : (emit o m).msums = m.msums := by unfold emit; rfl
@[simp] theorem emit_events (o : Out) (m : Mod) : (emit o m).events = m.events := by unfold emit; rfl
@[simp] theorem emit_passRunning (o : Out) (m : Mod) : (emit o m).passRunning = m.passRunning := by unfold emit; rfl
@[simp] theorem emit_passStart (o : Out) (m : Mod) : (emit o m).passStart = m.passStart := by unfold emit; rfl
@[simp] theorem emit_passVals (o : Out) (m : Mod) : (emit o m).passVals = m.passVals := by unfold emit; rfl
@[simp] theorem emit_passEvents (o : Out) (m : Mod) : (emit o m).passEvents = m.passEvents := by unfold emit; rfl
@[simp] theorem emit_free (o : Out) (m : Mod) : (emit o m).free = m.free := by unfold emit; rfl
@[simp] theorem emit_out (o : Out) (m : Mod) : (emit o m).out = m.out ++ [o] := by unfold emit; rfl
@[simp] theorem takeFree_native (m : Mod) : (takeFree m).2.native = m.native := by unfold takeFree; rfl
@[simp] theorem takeFree_now (m : Mod) : (takeFree m).2.now = m.now := by unfold takeFree; rfl
@[simp] theorem takeFree_lost (m : Mod) : (takeFree m).2.lost = m.lost := by unfold takeFree; rfl
@[simp] theorem takeFree_tick (m : Mod) : (takeFree m).2.tick = m.tick := by unfold takeFree; rfl
@[simp] theorem takeFree_phase (m : Mod) : (takeFree m).2.phase = m.phase := by unfold takeFree; rfl
@[simp] theorem takeFree_holdTicks (m : Mod) : (takeFree m).2.holdTicks = m.holdTicks := by unfold takeFree; rfl
@[simp] theorem takeFree_holdFrom (m : Mod) : (takeFree m).2.holdFrom = m.holdFrom := by unfold takeFree; rfl
@[simp] theorem takeFree_source (m : Mod) : (takeFree m).2.source = m.source := by unfold takeFree; rfl
@[simp] theorem takeFree_lock (m : Mod) : (takeFree m).2.lock = m.lock := by unfold takeFree; rfl
@[simp] theorem takeFree_phaseEvent (m : Mod) : (takeFree m).2.phaseEvent = m.phaseEvent := by unfold takeFree; rfl
@[simp] theorem takeFree_expiredEvent (m : Mod) : (takeFree m).2.expiredEvent = m.expiredEvent := by unfold takeFree; rfl
@[simp] theorem takeFree_lostEvent (m : Mod) : (takeFree m).2.lostEvent = m.lostEvent := by unfold takeFree; rfl
@[simp] theorem takeFree_chatter (m : Mod) : (takeFree m).2.chatter = m.chatter := by unfold takeFree; rfl
@[simp] theorem takeFree_phaseErr (m : Mod) : (takeFree m).2.phaseErr = m.phaseErr := by unfold takeFree; rfl
@[simp] theorem takeFree_loss (m : Mod) : (takeFree m).2.loss = m.loss := by unfold takeFree; rfl
@[simp] theorem takeFree_lastEdge (m : Mod) : (takeFree m).2.lastEdge = m.lastEdge := by unfold takeFree; rfl
@[simp] theorem takeFree_expiryFaulted (m : Mod) : (takeFree m).2.expiryFaulted = m.expiryFaulted := by unfold takeFree; rfl
@[simp] theorem takeFree_tiles (m : Mod) : (takeFree m).2.tiles = m.tiles := by unfold takeFree; rfl
@[simp] theorem takeFree_parts (m : Mod) : (takeFree m).2.parts = m.parts := by unfold takeFree; rfl
@[simp] theorem takeFree_ports (m : Mod) : (takeFree m).2.ports = m.ports := by unfold takeFree; rfl
@[simp] theorem takeFree_engines (m : Mod) : (takeFree m).2.engines = m.engines := by unfold takeFree; rfl
@[simp] theorem takeFree_contribs (m : Mod) : (takeFree m).2.contribs = m.contribs := by unfold takeFree; rfl
@[simp] theorem takeFree_chainBlks (m : Mod) : (takeFree m).2.chainBlks = m.chainBlks := by unfold takeFree; rfl
@[simp] theorem takeFree_pool (m : Mod) : (takeFree m).2.pool = m.pool := by unfold takeFree; rfl
@[simp] theorem takeFree_cgroups (m : Mod) : (takeFree m).2.cgroups = m.cgroups := by unfold takeFree; rfl
@[simp] theorem takeFree_bars (m : Mod) : (takeFree m).2.bars = m.bars := by unfold takeFree; rfl
@[simp] theorem takeFree_flight (m : Mod) : (takeFree m).2.flight = m.flight := by unfold takeFree; rfl
@[simp] theorem takeFree_stopped (m : Mod) : (takeFree m).2.stopped = m.stopped := by unfold takeFree; rfl
@[simp] theorem takeFree_dir (m : Mod) : (takeFree m).2.dir = m.dir := by unfold takeFree; rfl
@[simp] theorem takeFree_dram (m : Mod) : (takeFree m).2.dram = m.dram := by unfold takeFree; rfl
@[simp] theorem takeFree_ecc (m : Mod) : (takeFree m).2.ecc = m.ecc := by unfold takeFree; rfl
@[simp] theorem takeFree_fills (m : Mod) : (takeFree m).2.fills = m.fills := by unfold takeFree; rfl
@[simp] theorem takeFree_moves (m : Mod) : (takeFree m).2.moves = m.moves := by unfold takeFree; rfl
@[simp] theorem takeFree_mvGroups (m : Mod) : (takeFree m).2.mvGroups = m.mvGroups := by unfold takeFree; rfl
@[simp] theorem takeFree_groupNo (m : Mod) : (takeFree m).2.groupNo = m.groupNo := by unfold takeFree; rfl
@[simp] theorem takeFree_relFrames (m : Mod) : (takeFree m).2.relFrames = m.relFrames := by unfold takeFree; rfl
@[simp] theorem takeFree_pagesDone (m : Mod) : (takeFree m).2.pagesDone = m.pagesDone := by unfold takeFree; rfl
@[simp] theorem takeFree_stk (m : Mod) : (takeFree m).2.stk = m.stk := by unfold takeFree; rfl
@[simp] theorem takeFree_shards (m : Mod) : (takeFree m).2.shards = m.shards := by unfold takeFree; rfl
@[simp] theorem takeFree_dwins (m : Mod) : (takeFree m).2.dwins = m.dwins := by unfold takeFree; rfl
@[simp] theorem takeFree_winDenied (m : Mod) : (takeFree m).2.winDenied = m.winDenied := by unfold takeFree; rfl
@[simp] theorem takeFree_moduleNum (m : Mod) : (takeFree m).2.moduleNum = m.moduleNum := by unfold takeFree; rfl
@[simp] theorem takeFree_position (m : Mod) : (takeFree m).2.position = m.position := by unfold takeFree; rfl
@[simp] theorem takeFree_masterStrap (m : Mod) : (takeFree m).2.masterStrap = m.masterStrap := by unfold takeFree; rfl
@[simp] theorem takeFree_role (m : Mod) : (takeFree m).2.role = m.role := by unfold takeFree; rfl
@[simp] theorem takeFree_upstream (m : Mod) : (takeFree m).2.upstream = m.upstream := by unfold takeFree; rfl
@[simp] theorem takeFree_children (m : Mod) : (takeFree m).2.children = m.children := by unfold takeFree; rfl
@[simp] theorem takeFree_masterDelay (m : Mod) : (takeFree m).2.masterDelay = m.masterDelay := by unfold takeFree; rfl
@[simp] theorem takeFree_hopDelay (m : Mod) : (takeFree m).2.hopDelay = m.hopDelay := by unfold takeFree; rfl
@[simp] theorem takeFree_tetherHops (m : Mod) : (takeFree m).2.tetherHops = m.tetherHops := by unfold takeFree; rfl
@[simp] theorem takeFree_bridleHops (m : Mod) : (takeFree m).2.bridleHops = m.bridleHops := by unfold takeFree; rfl
@[simp] theorem takeFree_bridleTimeout (m : Mod) : (takeFree m).2.bridleTimeout = m.bridleTimeout := by unfold takeFree; rfl
@[simp] theorem takeFree_bridlePart (m : Mod) : (takeFree m).2.bridlePart = m.bridlePart := by unfold takeFree; rfl
@[simp] theorem takeFree_bridleEnable (m : Mod) : (takeFree m).2.bridleEnable = m.bridleEnable := by unfold takeFree; rfl
@[simp] theorem takeFree_timeoutEvent (m : Mod) : (takeFree m).2.timeoutEvent = m.timeoutEvent := by unfold takeFree; rfl
@[simp] theorem takeFree_line (m : Mod) : (takeFree m).2.line = m.line := by unfold takeFree; rfl
@[simp] theorem takeFree_released (m : Mod) : (takeFree m).2.released = m.released := by unfold takeFree; rfl
@[simp] theorem takeFree_releasedAt (m : Mod) : (takeFree m).2.releasedAt = m.releasedAt := by unfold takeFree; rfl
@[simp] theorem takeFree_bridleDone (m : Mod) : (takeFree m).2.bridleDone = m.bridleDone := by unfold takeFree; rfl
@[simp] theorem takeFree_releaseDue (m : Mod) : (takeFree m).2.releaseDue = m.releaseDue := by unfold takeFree; rfl
@[simp] theorem takeFree_lineOn (m : Mod) : (takeFree m).2.lineOn = m.lineOn := by unfold takeFree; rfl
@[simp] theorem takeFree_lineLow (m : Mod) : (takeFree m).2.lineLow = m.lineLow := by unfold takeFree; rfl
@[simp] theorem takeFree_routeDrops (m : Mod) : (takeFree m).2.routeDrops = m.routeDrops := by unfold takeFree; rfl
@[simp] theorem takeFree_forwarded (m : Mod) : (takeFree m).2.forwarded = m.forwarded := by unfold takeFree; rfl
@[simp] theorem takeFree_fwd (m : Mod) : (takeFree m).2.fwd = m.fwd := by unfold takeFree; rfl
@[simp] theorem takeFree_others (m : Mod) : (takeFree m).2.others = m.others := by unfold takeFree; rfl
@[simp] theorem takeFree_training (m : Mod) : (takeFree m).2.training = m.training := by unfold takeFree; rfl
@[simp] theorem takeFree_syncing (m : Mod) : (takeFree m).2.syncing = m.syncing := by unfold takeFree; rfl
@[simp] theorem takeFree_alignLoaded (m : Mod) : (takeFree m).2.alignLoaded = m.alignLoaded := by unfold takeFree; rfl
@[simp] theorem takeFree_reports (m : Mod) : (takeFree m).2.reports = m.reports := by unfold takeFree; rfl
@[simp] theorem takeFree_box (m : Mod) : (takeFree m).2.box = m.box := by unfold takeFree; rfl
@[simp] theorem takeFree_atgen (m : Mod) : (takeFree m).2.atgen = m.atgen := by unfold takeFree; rfl
@[simp] theorem takeFree_power (m : Mod) : (takeFree m).2.power = m.power := by unfold takeFree; rfl
@[simp] theorem takeFree_halves (m : Mod) : (takeFree m).2.halves = m.halves := by unfold takeFree; rfl
@[simp] theorem takeFree_resetTile (m : Mod) : (takeFree m).2.resetTile = m.resetTile := by unfold takeFree; rfl
@[simp] theorem takeFree_resetLast (m : Mod) : (takeFree m).2.resetLast = m.resetLast := by unfold takeFree; rfl
@[simp] theorem takeFree_bringup (m : Mod) : (takeFree m).2.bringup = m.bringup := by unfold takeFree; rfl
@[simp] theorem takeFree_stacksOk (m : Mod) : (takeFree m).2.stacksOk = m.stacksOk := by unfold takeFree; rfl
@[simp] theorem takeFree_warmResets (m : Mod) : (takeFree m).2.warmResets = m.warmResets := by unfold takeFree; rfl
@[simp] theorem takeFree_tileResets (m : Mod) : (takeFree m).2.tileResets = m.tileResets := by unfold takeFree; rfl
@[simp] theorem takeFree_sets (m : Mod) : (takeFree m).2.sets = m.sets := by unfold takeFree; rfl
@[simp] theorem takeFree_warmPending (m : Mod) : (takeFree m).2.warmPending = m.warmPending := by unfold takeFree; rfl
@[simp] theorem takeFree_stuckHigh (m : Mod) : (takeFree m).2.stuckHigh = m.stuckHigh := by unfold takeFree; rfl
@[simp] theorem takeFree_barrierPin (m : Mod) : (takeFree m).2.barrierPin = m.barrierPin := by unfold takeFree; rfl
@[simp] theorem takeFree_tickInHigh (m : Mod) : (takeFree m).2.tickInHigh = m.tickInHigh := by unfold takeFree; rfl
@[simp] theorem takeFree_tickOutHigh (m : Mod) : (takeFree m).2.tickOutHigh = m.tickOutHigh := by unfold takeFree; rfl
@[simp] theorem takeFree_haltRaw (m : Mod) : (takeFree m).2.haltRaw = m.haltRaw := by unfold takeFree; rfl
@[simp] theorem takeFree_resetNPin (m : Mod) : (takeFree m).2.resetNPin = m.resetNPin := by unfold takeFree; rfl
@[simp] theorem takeFree_heldAtRails (m : Mod) : (takeFree m).2.heldAtRails = m.heldAtRails := by unfold takeFree; rfl
@[simp] theorem takeFree_powered (m : Mod) : (takeFree m).2.powered = m.powered := by unfold takeFree; rfl
@[simp] theorem takeFree_lasts (m : Mod) : (takeFree m).2.lasts = m.lasts := by unfold takeFree; rfl
@[simp] theorem takeFree_msums (m : Mod) : (takeFree m).2.msums = m.msums := by unfold takeFree; rfl
@[simp] theorem takeFree_events (m : Mod) : (takeFree m).2.events = m.events := by unfold takeFree; rfl
@[simp] theorem takeFree_passRunning (m : Mod) : (takeFree m).2.passRunning = m.passRunning := by unfold takeFree; rfl
@[simp] theorem takeFree_passStart (m : Mod) : (takeFree m).2.passStart = m.passStart := by unfold takeFree; rfl
@[simp] theorem takeFree_passVals (m : Mod) : (takeFree m).2.passVals = m.passVals := by unfold takeFree; rfl
@[simp] theorem takeFree_passEvents (m : Mod) : (takeFree m).2.passEvents = m.passEvents := by unfold takeFree; rfl
@[simp] theorem takeFree_free (m : Mod) : (takeFree m).2.free = m.free + 1 := by unfold takeFree; rfl
@[simp] theorem takeFree_out (m : Mod) : (takeFree m).2.out = m.out := by unfold takeFree; rfl
@[simp] theorem tileOf_emit (o : Out) (m : Mod) (j : Nat) : tileOf (emit o m) j = tileOf m j := by unfold emit; rfl
@[simp] theorem partOf_emit (o : Out) (m : Mod) (j : Nat) : partOf (emit o m) j = partOf m j := by unfold emit; rfl
@[simp] theorem portOf_emit (o : Out) (m : Mod) (j : Nat) : portOf (emit o m) j = portOf m j := by unfold emit; rfl
@[simp] theorem engineOf_emit (o : Out) (m : Mod) (j : Nat) : engineOf (emit o m) j = engineOf m j := by unfold emit; rfl
@[simp] theorem epOf_emit (o : Out) (m : Mod) (j : Nat) : epOf (emit o m) j = epOf m j := by unfold emit; rfl
@[simp] theorem barOf_emit (o : Out) (m : Mod) (j : Nat) : barOf (emit o m) j = barOf m j := by unfold emit; rfl
@[simp] theorem pageOf_emit (o : Out) (m : Mod) (j : Nat) : pageOf (emit o m) j = pageOf m j := by unfold emit; rfl
@[simp] theorem stackOf_emit (o : Out) (m : Mod) (j : Nat) : stackOf (emit o m) j = stackOf m j := by unfold emit; rfl
@[simp] theorem shardOf_emit (o : Out) (m : Mod) (j : Nat) : shardOf (emit o m) j = shardOf m j := by unfold emit; rfl
@[simp] theorem halfSt_emit (o : Out) (m : Mod) (j : Nat) : halfSt (emit o m) j = halfSt m j := by unfold emit; rfl
@[simp] theorem noteSet_native (a b : Nat) (l : List Nat) (m : Mod) : (noteSet a b l m).native = m.native := by unfold noteSet; rfl
@[simp] theorem noteSet_now (a b : Nat) (l : List Nat) (m : Mod) : (noteSet a b l m).now = m.now := by unfold noteSet; rfl
@[simp] theorem noteSet_lost (a b : Nat) (l : List Nat) (m : Mod) : (noteSet a b l m).lost = m.lost := by unfold noteSet; rfl
@[simp] theorem noteSet_tick (a b : Nat) (l : List Nat) (m : Mod) : (noteSet a b l m).tick = m.tick := by unfold noteSet; rfl
@[simp] theorem noteSet_phase (a b : Nat) (l : List Nat) (m : Mod) : (noteSet a b l m).phase = m.phase := by unfold noteSet; rfl
@[simp] theorem noteSet_holdTicks (a b : Nat) (l : List Nat) (m : Mod) : (noteSet a b l m).holdTicks = m.holdTicks := by unfold noteSet; rfl
@[simp] theorem noteSet_holdFrom (a b : Nat) (l : List Nat) (m : Mod) : (noteSet a b l m).holdFrom = m.holdFrom := by unfold noteSet; rfl
@[simp] theorem noteSet_source (a b : Nat) (l : List Nat) (m : Mod) : (noteSet a b l m).source = m.source := by unfold noteSet; rfl
@[simp] theorem noteSet_lock (a b : Nat) (l : List Nat) (m : Mod) : (noteSet a b l m).lock = m.lock := by unfold noteSet; rfl
@[simp] theorem noteSet_phaseEvent (a b : Nat) (l : List Nat) (m : Mod) : (noteSet a b l m).phaseEvent = m.phaseEvent := by unfold noteSet; rfl
@[simp] theorem noteSet_expiredEvent (a b : Nat) (l : List Nat) (m : Mod) : (noteSet a b l m).expiredEvent = m.expiredEvent := by unfold noteSet; rfl
@[simp] theorem noteSet_lostEvent (a b : Nat) (l : List Nat) (m : Mod) : (noteSet a b l m).lostEvent = m.lostEvent := by unfold noteSet; rfl
@[simp] theorem noteSet_chatter (a b : Nat) (l : List Nat) (m : Mod) : (noteSet a b l m).chatter = m.chatter := by unfold noteSet; rfl
@[simp] theorem noteSet_phaseErr (a b : Nat) (l : List Nat) (m : Mod) : (noteSet a b l m).phaseErr = m.phaseErr := by unfold noteSet; rfl
@[simp] theorem noteSet_loss (a b : Nat) (l : List Nat) (m : Mod) : (noteSet a b l m).loss = m.loss := by unfold noteSet; rfl
@[simp] theorem noteSet_lastEdge (a b : Nat) (l : List Nat) (m : Mod) : (noteSet a b l m).lastEdge = m.lastEdge := by unfold noteSet; rfl
@[simp] theorem noteSet_expiryFaulted (a b : Nat) (l : List Nat) (m : Mod) : (noteSet a b l m).expiryFaulted = m.expiryFaulted := by unfold noteSet; rfl
@[simp] theorem noteSet_tiles (a b : Nat) (l : List Nat) (m : Mod) : (noteSet a b l m).tiles = m.tiles := by unfold noteSet; rfl
@[simp] theorem noteSet_parts (a b : Nat) (l : List Nat) (m : Mod) : (noteSet a b l m).parts = m.parts := by unfold noteSet; rfl
@[simp] theorem noteSet_ports (a b : Nat) (l : List Nat) (m : Mod) : (noteSet a b l m).ports = m.ports := by unfold noteSet; rfl
@[simp] theorem noteSet_engines (a b : Nat) (l : List Nat) (m : Mod) : (noteSet a b l m).engines = m.engines := by unfold noteSet; rfl
@[simp] theorem noteSet_contribs (a b : Nat) (l : List Nat) (m : Mod) : (noteSet a b l m).contribs = m.contribs := by unfold noteSet; rfl
@[simp] theorem noteSet_chainBlks (a b : Nat) (l : List Nat) (m : Mod) : (noteSet a b l m).chainBlks = m.chainBlks := by unfold noteSet; rfl
@[simp] theorem noteSet_pool (a b : Nat) (l : List Nat) (m : Mod) : (noteSet a b l m).pool = m.pool := by unfold noteSet; rfl
@[simp] theorem noteSet_cgroups (a b : Nat) (l : List Nat) (m : Mod) : (noteSet a b l m).cgroups = m.cgroups := by unfold noteSet; rfl
@[simp] theorem noteSet_bars (a b : Nat) (l : List Nat) (m : Mod) : (noteSet a b l m).bars = m.bars := by unfold noteSet; rfl
@[simp] theorem noteSet_flight (a b : Nat) (l : List Nat) (m : Mod) : (noteSet a b l m).flight = m.flight := by unfold noteSet; rfl
@[simp] theorem noteSet_stopped (a b : Nat) (l : List Nat) (m : Mod) : (noteSet a b l m).stopped = m.stopped := by unfold noteSet; rfl
@[simp] theorem noteSet_dir (a b : Nat) (l : List Nat) (m : Mod) : (noteSet a b l m).dir = m.dir := by unfold noteSet; rfl
@[simp] theorem noteSet_dram (a b : Nat) (l : List Nat) (m : Mod) : (noteSet a b l m).dram = m.dram := by unfold noteSet; rfl
@[simp] theorem noteSet_ecc (a b : Nat) (l : List Nat) (m : Mod) : (noteSet a b l m).ecc = m.ecc := by unfold noteSet; rfl
@[simp] theorem noteSet_fills (a b : Nat) (l : List Nat) (m : Mod) : (noteSet a b l m).fills = m.fills := by unfold noteSet; rfl
@[simp] theorem noteSet_moves (a b : Nat) (l : List Nat) (m : Mod) : (noteSet a b l m).moves = m.moves := by unfold noteSet; rfl
@[simp] theorem noteSet_mvGroups (a b : Nat) (l : List Nat) (m : Mod) : (noteSet a b l m).mvGroups = m.mvGroups := by unfold noteSet; rfl
@[simp] theorem noteSet_groupNo (a b : Nat) (l : List Nat) (m : Mod) : (noteSet a b l m).groupNo = m.groupNo := by unfold noteSet; rfl
@[simp] theorem noteSet_relFrames (a b : Nat) (l : List Nat) (m : Mod) : (noteSet a b l m).relFrames = m.relFrames := by unfold noteSet; rfl
@[simp] theorem noteSet_pagesDone (a b : Nat) (l : List Nat) (m : Mod) : (noteSet a b l m).pagesDone = m.pagesDone := by unfold noteSet; rfl
@[simp] theorem noteSet_stk (a b : Nat) (l : List Nat) (m : Mod) : (noteSet a b l m).stk = m.stk := by unfold noteSet; rfl
@[simp] theorem noteSet_shards (a b : Nat) (l : List Nat) (m : Mod) : (noteSet a b l m).shards = m.shards := by unfold noteSet; rfl
@[simp] theorem noteSet_dwins (a b : Nat) (l : List Nat) (m : Mod) : (noteSet a b l m).dwins = m.dwins := by unfold noteSet; rfl
@[simp] theorem noteSet_winDenied (a b : Nat) (l : List Nat) (m : Mod) : (noteSet a b l m).winDenied = m.winDenied := by unfold noteSet; rfl
@[simp] theorem noteSet_moduleNum (a b : Nat) (l : List Nat) (m : Mod) : (noteSet a b l m).moduleNum = m.moduleNum := by unfold noteSet; rfl
@[simp] theorem noteSet_position (a b : Nat) (l : List Nat) (m : Mod) : (noteSet a b l m).position = m.position := by unfold noteSet; rfl
@[simp] theorem noteSet_masterStrap (a b : Nat) (l : List Nat) (m : Mod) : (noteSet a b l m).masterStrap = m.masterStrap := by unfold noteSet; rfl
@[simp] theorem noteSet_role (a b : Nat) (l : List Nat) (m : Mod) : (noteSet a b l m).role = m.role := by unfold noteSet; rfl
@[simp] theorem noteSet_upstream (a b : Nat) (l : List Nat) (m : Mod) : (noteSet a b l m).upstream = m.upstream := by unfold noteSet; rfl
@[simp] theorem noteSet_children (a b : Nat) (l : List Nat) (m : Mod) : (noteSet a b l m).children = m.children := by unfold noteSet; rfl
@[simp] theorem noteSet_masterDelay (a b : Nat) (l : List Nat) (m : Mod) : (noteSet a b l m).masterDelay = m.masterDelay := by unfold noteSet; rfl
@[simp] theorem noteSet_hopDelay (a b : Nat) (l : List Nat) (m : Mod) : (noteSet a b l m).hopDelay = m.hopDelay := by unfold noteSet; rfl
@[simp] theorem noteSet_tetherHops (a b : Nat) (l : List Nat) (m : Mod) : (noteSet a b l m).tetherHops = m.tetherHops := by unfold noteSet; rfl
@[simp] theorem noteSet_bridleHops (a b : Nat) (l : List Nat) (m : Mod) : (noteSet a b l m).bridleHops = m.bridleHops := by unfold noteSet; rfl
@[simp] theorem noteSet_bridleTimeout (a b : Nat) (l : List Nat) (m : Mod) : (noteSet a b l m).bridleTimeout = m.bridleTimeout := by unfold noteSet; rfl
@[simp] theorem noteSet_bridlePart (a b : Nat) (l : List Nat) (m : Mod) : (noteSet a b l m).bridlePart = m.bridlePart := by unfold noteSet; rfl
@[simp] theorem noteSet_bridleEnable (a b : Nat) (l : List Nat) (m : Mod) : (noteSet a b l m).bridleEnable = m.bridleEnable := by unfold noteSet; rfl
@[simp] theorem noteSet_timeoutEvent (a b : Nat) (l : List Nat) (m : Mod) : (noteSet a b l m).timeoutEvent = m.timeoutEvent := by unfold noteSet; rfl
@[simp] theorem noteSet_line (a b : Nat) (l : List Nat) (m : Mod) : (noteSet a b l m).line = m.line := by unfold noteSet; rfl
@[simp] theorem noteSet_released (a b : Nat) (l : List Nat) (m : Mod) : (noteSet a b l m).released = m.released := by unfold noteSet; rfl
@[simp] theorem noteSet_releasedAt (a b : Nat) (l : List Nat) (m : Mod) : (noteSet a b l m).releasedAt = m.releasedAt := by unfold noteSet; rfl
@[simp] theorem noteSet_bridleDone (a b : Nat) (l : List Nat) (m : Mod) : (noteSet a b l m).bridleDone = m.bridleDone := by unfold noteSet; rfl
@[simp] theorem noteSet_releaseDue (a b : Nat) (l : List Nat) (m : Mod) : (noteSet a b l m).releaseDue = m.releaseDue := by unfold noteSet; rfl
@[simp] theorem noteSet_lineOn (a b : Nat) (l : List Nat) (m : Mod) : (noteSet a b l m).lineOn = m.lineOn := by unfold noteSet; rfl
@[simp] theorem noteSet_lineLow (a b : Nat) (l : List Nat) (m : Mod) : (noteSet a b l m).lineLow = m.lineLow := by unfold noteSet; rfl
@[simp] theorem noteSet_routeDrops (a b : Nat) (l : List Nat) (m : Mod) : (noteSet a b l m).routeDrops = m.routeDrops := by unfold noteSet; rfl
@[simp] theorem noteSet_forwarded (a b : Nat) (l : List Nat) (m : Mod) : (noteSet a b l m).forwarded = m.forwarded := by unfold noteSet; rfl
@[simp] theorem noteSet_fwd (a b : Nat) (l : List Nat) (m : Mod) : (noteSet a b l m).fwd = m.fwd := by unfold noteSet; rfl
@[simp] theorem noteSet_others (a b : Nat) (l : List Nat) (m : Mod) : (noteSet a b l m).others = m.others := by unfold noteSet; rfl
@[simp] theorem noteSet_training (a b : Nat) (l : List Nat) (m : Mod) : (noteSet a b l m).training = m.training := by unfold noteSet; rfl
@[simp] theorem noteSet_syncing (a b : Nat) (l : List Nat) (m : Mod) : (noteSet a b l m).syncing = m.syncing := by unfold noteSet; rfl
@[simp] theorem noteSet_alignLoaded (a b : Nat) (l : List Nat) (m : Mod) : (noteSet a b l m).alignLoaded = m.alignLoaded := by unfold noteSet; rfl
@[simp] theorem noteSet_reports (a b : Nat) (l : List Nat) (m : Mod) : (noteSet a b l m).reports = m.reports := by unfold noteSet; rfl
@[simp] theorem noteSet_box (a b : Nat) (l : List Nat) (m : Mod) : (noteSet a b l m).box = m.box := by unfold noteSet; rfl
@[simp] theorem noteSet_atgen (a b : Nat) (l : List Nat) (m : Mod) : (noteSet a b l m).atgen = m.atgen := by unfold noteSet; rfl
@[simp] theorem noteSet_power (a b : Nat) (l : List Nat) (m : Mod) : (noteSet a b l m).power = m.power := by unfold noteSet; rfl
@[simp] theorem noteSet_halves (a b : Nat) (l : List Nat) (m : Mod) : (noteSet a b l m).halves = m.halves := by unfold noteSet; rfl
@[simp] theorem noteSet_resetTile (a b : Nat) (l : List Nat) (m : Mod) : (noteSet a b l m).resetTile = m.resetTile := by unfold noteSet; rfl
@[simp] theorem noteSet_resetLast (a b : Nat) (l : List Nat) (m : Mod) : (noteSet a b l m).resetLast = m.resetLast := by unfold noteSet; rfl
@[simp] theorem noteSet_bringup (a b : Nat) (l : List Nat) (m : Mod) : (noteSet a b l m).bringup = m.bringup := by unfold noteSet; rfl
@[simp] theorem noteSet_stacksOk (a b : Nat) (l : List Nat) (m : Mod) : (noteSet a b l m).stacksOk = m.stacksOk := by unfold noteSet; rfl
@[simp] theorem noteSet_warmResets (a b : Nat) (l : List Nat) (m : Mod) : (noteSet a b l m).warmResets = m.warmResets := by unfold noteSet; rfl
@[simp] theorem noteSet_tileResets (a b : Nat) (l : List Nat) (m : Mod) : (noteSet a b l m).tileResets = m.tileResets := by unfold noteSet; rfl
@[simp] theorem noteSet_warmPending (a b : Nat) (l : List Nat) (m : Mod) : (noteSet a b l m).warmPending = m.warmPending := by unfold noteSet; rfl
@[simp] theorem noteSet_stuckHigh (a b : Nat) (l : List Nat) (m : Mod) : (noteSet a b l m).stuckHigh = m.stuckHigh := by unfold noteSet; rfl
@[simp] theorem noteSet_barrierPin (a b : Nat) (l : List Nat) (m : Mod) : (noteSet a b l m).barrierPin = m.barrierPin := by unfold noteSet; rfl
@[simp] theorem noteSet_tickInHigh (a b : Nat) (l : List Nat) (m : Mod) : (noteSet a b l m).tickInHigh = m.tickInHigh := by unfold noteSet; rfl
@[simp] theorem noteSet_tickOutHigh (a b : Nat) (l : List Nat) (m : Mod) : (noteSet a b l m).tickOutHigh = m.tickOutHigh := by unfold noteSet; rfl
@[simp] theorem noteSet_haltRaw (a b : Nat) (l : List Nat) (m : Mod) : (noteSet a b l m).haltRaw = m.haltRaw := by unfold noteSet; rfl
@[simp] theorem noteSet_resetNPin (a b : Nat) (l : List Nat) (m : Mod) : (noteSet a b l m).resetNPin = m.resetNPin := by unfold noteSet; rfl
@[simp] theorem noteSet_heldAtRails (a b : Nat) (l : List Nat) (m : Mod) : (noteSet a b l m).heldAtRails = m.heldAtRails := by unfold noteSet; rfl
@[simp] theorem noteSet_powered (a b : Nat) (l : List Nat) (m : Mod) : (noteSet a b l m).powered = m.powered := by unfold noteSet; rfl
@[simp] theorem noteSet_lasts (a b : Nat) (l : List Nat) (m : Mod) : (noteSet a b l m).lasts = m.lasts := by unfold noteSet; rfl
@[simp] theorem noteSet_msums (a b : Nat) (l : List Nat) (m : Mod) : (noteSet a b l m).msums = m.msums := by unfold noteSet; rfl
@[simp] theorem noteSet_events (a b : Nat) (l : List Nat) (m : Mod) : (noteSet a b l m).events = m.events := by unfold noteSet; rfl
@[simp] theorem noteSet_passRunning (a b : Nat) (l : List Nat) (m : Mod) : (noteSet a b l m).passRunning = m.passRunning := by unfold noteSet; rfl
@[simp] theorem noteSet_passStart (a b : Nat) (l : List Nat) (m : Mod) : (noteSet a b l m).passStart = m.passStart := by unfold noteSet; rfl
@[simp] theorem noteSet_passVals (a b : Nat) (l : List Nat) (m : Mod) : (noteSet a b l m).passVals = m.passVals := by unfold noteSet; rfl
@[simp] theorem noteSet_passEvents (a b : Nat) (l : List Nat) (m : Mod) : (noteSet a b l m).passEvents = m.passEvents := by unfold noteSet; rfl
@[simp] theorem noteSet_free (a b : Nat) (l : List Nat) (m : Mod) : (noteSet a b l m).free = m.free := by unfold noteSet; rfl
@[simp] theorem noteSet_out (a b : Nat) (l : List Nat) (m : Mod) : (noteSet a b l m).out = m.out := by unfold noteSet; rfl
@[simp] theorem tileOf_noteSet (a b : Nat) (l : List Nat) (m : Mod) (j : Nat) : tileOf (noteSet a b l m) j = tileOf m j := by unfold noteSet; rfl
@[simp] theorem partOf_noteSet (a b : Nat) (l : List Nat) (m : Mod) (j : Nat) : partOf (noteSet a b l m) j = partOf m j := by unfold noteSet; rfl
@[simp] theorem portOf_noteSet (a b : Nat) (l : List Nat) (m : Mod) (j : Nat) : portOf (noteSet a b l m) j = portOf m j := by unfold noteSet; rfl
@[simp] theorem engineOf_noteSet (a b : Nat) (l : List Nat) (m : Mod) (j : Nat) : engineOf (noteSet a b l m) j = engineOf m j := by unfold noteSet; rfl
@[simp] theorem epOf_noteSet (a b : Nat) (l : List Nat) (m : Mod) (j : Nat) : epOf (noteSet a b l m) j = epOf m j := by unfold noteSet; rfl
@[simp] theorem barOf_noteSet (a b : Nat) (l : List Nat) (m : Mod) (j : Nat) : barOf (noteSet a b l m) j = barOf m j := by unfold noteSet; rfl
@[simp] theorem pageOf_noteSet (a b : Nat) (l : List Nat) (m : Mod) (j : Nat) : pageOf (noteSet a b l m) j = pageOf m j := by unfold noteSet; rfl
@[simp] theorem stackOf_noteSet (a b : Nat) (l : List Nat) (m : Mod) (j : Nat) : stackOf (noteSet a b l m) j = stackOf m j := by unfold noteSet; rfl
@[simp] theorem shardOf_noteSet (a b : Nat) (l : List Nat) (m : Mod) (j : Nat) : shardOf (noteSet a b l m) j = shardOf m j := by unfold noteSet; rfl
@[simp] theorem halfSt_noteSet (a b : Nat) (l : List Nat) (m : Mod) (j : Nat) : halfSt (noteSet a b l m) j = halfSt m j := by unfold noteSet; rfl
@[simp] theorem tdOf_noteSet (a b : Nat) (l : List Nat) (m : Mod) (j : Nat) : tdOf (noteSet a b l m) j = tdOf m j := by unfold noteSet; rfl
@[simp] theorem tdOf_emit (o : Out) (m : Mod) (j : Nat) : tdOf (emit o m) j = tdOf m j := by unfold emit; rfl

/-! ## setS -/

@[simp] theorem setS_vreg (r : Nat) (v : W32) (d : TileData) : (setS r v d).vreg = d.vreg := by unfold setS; split <;> rfl
@[simp] theorem setS_preg (r : Nat) (v : W32) (d : TileData) : (setS r v d).preg = d.preg := by unfold setS; split <;> rfl
@[simp] theorem setS_pc (r : Nat) (v : W32) (d : TileData) : (setS r v d).pc = d.pc := by unfold setS; split <;> rfl
@[simp] theorem setS_loops (r : Nat) (v : W32) (d : TileData) : (setS r v d).loops = d.loops := by unfold setS; split <;> rfl
@[simp] theorem setS_imem (r : Nat) (v : W32) (d : TileData) : (setS r v d).imem = d.imem := by unfold setS; split <;> rfl
@[simp] theorem setS_imemBad (r : Nat) (v : W32) (d : TileData) : (setS r v d).imemBad = d.imemBad := by unfold setS; split <;> rfl
@[simp] theorem setS_image (r : Nat) (v : W32) (d : TileData) : (setS r v d).image = d.image := by unfold setS; split <;> rfl
@[simp] theorem setS_imemTrap (r : Nat) (v : W32) (d : TileData) : (setS r v d).imemTrap = d.imemTrap := by unfold setS; split <;> rfl
@[simp] theorem setS_st (r : Nat) (v : W32) (d : TileData) : (setS r v d).st = d.st := by unfold setS; split <;> rfl
@[simp] theorem setS_wait (r : Nat) (v : W32) (d : TileData) : (setS r v d).wait = d.wait := by unfold setS; split <;> rfl
@[simp] theorem setS_exiting (r : Nat) (v : W32) (d : TileData) : (setS r v d).exiting = d.exiting := by unfold setS; split <;> rfl
@[simp] theorem setS_latch (r : Nat) (v : W32) (d : TileData) : (setS r v d).latch = d.latch := by unfold setS; split <;> rfl
@[simp] theorem setS_skipBreak (r : Nat) (v : W32) (d : TileData) : (setS r v d).skipBreak = d.skipBreak := by unfold setS; split <;> rfl
@[simp] theorem setS_oneBundle (r : Nat) (v : W32) (d : TileData) : (setS r v d).oneBundle = d.oneBundle := by unfold setS; split <;> rfl
@[simp] theorem setS_stopDue (r : Nat) (v : W32) (d : TileData) : (setS r v d).stopDue = d.stopDue := by unfold setS; split <;> rfl
@[simp] theorem setS_faultsDue (r : Nat) (v : W32) (d : TileData) : (setS r v d).faultsDue = d.faultsDue := by unfold setS; split <;> rfl
@[simp] theorem setS_shown (r : Nat) (v : W32) (d : TileData) : (setS r v d).shown = d.shown := by unfold setS; split <;> rfl
@[simp] theorem setS_waitLimit (r : Nat) (v : W32) (d : TileData) : (setS r v d).waitLimit = d.waitLimit := by unfold setS; split <;> rfl
@[simp] theorem setS_singleStep (r : Nat) (v : W32) (d : TileData) : (setS r v d).singleStep = d.singleStep := by unfold setS; split <;> rfl
@[simp] theorem setS_breakEnable (r : Nat) (v : W32) (d : TileData) : (setS r v d).breakEnable = d.breakEnable := by unfold setS; split <;> rfl
@[simp] theorem setS_startPc (r : Nat) (v : W32) (d : TileData) : (setS r v d).startPc = d.startPc := by unfold setS; split <;> rfl
@[simp] theorem setS_trap (r : Nat) (v : W32) (d : TileData) : (setS r v d).trap = d.trap := by unfold setS; split <;> rfl
@[simp] theorem setS_breakPcEn (r : Nat) (v : W32) (d : TileData) : (setS r v d).breakPcEn = d.breakPcEn := by unfold setS; split <;> rfl
@[simp] theorem setS_breakPc (r : Nat) (v : W32) (d : TileData) : (setS r v d).breakPc = d.breakPc := by unfold setS; split <;> rfl
@[simp] theorem setS_freeze (r : Nat) (v : W32) (d : TileData) : (setS r v d).freeze = d.freeze := by unfold setS; split <;> rfl
@[simp] theorem setS_scr (r : Nat) (v : W32) (d : TileData) : (setS r v d).scr = d.scr := by unfold setS; split <;> rfl
@[simp] theorem setS_ctr (r : Nat) (v : W32) (d : TileData) : (setS r v d).ctr = d.ctr := by unfold setS; split <;> rfl
@[simp] theorem setS_nextIssue (r : Nat) (v : W32) (d : TileData) : (setS r v d).nextIssue = d.nextIssue := by unfold setS; split <;> rfl
@[simp] theorem setS_ready (r : Nat) (v : W32) (d : TileData) : (setS r v d).ready = d.ready := by unfold setS; split <;> rfl
@[simp] theorem setS_lands (r : Nat) (v : W32) (d : TileData) : (setS r v d).lands = d.lands := by unfold setS; split <;> rfl
@[simp] theorem setS_xpend (r : Nat) (v : W32) (d : TileData) : (setS r v d).xpend = d.xpend := by unfold setS; split <;> rfl
@[simp] theorem setS_nfFreeze (r : Nat) (v : W32) (d : TileData) : (setS r v d).nfFreeze = d.nfFreeze := by unfold setS; split <;> rfl
@[simp] theorem setS_nfResults (r : Nat) (v : W32) (d : TileData) : (setS r v d).nfResults = d.nfResults := by unfold setS; split <;> rfl
@[simp] theorem setS_nfInvalid (r : Nat) (v : W32) (d : TileData) : (setS r v d).nfInvalid = d.nfInvalid := by unfold setS; split <;> rfl
@[simp] theorem setS_nfOverflow (r : Nat) (v : W32) (d : TileData) : (setS r v d).nfOverflow = d.nfOverflow := by unfold setS; split <;> rfl
@[simp] theorem setS_nfDivzero (r : Nat) (v : W32) (d : TileData) : (setS r v d).nfDivzero = d.nfDivzero := by unfold setS; split <;> rfl
@[simp] theorem setS_nfFirst (r : Nat) (v : W32) (d : TileData) : (setS r v d).nfFirst = d.nfFirst := by unfold setS; split <;> rfl
@[simp] theorem setS_cvFreeze (r : Nat) (v : W32) (d : TileData) : (setS r v d).cvFreeze = d.cvFreeze := by unfold setS; split <;> rfl
@[simp] theorem setS_cv (r : Nat) (v : W32) (d : TileData) : (setS r v d).cv = d.cv := by unfold setS; split <;> rfl
@[simp] theorem setS_wbuf (r : Nat) (v : W32) (d : TileData) : (setS r v d).wbuf = d.wbuf := by unfold setS; split <;> rfl
@[simp] theorem setS_wIssued (r : Nat) (v : W32) (d : TileData) : (setS r v d).wIssued = d.wIssued := by unfold setS; split <;> rfl
@[simp] theorem setS_coll (r : Nat) (v : W32) (d : TileData) : (setS r v d).coll = d.coll := by unfold setS; split <;> rfl
@[simp] theorem setS_mq (r : Nat) (v : W32) (d : TileData) : (setS r v d).mq = d.mq := by unfold setS; split <;> rfl
@[simp] theorem setS_mruns (r : Nat) (v : W32) (d : TileData) : (setS r v d).mruns = d.mruns := by unfold setS; split <;> rfl
@[simp] theorem setS_mloads (r : Nat) (v : W32) (d : TileData) : (setS r v d).mloads = d.mloads := by unfold setS; split <;> rfl
@[simp] theorem setS_drain (r : Nat) (v : W32) (d : TileData) : (setS r v d).drain = d.drain := by unfold setS; split <;> rfl
@[simp] theorem setS_drainFree (r : Nat) (v : W32) (d : TileData) : (setS r v d).drainFree = d.drainFree := by unfold setS; split <;> rfl
@[simp] theorem setS_wpathFree (r : Nat) (v : W32) (d : TileData) : (setS r v d).wpathFree = d.wpathFree := by unfold setS; split <;> rfl
@[simp] theorem setS_stream (r : Nat) (v : W32) (d : TileData) : (setS r v d).stream = d.stream := by unfold setS; split <;> rfl
@[simp] theorem setS_mstarts (r : Nat) (v : W32) (d : TileData) : (setS r v d).mstarts = d.mstarts := by unfold setS; split <;> rfl
@[simp] theorem setS_mdeps (r : Nat) (v : W32) (d : TileData) : (setS r v d).mdeps = d.mdeps := by unfold setS; split <;> rfl
@[simp] theorem setS_maNonfinite (r : Nat) (v : W32) (d : TileData) : (setS r v d).maNonfinite = d.maNonfinite := by unfold setS; split <;> rfl
@[simp] theorem setS_maCellOps (r : Nat) (v : W32) (d : TileData) : (setS r v d).maCellOps = d.maCellOps := by unfold setS; split <;> rfl
@[simp] theorem setS_maGatedOps (r : Nat) (v : W32) (d : TileData) : (setS r v d).maGatedOps = d.maGatedOps := by unfold setS; split <;> rfl
@[simp] theorem setS_scratch (r : Nat) (v : W32) (d : TileData) : (setS r v d).scratch = d.scratch := by unfold setS; split <;> rfl
@[simp] theorem setS_spBad (r : Nat) (v : W32) (d : TileData) : (setS r v d).spBad = d.spBad := by unfold setS; split <;> rfl
@[simp] theorem setS_spLast (r : Nat) (v : W32) (d : TileData) : (setS r v d).spLast = d.spLast := by unfold setS; split <;> rfl
@[simp] theorem setS_spOld (r : Nat) (v : W32) (d : TileData) : (setS r v d).spOld = d.spOld := by unfold setS; split <;> rfl
@[simp] theorem setS_spParity (r : Nat) (v : W32) (d : TileData) : (setS r v d).spParity = d.spParity := by unfold setS; split <;> rfl
@[simp] theorem setS_regions (r : Nat) (v : W32) (d : TileData) : (setS r v d).regions = d.regions := by unfold setS; split <;> rfl
@[simp] theorem setS_wins (r : Nat) (v : W32) (d : TileData) : (setS r v d).wins = d.wins := by unfold setS; split <;> rfl
@[simp] theorem setS_denied (r : Nat) (v : W32) (d : TileData) : (setS r v d).denied = d.denied := by unfold setS; split <;> rfl
@[simp] theorem setS_dmaq (r : Nat) (v : W32) (d : TileData) : (setS r v d).dmaq = d.dmaq := by unfold setS; split <;> rfl
@[simp] theorem setS_armed (r : Nat) (v : W32) (d : TileData) : (setS r v d).armed = d.armed := by unfold setS; split <;> rfl
@[simp] theorem setS_disarming (r : Nat) (v : W32) (d : TileData) : (setS r v d).disarming = d.disarming := by unfold setS; split <;> rfl
@[simp] theorem setS_recvDone (r : Nat) (v : W32) (d : TileData) : (setS r v d).recvDone = d.recvDone := by unfold setS; split <;> rfl
@[simp] theorem setS_xoFree (r : Nat) (v : W32) (d : TileData) : (setS r v d).xoFree = d.xoFree := by unfold setS; split <;> rfl
@[simp] theorem setS_beatsOut (r : Nat) (v : W32) (d : TileData) : (setS r v d).beatsOut = d.beatsOut := by unfold setS; split <;> rfl
@[simp] theorem setS_beatsIn (r : Nat) (v : W32) (d : TileData) : (setS r v d).beatsIn = d.beatsIn := by unfold setS; split <;> rfl
@[simp] theorem setS_xchFaults (r : Nat) (v : W32) (d : TileData) : (setS r v d).xchFaults = d.xchFaults := by unfold setS; split <;> rfl
@[simp] theorem setS_stallLimit (r : Nat) (v : W32) (d : TileData) : (setS r v d).stallLimit = d.stallLimit := by unfold setS; split <;> rfl
@[simp] theorem setS_handles (r : Nat) (v : W32) (d : TileData) : (setS r v d).handles = d.handles := by unfold setS; split <;> rfl
@[simp] theorem setS_copens (r : Nat) (v : W32) (d : TileData) : (setS r v d).copens = d.copens := by unfold setS; split <;> rfl
@[simp] theorem setS_dropped (r : Nat) (v : W32) (d : TileData) : (setS r v d).dropped = d.dropped := by unfold setS; split <;> rfl
@[simp] theorem setS_sendTimeouts (r : Nat) (v : W32) (d : TileData) : (setS r v d).sendTimeouts = d.sendTimeouts := by unfold setS; split <;> rfl
@[simp] theorem setS_recvTimeouts (r : Nat) (v : W32) (d : TileData) : (setS r v d).recvTimeouts = d.recvTimeouts := by unfold setS; split <;> rfl
@[simp] theorem setS_sigs (r : Nat) (v : W32) (d : TileData) : (setS r v d).sigs = d.sigs := by unfold setS; split <;> rfl
@[simp] theorem setS_queues (r : Nat) (v : W32) (d : TileData) : (setS r v d).queues = d.queues := by unfold setS; split <;> rfl
@[simp] theorem setS_bytesIn (r : Nat) (v : W32) (d : TileData) : (setS r v d).bytesIn = d.bytesIn := by unfold setS; split <;> rfl
@[simp] theorem setS_bytesOut (r : Nat) (v : W32) (d : TileData) : (setS r v d).bytesOut = d.bytesOut := by unfold setS; split <;> rfl
@[simp] theorem setS_streamFault (r : Nat) (v : W32) (d : TileData) : (setS r v d).streamFault = d.streamFault := by unfold setS; split <;> rfl
@[simp] theorem setS_wgb (r : Nat) (v : W32) (d : TileData) : (setS r v d).wgb = d.wgb := by unfold setS; split <;> rfl
@[simp] theorem setS_wgbExact (r : Nat) (v : W32) (d : TileData) : (setS r v d).wgbExact = d.wgbExact := by unfold setS; split <;> rfl
@[simp] theorem setS_wgbLsb (r : Nat) (v : W32) (d : TileData) : (setS r v d).wgbLsb = d.wgbLsb := by unfold setS; split <;> rfl
@[simp] theorem setS_wgbFilled (r : Nat) (v : W32) (d : TileData) : (setS r v d).wgbFilled = d.wgbFilled := by unfold setS; split <;> rfl
@[simp] theorem setS_wgbRead (r : Nat) (v : W32) (d : TileData) : (setS r v d).wgbRead = d.wgbRead := by unfold setS; split <;> rfl
@[simp] theorem setS_wgbEvents (r : Nat) (v : W32) (d : TileData) : (setS r v d).wgbEvents = d.wgbEvents := by unfold setS; split <;> rfl
@[simp] theorem setS_wgbVanish (r : Nat) (v : W32) (d : TileData) : (setS r v d).wgbVanish = d.wgbVanish := by unfold setS; split <;> rfl
@[simp] theorem setS_wgbNonfinite (r : Nat) (v : W32) (d : TileData) : (setS r v d).wgbNonfinite = d.wgbNonfinite := by unfold setS; split <;> rfl
@[simp] theorem setS_quantLsb (r : Nat) (v : W32) (d : TileData) : (setS r v d).quantLsb = d.quantLsb := by unfold setS; split <;> rfl
@[simp] theorem setS_quantConv (r : Nat) (v : W32) (d : TileData) : (setS r v d).quantConv = d.quantConv := by unfold setS; split <;> rfl
@[simp] theorem setS_quantVan (r : Nat) (v : W32) (d : TileData) : (setS r v d).quantVan = d.quantVan := by unfold setS; split <;> rfl
@[simp] theorem setS_quantFault (r : Nat) (v : W32) (d : TileData) : (setS r v d).quantFault = d.quantFault := by unfold setS; split <;> rfl

/-! ## setP -/

@[simp] theorem setP_sreg (r : Nat) (v : W32) (d : TileData) : (setP r v d).sreg = d.sreg := by unfold setP; split <;> rfl
@[simp] theorem setP_vreg (r : Nat) (v : W32) (d : TileData) : (setP r v d).vreg = d.vreg := by unfold setP; split <;> rfl
@[simp] theorem setP_pc (r : Nat) (v : W32) (d : TileData) : (setP r v d).pc = d.pc := by unfold setP; split <;> rfl
@[simp] theorem setP_loops (r : Nat) (v : W32) (d : TileData) : (setP r v d).loops = d.loops := by unfold setP; split <;> rfl
@[simp] theorem setP_imem (r : Nat) (v : W32) (d : TileData) : (setP r v d).imem = d.imem := by unfold setP; split <;> rfl
@[simp] theorem setP_imemBad (r : Nat) (v : W32) (d : TileData) : (setP r v d).imemBad = d.imemBad := by unfold setP; split <;> rfl
@[simp] theorem setP_image (r : Nat) (v : W32) (d : TileData) : (setP r v d).image = d.image := by unfold setP; split <;> rfl
@[simp] theorem setP_imemTrap (r : Nat) (v : W32) (d : TileData) : (setP r v d).imemTrap = d.imemTrap := by unfold setP; split <;> rfl
@[simp] theorem setP_st (r : Nat) (v : W32) (d : TileData) : (setP r v d).st = d.st := by unfold setP; split <;> rfl
@[simp] theorem setP_wait (r : Nat) (v : W32) (d : TileData) : (setP r v d).wait = d.wait := by unfold setP; split <;> rfl
@[simp] theorem setP_exiting (r : Nat) (v : W32) (d : TileData) : (setP r v d).exiting = d.exiting := by unfold setP; split <;> rfl
@[simp] theorem setP_latch (r : Nat) (v : W32) (d : TileData) : (setP r v d).latch = d.latch := by unfold setP; split <;> rfl
@[simp] theorem setP_skipBreak (r : Nat) (v : W32) (d : TileData) : (setP r v d).skipBreak = d.skipBreak := by unfold setP; split <;> rfl
@[simp] theorem setP_oneBundle (r : Nat) (v : W32) (d : TileData) : (setP r v d).oneBundle = d.oneBundle := by unfold setP; split <;> rfl
@[simp] theorem setP_stopDue (r : Nat) (v : W32) (d : TileData) : (setP r v d).stopDue = d.stopDue := by unfold setP; split <;> rfl
@[simp] theorem setP_faultsDue (r : Nat) (v : W32) (d : TileData) : (setP r v d).faultsDue = d.faultsDue := by unfold setP; split <;> rfl
@[simp] theorem setP_shown (r : Nat) (v : W32) (d : TileData) : (setP r v d).shown = d.shown := by unfold setP; split <;> rfl
@[simp] theorem setP_waitLimit (r : Nat) (v : W32) (d : TileData) : (setP r v d).waitLimit = d.waitLimit := by unfold setP; split <;> rfl
@[simp] theorem setP_singleStep (r : Nat) (v : W32) (d : TileData) : (setP r v d).singleStep = d.singleStep := by unfold setP; split <;> rfl
@[simp] theorem setP_breakEnable (r : Nat) (v : W32) (d : TileData) : (setP r v d).breakEnable = d.breakEnable := by unfold setP; split <;> rfl
@[simp] theorem setP_startPc (r : Nat) (v : W32) (d : TileData) : (setP r v d).startPc = d.startPc := by unfold setP; split <;> rfl
@[simp] theorem setP_trap (r : Nat) (v : W32) (d : TileData) : (setP r v d).trap = d.trap := by unfold setP; split <;> rfl
@[simp] theorem setP_breakPcEn (r : Nat) (v : W32) (d : TileData) : (setP r v d).breakPcEn = d.breakPcEn := by unfold setP; split <;> rfl
@[simp] theorem setP_breakPc (r : Nat) (v : W32) (d : TileData) : (setP r v d).breakPc = d.breakPc := by unfold setP; split <;> rfl
@[simp] theorem setP_freeze (r : Nat) (v : W32) (d : TileData) : (setP r v d).freeze = d.freeze := by unfold setP; split <;> rfl
@[simp] theorem setP_scr (r : Nat) (v : W32) (d : TileData) : (setP r v d).scr = d.scr := by unfold setP; split <;> rfl
@[simp] theorem setP_ctr (r : Nat) (v : W32) (d : TileData) : (setP r v d).ctr = d.ctr := by unfold setP; split <;> rfl
@[simp] theorem setP_nextIssue (r : Nat) (v : W32) (d : TileData) : (setP r v d).nextIssue = d.nextIssue := by unfold setP; split <;> rfl
@[simp] theorem setP_ready (r : Nat) (v : W32) (d : TileData) : (setP r v d).ready = d.ready := by unfold setP; split <;> rfl
@[simp] theorem setP_lands (r : Nat) (v : W32) (d : TileData) : (setP r v d).lands = d.lands := by unfold setP; split <;> rfl
@[simp] theorem setP_xpend (r : Nat) (v : W32) (d : TileData) : (setP r v d).xpend = d.xpend := by unfold setP; split <;> rfl
@[simp] theorem setP_nfFreeze (r : Nat) (v : W32) (d : TileData) : (setP r v d).nfFreeze = d.nfFreeze := by unfold setP; split <;> rfl
@[simp] theorem setP_nfResults (r : Nat) (v : W32) (d : TileData) : (setP r v d).nfResults = d.nfResults := by unfold setP; split <;> rfl
@[simp] theorem setP_nfInvalid (r : Nat) (v : W32) (d : TileData) : (setP r v d).nfInvalid = d.nfInvalid := by unfold setP; split <;> rfl
@[simp] theorem setP_nfOverflow (r : Nat) (v : W32) (d : TileData) : (setP r v d).nfOverflow = d.nfOverflow := by unfold setP; split <;> rfl
@[simp] theorem setP_nfDivzero (r : Nat) (v : W32) (d : TileData) : (setP r v d).nfDivzero = d.nfDivzero := by unfold setP; split <;> rfl
@[simp] theorem setP_nfFirst (r : Nat) (v : W32) (d : TileData) : (setP r v d).nfFirst = d.nfFirst := by unfold setP; split <;> rfl
@[simp] theorem setP_cvFreeze (r : Nat) (v : W32) (d : TileData) : (setP r v d).cvFreeze = d.cvFreeze := by unfold setP; split <;> rfl
@[simp] theorem setP_cv (r : Nat) (v : W32) (d : TileData) : (setP r v d).cv = d.cv := by unfold setP; split <;> rfl
@[simp] theorem setP_wbuf (r : Nat) (v : W32) (d : TileData) : (setP r v d).wbuf = d.wbuf := by unfold setP; split <;> rfl
@[simp] theorem setP_wIssued (r : Nat) (v : W32) (d : TileData) : (setP r v d).wIssued = d.wIssued := by unfold setP; split <;> rfl
@[simp] theorem setP_coll (r : Nat) (v : W32) (d : TileData) : (setP r v d).coll = d.coll := by unfold setP; split <;> rfl
@[simp] theorem setP_mq (r : Nat) (v : W32) (d : TileData) : (setP r v d).mq = d.mq := by unfold setP; split <;> rfl
@[simp] theorem setP_mruns (r : Nat) (v : W32) (d : TileData) : (setP r v d).mruns = d.mruns := by unfold setP; split <;> rfl
@[simp] theorem setP_mloads (r : Nat) (v : W32) (d : TileData) : (setP r v d).mloads = d.mloads := by unfold setP; split <;> rfl
@[simp] theorem setP_drain (r : Nat) (v : W32) (d : TileData) : (setP r v d).drain = d.drain := by unfold setP; split <;> rfl
@[simp] theorem setP_drainFree (r : Nat) (v : W32) (d : TileData) : (setP r v d).drainFree = d.drainFree := by unfold setP; split <;> rfl
@[simp] theorem setP_wpathFree (r : Nat) (v : W32) (d : TileData) : (setP r v d).wpathFree = d.wpathFree := by unfold setP; split <;> rfl
@[simp] theorem setP_stream (r : Nat) (v : W32) (d : TileData) : (setP r v d).stream = d.stream := by unfold setP; split <;> rfl
@[simp] theorem setP_mstarts (r : Nat) (v : W32) (d : TileData) : (setP r v d).mstarts = d.mstarts := by unfold setP; split <;> rfl
@[simp] theorem setP_mdeps (r : Nat) (v : W32) (d : TileData) : (setP r v d).mdeps = d.mdeps := by unfold setP; split <;> rfl
@[simp] theorem setP_maNonfinite (r : Nat) (v : W32) (d : TileData) : (setP r v d).maNonfinite = d.maNonfinite := by unfold setP; split <;> rfl
@[simp] theorem setP_maCellOps (r : Nat) (v : W32) (d : TileData) : (setP r v d).maCellOps = d.maCellOps := by unfold setP; split <;> rfl
@[simp] theorem setP_maGatedOps (r : Nat) (v : W32) (d : TileData) : (setP r v d).maGatedOps = d.maGatedOps := by unfold setP; split <;> rfl
@[simp] theorem setP_scratch (r : Nat) (v : W32) (d : TileData) : (setP r v d).scratch = d.scratch := by unfold setP; split <;> rfl
@[simp] theorem setP_spBad (r : Nat) (v : W32) (d : TileData) : (setP r v d).spBad = d.spBad := by unfold setP; split <;> rfl
@[simp] theorem setP_spLast (r : Nat) (v : W32) (d : TileData) : (setP r v d).spLast = d.spLast := by unfold setP; split <;> rfl
@[simp] theorem setP_spOld (r : Nat) (v : W32) (d : TileData) : (setP r v d).spOld = d.spOld := by unfold setP; split <;> rfl
@[simp] theorem setP_spParity (r : Nat) (v : W32) (d : TileData) : (setP r v d).spParity = d.spParity := by unfold setP; split <;> rfl
@[simp] theorem setP_regions (r : Nat) (v : W32) (d : TileData) : (setP r v d).regions = d.regions := by unfold setP; split <;> rfl
@[simp] theorem setP_wins (r : Nat) (v : W32) (d : TileData) : (setP r v d).wins = d.wins := by unfold setP; split <;> rfl
@[simp] theorem setP_denied (r : Nat) (v : W32) (d : TileData) : (setP r v d).denied = d.denied := by unfold setP; split <;> rfl
@[simp] theorem setP_dmaq (r : Nat) (v : W32) (d : TileData) : (setP r v d).dmaq = d.dmaq := by unfold setP; split <;> rfl
@[simp] theorem setP_armed (r : Nat) (v : W32) (d : TileData) : (setP r v d).armed = d.armed := by unfold setP; split <;> rfl
@[simp] theorem setP_disarming (r : Nat) (v : W32) (d : TileData) : (setP r v d).disarming = d.disarming := by unfold setP; split <;> rfl
@[simp] theorem setP_recvDone (r : Nat) (v : W32) (d : TileData) : (setP r v d).recvDone = d.recvDone := by unfold setP; split <;> rfl
@[simp] theorem setP_xoFree (r : Nat) (v : W32) (d : TileData) : (setP r v d).xoFree = d.xoFree := by unfold setP; split <;> rfl
@[simp] theorem setP_beatsOut (r : Nat) (v : W32) (d : TileData) : (setP r v d).beatsOut = d.beatsOut := by unfold setP; split <;> rfl
@[simp] theorem setP_beatsIn (r : Nat) (v : W32) (d : TileData) : (setP r v d).beatsIn = d.beatsIn := by unfold setP; split <;> rfl
@[simp] theorem setP_xchFaults (r : Nat) (v : W32) (d : TileData) : (setP r v d).xchFaults = d.xchFaults := by unfold setP; split <;> rfl
@[simp] theorem setP_stallLimit (r : Nat) (v : W32) (d : TileData) : (setP r v d).stallLimit = d.stallLimit := by unfold setP; split <;> rfl
@[simp] theorem setP_handles (r : Nat) (v : W32) (d : TileData) : (setP r v d).handles = d.handles := by unfold setP; split <;> rfl
@[simp] theorem setP_copens (r : Nat) (v : W32) (d : TileData) : (setP r v d).copens = d.copens := by unfold setP; split <;> rfl
@[simp] theorem setP_dropped (r : Nat) (v : W32) (d : TileData) : (setP r v d).dropped = d.dropped := by unfold setP; split <;> rfl
@[simp] theorem setP_sendTimeouts (r : Nat) (v : W32) (d : TileData) : (setP r v d).sendTimeouts = d.sendTimeouts := by unfold setP; split <;> rfl
@[simp] theorem setP_recvTimeouts (r : Nat) (v : W32) (d : TileData) : (setP r v d).recvTimeouts = d.recvTimeouts := by unfold setP; split <;> rfl
@[simp] theorem setP_sigs (r : Nat) (v : W32) (d : TileData) : (setP r v d).sigs = d.sigs := by unfold setP; split <;> rfl
@[simp] theorem setP_queues (r : Nat) (v : W32) (d : TileData) : (setP r v d).queues = d.queues := by unfold setP; split <;> rfl
@[simp] theorem setP_bytesIn (r : Nat) (v : W32) (d : TileData) : (setP r v d).bytesIn = d.bytesIn := by unfold setP; split <;> rfl
@[simp] theorem setP_bytesOut (r : Nat) (v : W32) (d : TileData) : (setP r v d).bytesOut = d.bytesOut := by unfold setP; split <;> rfl
@[simp] theorem setP_streamFault (r : Nat) (v : W32) (d : TileData) : (setP r v d).streamFault = d.streamFault := by unfold setP; split <;> rfl
@[simp] theorem setP_wgb (r : Nat) (v : W32) (d : TileData) : (setP r v d).wgb = d.wgb := by unfold setP; split <;> rfl
@[simp] theorem setP_wgbExact (r : Nat) (v : W32) (d : TileData) : (setP r v d).wgbExact = d.wgbExact := by unfold setP; split <;> rfl
@[simp] theorem setP_wgbLsb (r : Nat) (v : W32) (d : TileData) : (setP r v d).wgbLsb = d.wgbLsb := by unfold setP; split <;> rfl
@[simp] theorem setP_wgbFilled (r : Nat) (v : W32) (d : TileData) : (setP r v d).wgbFilled = d.wgbFilled := by unfold setP; split <;> rfl
@[simp] theorem setP_wgbRead (r : Nat) (v : W32) (d : TileData) : (setP r v d).wgbRead = d.wgbRead := by unfold setP; split <;> rfl
@[simp] theorem setP_wgbEvents (r : Nat) (v : W32) (d : TileData) : (setP r v d).wgbEvents = d.wgbEvents := by unfold setP; split <;> rfl
@[simp] theorem setP_wgbVanish (r : Nat) (v : W32) (d : TileData) : (setP r v d).wgbVanish = d.wgbVanish := by unfold setP; split <;> rfl
@[simp] theorem setP_wgbNonfinite (r : Nat) (v : W32) (d : TileData) : (setP r v d).wgbNonfinite = d.wgbNonfinite := by unfold setP; split <;> rfl
@[simp] theorem setP_quantLsb (r : Nat) (v : W32) (d : TileData) : (setP r v d).quantLsb = d.quantLsb := by unfold setP; split <;> rfl
@[simp] theorem setP_quantConv (r : Nat) (v : W32) (d : TileData) : (setP r v d).quantConv = d.quantConv := by unfold setP; split <;> rfl
@[simp] theorem setP_quantVan (r : Nat) (v : W32) (d : TileData) : (setP r v d).quantVan = d.quantVan := by unfold setP; split <;> rfl
@[simp] theorem setP_quantFault (r : Nat) (v : W32) (d : TileData) : (setP r v d).quantFault = d.quantFault := by unfold setP; split <;> rfl

/-! ## setL -/

@[simp] theorem setL_sreg (r i : Nat) (v : W32) (d : TileData) : (setL r i v d).sreg = d.sreg := by unfold setL; rfl
@[simp] theorem setL_preg (r i : Nat) (v : W32) (d : TileData) : (setL r i v d).preg = d.preg := by unfold setL; rfl
@[simp] theorem setL_pc (r i : Nat) (v : W32) (d : TileData) : (setL r i v d).pc = d.pc := by unfold setL; rfl
@[simp] theorem setL_loops (r i : Nat) (v : W32) (d : TileData) : (setL r i v d).loops = d.loops := by unfold setL; rfl
@[simp] theorem setL_imem (r i : Nat) (v : W32) (d : TileData) : (setL r i v d).imem = d.imem := by unfold setL; rfl
@[simp] theorem setL_imemBad (r i : Nat) (v : W32) (d : TileData) : (setL r i v d).imemBad = d.imemBad := by unfold setL; rfl
@[simp] theorem setL_image (r i : Nat) (v : W32) (d : TileData) : (setL r i v d).image = d.image := by unfold setL; rfl
@[simp] theorem setL_imemTrap (r i : Nat) (v : W32) (d : TileData) : (setL r i v d).imemTrap = d.imemTrap := by unfold setL; rfl
@[simp] theorem setL_st (r i : Nat) (v : W32) (d : TileData) : (setL r i v d).st = d.st := by unfold setL; rfl
@[simp] theorem setL_wait (r i : Nat) (v : W32) (d : TileData) : (setL r i v d).wait = d.wait := by unfold setL; rfl
@[simp] theorem setL_exiting (r i : Nat) (v : W32) (d : TileData) : (setL r i v d).exiting = d.exiting := by unfold setL; rfl
@[simp] theorem setL_latch (r i : Nat) (v : W32) (d : TileData) : (setL r i v d).latch = d.latch := by unfold setL; rfl
@[simp] theorem setL_skipBreak (r i : Nat) (v : W32) (d : TileData) : (setL r i v d).skipBreak = d.skipBreak := by unfold setL; rfl
@[simp] theorem setL_oneBundle (r i : Nat) (v : W32) (d : TileData) : (setL r i v d).oneBundle = d.oneBundle := by unfold setL; rfl
@[simp] theorem setL_stopDue (r i : Nat) (v : W32) (d : TileData) : (setL r i v d).stopDue = d.stopDue := by unfold setL; rfl
@[simp] theorem setL_faultsDue (r i : Nat) (v : W32) (d : TileData) : (setL r i v d).faultsDue = d.faultsDue := by unfold setL; rfl
@[simp] theorem setL_shown (r i : Nat) (v : W32) (d : TileData) : (setL r i v d).shown = d.shown := by unfold setL; rfl
@[simp] theorem setL_waitLimit (r i : Nat) (v : W32) (d : TileData) : (setL r i v d).waitLimit = d.waitLimit := by unfold setL; rfl
@[simp] theorem setL_singleStep (r i : Nat) (v : W32) (d : TileData) : (setL r i v d).singleStep = d.singleStep := by unfold setL; rfl
@[simp] theorem setL_breakEnable (r i : Nat) (v : W32) (d : TileData) : (setL r i v d).breakEnable = d.breakEnable := by unfold setL; rfl
@[simp] theorem setL_startPc (r i : Nat) (v : W32) (d : TileData) : (setL r i v d).startPc = d.startPc := by unfold setL; rfl
@[simp] theorem setL_trap (r i : Nat) (v : W32) (d : TileData) : (setL r i v d).trap = d.trap := by unfold setL; rfl
@[simp] theorem setL_breakPcEn (r i : Nat) (v : W32) (d : TileData) : (setL r i v d).breakPcEn = d.breakPcEn := by unfold setL; rfl
@[simp] theorem setL_breakPc (r i : Nat) (v : W32) (d : TileData) : (setL r i v d).breakPc = d.breakPc := by unfold setL; rfl
@[simp] theorem setL_freeze (r i : Nat) (v : W32) (d : TileData) : (setL r i v d).freeze = d.freeze := by unfold setL; rfl
@[simp] theorem setL_scr (r i : Nat) (v : W32) (d : TileData) : (setL r i v d).scr = d.scr := by unfold setL; rfl
@[simp] theorem setL_ctr (r i : Nat) (v : W32) (d : TileData) : (setL r i v d).ctr = d.ctr := by unfold setL; rfl
@[simp] theorem setL_nextIssue (r i : Nat) (v : W32) (d : TileData) : (setL r i v d).nextIssue = d.nextIssue := by unfold setL; rfl
@[simp] theorem setL_ready (r i : Nat) (v : W32) (d : TileData) : (setL r i v d).ready = d.ready := by unfold setL; rfl
@[simp] theorem setL_lands (r i : Nat) (v : W32) (d : TileData) : (setL r i v d).lands = d.lands := by unfold setL; rfl
@[simp] theorem setL_xpend (r i : Nat) (v : W32) (d : TileData) : (setL r i v d).xpend = d.xpend := by unfold setL; rfl
@[simp] theorem setL_nfFreeze (r i : Nat) (v : W32) (d : TileData) : (setL r i v d).nfFreeze = d.nfFreeze := by unfold setL; rfl
@[simp] theorem setL_nfResults (r i : Nat) (v : W32) (d : TileData) : (setL r i v d).nfResults = d.nfResults := by unfold setL; rfl
@[simp] theorem setL_nfInvalid (r i : Nat) (v : W32) (d : TileData) : (setL r i v d).nfInvalid = d.nfInvalid := by unfold setL; rfl
@[simp] theorem setL_nfOverflow (r i : Nat) (v : W32) (d : TileData) : (setL r i v d).nfOverflow = d.nfOverflow := by unfold setL; rfl
@[simp] theorem setL_nfDivzero (r i : Nat) (v : W32) (d : TileData) : (setL r i v d).nfDivzero = d.nfDivzero := by unfold setL; rfl
@[simp] theorem setL_nfFirst (r i : Nat) (v : W32) (d : TileData) : (setL r i v d).nfFirst = d.nfFirst := by unfold setL; rfl
@[simp] theorem setL_cvFreeze (r i : Nat) (v : W32) (d : TileData) : (setL r i v d).cvFreeze = d.cvFreeze := by unfold setL; rfl
@[simp] theorem setL_cv (r i : Nat) (v : W32) (d : TileData) : (setL r i v d).cv = d.cv := by unfold setL; rfl
@[simp] theorem setL_wbuf (r i : Nat) (v : W32) (d : TileData) : (setL r i v d).wbuf = d.wbuf := by unfold setL; rfl
@[simp] theorem setL_wIssued (r i : Nat) (v : W32) (d : TileData) : (setL r i v d).wIssued = d.wIssued := by unfold setL; rfl
@[simp] theorem setL_coll (r i : Nat) (v : W32) (d : TileData) : (setL r i v d).coll = d.coll := by unfold setL; rfl
@[simp] theorem setL_mq (r i : Nat) (v : W32) (d : TileData) : (setL r i v d).mq = d.mq := by unfold setL; rfl
@[simp] theorem setL_mruns (r i : Nat) (v : W32) (d : TileData) : (setL r i v d).mruns = d.mruns := by unfold setL; rfl
@[simp] theorem setL_mloads (r i : Nat) (v : W32) (d : TileData) : (setL r i v d).mloads = d.mloads := by unfold setL; rfl
@[simp] theorem setL_drain (r i : Nat) (v : W32) (d : TileData) : (setL r i v d).drain = d.drain := by unfold setL; rfl
@[simp] theorem setL_drainFree (r i : Nat) (v : W32) (d : TileData) : (setL r i v d).drainFree = d.drainFree := by unfold setL; rfl
@[simp] theorem setL_wpathFree (r i : Nat) (v : W32) (d : TileData) : (setL r i v d).wpathFree = d.wpathFree := by unfold setL; rfl
@[simp] theorem setL_stream (r i : Nat) (v : W32) (d : TileData) : (setL r i v d).stream = d.stream := by unfold setL; rfl
@[simp] theorem setL_mstarts (r i : Nat) (v : W32) (d : TileData) : (setL r i v d).mstarts = d.mstarts := by unfold setL; rfl
@[simp] theorem setL_mdeps (r i : Nat) (v : W32) (d : TileData) : (setL r i v d).mdeps = d.mdeps := by unfold setL; rfl
@[simp] theorem setL_maNonfinite (r i : Nat) (v : W32) (d : TileData) : (setL r i v d).maNonfinite = d.maNonfinite := by unfold setL; rfl
@[simp] theorem setL_maCellOps (r i : Nat) (v : W32) (d : TileData) : (setL r i v d).maCellOps = d.maCellOps := by unfold setL; rfl
@[simp] theorem setL_maGatedOps (r i : Nat) (v : W32) (d : TileData) : (setL r i v d).maGatedOps = d.maGatedOps := by unfold setL; rfl
@[simp] theorem setL_scratch (r i : Nat) (v : W32) (d : TileData) : (setL r i v d).scratch = d.scratch := by unfold setL; rfl
@[simp] theorem setL_spBad (r i : Nat) (v : W32) (d : TileData) : (setL r i v d).spBad = d.spBad := by unfold setL; rfl
@[simp] theorem setL_spLast (r i : Nat) (v : W32) (d : TileData) : (setL r i v d).spLast = d.spLast := by unfold setL; rfl
@[simp] theorem setL_spOld (r i : Nat) (v : W32) (d : TileData) : (setL r i v d).spOld = d.spOld := by unfold setL; rfl
@[simp] theorem setL_spParity (r i : Nat) (v : W32) (d : TileData) : (setL r i v d).spParity = d.spParity := by unfold setL; rfl
@[simp] theorem setL_regions (r i : Nat) (v : W32) (d : TileData) : (setL r i v d).regions = d.regions := by unfold setL; rfl
@[simp] theorem setL_wins (r i : Nat) (v : W32) (d : TileData) : (setL r i v d).wins = d.wins := by unfold setL; rfl
@[simp] theorem setL_denied (r i : Nat) (v : W32) (d : TileData) : (setL r i v d).denied = d.denied := by unfold setL; rfl
@[simp] theorem setL_dmaq (r i : Nat) (v : W32) (d : TileData) : (setL r i v d).dmaq = d.dmaq := by unfold setL; rfl
@[simp] theorem setL_armed (r i : Nat) (v : W32) (d : TileData) : (setL r i v d).armed = d.armed := by unfold setL; rfl
@[simp] theorem setL_disarming (r i : Nat) (v : W32) (d : TileData) : (setL r i v d).disarming = d.disarming := by unfold setL; rfl
@[simp] theorem setL_recvDone (r i : Nat) (v : W32) (d : TileData) : (setL r i v d).recvDone = d.recvDone := by unfold setL; rfl
@[simp] theorem setL_xoFree (r i : Nat) (v : W32) (d : TileData) : (setL r i v d).xoFree = d.xoFree := by unfold setL; rfl
@[simp] theorem setL_beatsOut (r i : Nat) (v : W32) (d : TileData) : (setL r i v d).beatsOut = d.beatsOut := by unfold setL; rfl
@[simp] theorem setL_beatsIn (r i : Nat) (v : W32) (d : TileData) : (setL r i v d).beatsIn = d.beatsIn := by unfold setL; rfl
@[simp] theorem setL_xchFaults (r i : Nat) (v : W32) (d : TileData) : (setL r i v d).xchFaults = d.xchFaults := by unfold setL; rfl
@[simp] theorem setL_stallLimit (r i : Nat) (v : W32) (d : TileData) : (setL r i v d).stallLimit = d.stallLimit := by unfold setL; rfl
@[simp] theorem setL_handles (r i : Nat) (v : W32) (d : TileData) : (setL r i v d).handles = d.handles := by unfold setL; rfl
@[simp] theorem setL_copens (r i : Nat) (v : W32) (d : TileData) : (setL r i v d).copens = d.copens := by unfold setL; rfl
@[simp] theorem setL_dropped (r i : Nat) (v : W32) (d : TileData) : (setL r i v d).dropped = d.dropped := by unfold setL; rfl
@[simp] theorem setL_sendTimeouts (r i : Nat) (v : W32) (d : TileData) : (setL r i v d).sendTimeouts = d.sendTimeouts := by unfold setL; rfl
@[simp] theorem setL_recvTimeouts (r i : Nat) (v : W32) (d : TileData) : (setL r i v d).recvTimeouts = d.recvTimeouts := by unfold setL; rfl
@[simp] theorem setL_sigs (r i : Nat) (v : W32) (d : TileData) : (setL r i v d).sigs = d.sigs := by unfold setL; rfl
@[simp] theorem setL_queues (r i : Nat) (v : W32) (d : TileData) : (setL r i v d).queues = d.queues := by unfold setL; rfl
@[simp] theorem setL_bytesIn (r i : Nat) (v : W32) (d : TileData) : (setL r i v d).bytesIn = d.bytesIn := by unfold setL; rfl
@[simp] theorem setL_bytesOut (r i : Nat) (v : W32) (d : TileData) : (setL r i v d).bytesOut = d.bytesOut := by unfold setL; rfl
@[simp] theorem setL_streamFault (r i : Nat) (v : W32) (d : TileData) : (setL r i v d).streamFault = d.streamFault := by unfold setL; rfl
@[simp] theorem setL_wgb (r i : Nat) (v : W32) (d : TileData) : (setL r i v d).wgb = d.wgb := by unfold setL; rfl
@[simp] theorem setL_wgbExact (r i : Nat) (v : W32) (d : TileData) : (setL r i v d).wgbExact = d.wgbExact := by unfold setL; rfl
@[simp] theorem setL_wgbLsb (r i : Nat) (v : W32) (d : TileData) : (setL r i v d).wgbLsb = d.wgbLsb := by unfold setL; rfl
@[simp] theorem setL_wgbFilled (r i : Nat) (v : W32) (d : TileData) : (setL r i v d).wgbFilled = d.wgbFilled := by unfold setL; rfl
@[simp] theorem setL_wgbRead (r i : Nat) (v : W32) (d : TileData) : (setL r i v d).wgbRead = d.wgbRead := by unfold setL; rfl
@[simp] theorem setL_wgbEvents (r i : Nat) (v : W32) (d : TileData) : (setL r i v d).wgbEvents = d.wgbEvents := by unfold setL; rfl
@[simp] theorem setL_wgbVanish (r i : Nat) (v : W32) (d : TileData) : (setL r i v d).wgbVanish = d.wgbVanish := by unfold setL; rfl
@[simp] theorem setL_wgbNonfinite (r i : Nat) (v : W32) (d : TileData) : (setL r i v d).wgbNonfinite = d.wgbNonfinite := by unfold setL; rfl
@[simp] theorem setL_quantLsb (r i : Nat) (v : W32) (d : TileData) : (setL r i v d).quantLsb = d.quantLsb := by unfold setL; rfl
@[simp] theorem setL_quantConv (r i : Nat) (v : W32) (d : TileData) : (setL r i v d).quantConv = d.quantConv := by unfold setL; rfl
@[simp] theorem setL_quantVan (r i : Nat) (v : W32) (d : TileData) : (setL r i v d).quantVan = d.quantVan := by unfold setL; rfl
@[simp] theorem setL_quantFault (r i : Nat) (v : W32) (d : TileData) : (setL r i v d).quantFault = d.quantFault := by unfold setL; rfl

/-! ## spPut -/

@[simp] theorem spPut_sreg (a : Nat) (v : W32) (d : TileData) : (spPut a v d).sreg = d.sreg := by unfold spPut; rfl
@[simp] theorem spPut_vreg (a : Nat) (v : W32) (d : TileData) : (spPut a v d).vreg = d.vreg := by unfold spPut; rfl
@[simp] theorem spPut_preg (a : Nat) (v : W32) (d : TileData) : (spPut a v d).preg = d.preg := by unfold spPut; rfl
@[simp] theorem spPut_pc (a : Nat) (v : W32) (d : TileData) : (spPut a v d).pc = d.pc := by unfold spPut; rfl
@[simp] theorem spPut_loops (a : Nat) (v : W32) (d : TileData) : (spPut a v d).loops = d.loops := by unfold spPut; rfl
@[simp] theorem spPut_imem (a : Nat) (v : W32) (d : TileData) : (spPut a v d).imem = d.imem := by unfold spPut; rfl
@[simp] theorem spPut_imemBad (a : Nat) (v : W32) (d : TileData) : (spPut a v d).imemBad = d.imemBad := by unfold spPut; rfl
@[simp] theorem spPut_image (a : Nat) (v : W32) (d : TileData) : (spPut a v d).image = d.image := by unfold spPut; rfl
@[simp] theorem spPut_imemTrap (a : Nat) (v : W32) (d : TileData) : (spPut a v d).imemTrap = d.imemTrap := by unfold spPut; rfl
@[simp] theorem spPut_st (a : Nat) (v : W32) (d : TileData) : (spPut a v d).st = d.st := by unfold spPut; rfl
@[simp] theorem spPut_wait (a : Nat) (v : W32) (d : TileData) : (spPut a v d).wait = d.wait := by unfold spPut; rfl
@[simp] theorem spPut_exiting (a : Nat) (v : W32) (d : TileData) : (spPut a v d).exiting = d.exiting := by unfold spPut; rfl
@[simp] theorem spPut_latch (a : Nat) (v : W32) (d : TileData) : (spPut a v d).latch = d.latch := by unfold spPut; rfl
@[simp] theorem spPut_skipBreak (a : Nat) (v : W32) (d : TileData) : (spPut a v d).skipBreak = d.skipBreak := by unfold spPut; rfl
@[simp] theorem spPut_oneBundle (a : Nat) (v : W32) (d : TileData) : (spPut a v d).oneBundle = d.oneBundle := by unfold spPut; rfl
@[simp] theorem spPut_stopDue (a : Nat) (v : W32) (d : TileData) : (spPut a v d).stopDue = d.stopDue := by unfold spPut; rfl
@[simp] theorem spPut_faultsDue (a : Nat) (v : W32) (d : TileData) : (spPut a v d).faultsDue = d.faultsDue := by unfold spPut; rfl
@[simp] theorem spPut_shown (a : Nat) (v : W32) (d : TileData) : (spPut a v d).shown = d.shown := by unfold spPut; rfl
@[simp] theorem spPut_waitLimit (a : Nat) (v : W32) (d : TileData) : (spPut a v d).waitLimit = d.waitLimit := by unfold spPut; rfl
@[simp] theorem spPut_singleStep (a : Nat) (v : W32) (d : TileData) : (spPut a v d).singleStep = d.singleStep := by unfold spPut; rfl
@[simp] theorem spPut_breakEnable (a : Nat) (v : W32) (d : TileData) : (spPut a v d).breakEnable = d.breakEnable := by unfold spPut; rfl
@[simp] theorem spPut_startPc (a : Nat) (v : W32) (d : TileData) : (spPut a v d).startPc = d.startPc := by unfold spPut; rfl
@[simp] theorem spPut_trap (a : Nat) (v : W32) (d : TileData) : (spPut a v d).trap = d.trap := by unfold spPut; rfl
@[simp] theorem spPut_breakPcEn (a : Nat) (v : W32) (d : TileData) : (spPut a v d).breakPcEn = d.breakPcEn := by unfold spPut; rfl
@[simp] theorem spPut_breakPc (a : Nat) (v : W32) (d : TileData) : (spPut a v d).breakPc = d.breakPc := by unfold spPut; rfl
@[simp] theorem spPut_freeze (a : Nat) (v : W32) (d : TileData) : (spPut a v d).freeze = d.freeze := by unfold spPut; rfl
@[simp] theorem spPut_scr (a : Nat) (v : W32) (d : TileData) : (spPut a v d).scr = d.scr := by unfold spPut; rfl
@[simp] theorem spPut_ctr (a : Nat) (v : W32) (d : TileData) : (spPut a v d).ctr = d.ctr := by unfold spPut; rfl
@[simp] theorem spPut_nextIssue (a : Nat) (v : W32) (d : TileData) : (spPut a v d).nextIssue = d.nextIssue := by unfold spPut; rfl
@[simp] theorem spPut_ready (a : Nat) (v : W32) (d : TileData) : (spPut a v d).ready = d.ready := by unfold spPut; rfl
@[simp] theorem spPut_lands (a : Nat) (v : W32) (d : TileData) : (spPut a v d).lands = d.lands := by unfold spPut; rfl
@[simp] theorem spPut_xpend (a : Nat) (v : W32) (d : TileData) : (spPut a v d).xpend = d.xpend := by unfold spPut; rfl
@[simp] theorem spPut_nfFreeze (a : Nat) (v : W32) (d : TileData) : (spPut a v d).nfFreeze = d.nfFreeze := by unfold spPut; rfl
@[simp] theorem spPut_nfResults (a : Nat) (v : W32) (d : TileData) : (spPut a v d).nfResults = d.nfResults := by unfold spPut; rfl
@[simp] theorem spPut_nfInvalid (a : Nat) (v : W32) (d : TileData) : (spPut a v d).nfInvalid = d.nfInvalid := by unfold spPut; rfl
@[simp] theorem spPut_nfOverflow (a : Nat) (v : W32) (d : TileData) : (spPut a v d).nfOverflow = d.nfOverflow := by unfold spPut; rfl
@[simp] theorem spPut_nfDivzero (a : Nat) (v : W32) (d : TileData) : (spPut a v d).nfDivzero = d.nfDivzero := by unfold spPut; rfl
@[simp] theorem spPut_nfFirst (a : Nat) (v : W32) (d : TileData) : (spPut a v d).nfFirst = d.nfFirst := by unfold spPut; rfl
@[simp] theorem spPut_cvFreeze (a : Nat) (v : W32) (d : TileData) : (spPut a v d).cvFreeze = d.cvFreeze := by unfold spPut; rfl
@[simp] theorem spPut_cv (a : Nat) (v : W32) (d : TileData) : (spPut a v d).cv = d.cv := by unfold spPut; rfl
@[simp] theorem spPut_wbuf (a : Nat) (v : W32) (d : TileData) : (spPut a v d).wbuf = d.wbuf := by unfold spPut; rfl
@[simp] theorem spPut_wIssued (a : Nat) (v : W32) (d : TileData) : (spPut a v d).wIssued = d.wIssued := by unfold spPut; rfl
@[simp] theorem spPut_coll (a : Nat) (v : W32) (d : TileData) : (spPut a v d).coll = d.coll := by unfold spPut; rfl
@[simp] theorem spPut_mq (a : Nat) (v : W32) (d : TileData) : (spPut a v d).mq = d.mq := by unfold spPut; rfl
@[simp] theorem spPut_mruns (a : Nat) (v : W32) (d : TileData) : (spPut a v d).mruns = d.mruns := by unfold spPut; rfl
@[simp] theorem spPut_mloads (a : Nat) (v : W32) (d : TileData) : (spPut a v d).mloads = d.mloads := by unfold spPut; rfl
@[simp] theorem spPut_drain (a : Nat) (v : W32) (d : TileData) : (spPut a v d).drain = d.drain := by unfold spPut; rfl
@[simp] theorem spPut_drainFree (a : Nat) (v : W32) (d : TileData) : (spPut a v d).drainFree = d.drainFree := by unfold spPut; rfl
@[simp] theorem spPut_wpathFree (a : Nat) (v : W32) (d : TileData) : (spPut a v d).wpathFree = d.wpathFree := by unfold spPut; rfl
@[simp] theorem spPut_stream (a : Nat) (v : W32) (d : TileData) : (spPut a v d).stream = d.stream := by unfold spPut; rfl
@[simp] theorem spPut_mstarts (a : Nat) (v : W32) (d : TileData) : (spPut a v d).mstarts = d.mstarts := by unfold spPut; rfl
@[simp] theorem spPut_mdeps (a : Nat) (v : W32) (d : TileData) : (spPut a v d).mdeps = d.mdeps := by unfold spPut; rfl
@[simp] theorem spPut_maNonfinite (a : Nat) (v : W32) (d : TileData) : (spPut a v d).maNonfinite = d.maNonfinite := by unfold spPut; rfl
@[simp] theorem spPut_maCellOps (a : Nat) (v : W32) (d : TileData) : (spPut a v d).maCellOps = d.maCellOps := by unfold spPut; rfl
@[simp] theorem spPut_maGatedOps (a : Nat) (v : W32) (d : TileData) : (spPut a v d).maGatedOps = d.maGatedOps := by unfold spPut; rfl
@[simp] theorem spPut_spLast (a : Nat) (v : W32) (d : TileData) : (spPut a v d).spLast = d.spLast := by unfold spPut; rfl
@[simp] theorem spPut_spOld (a : Nat) (v : W32) (d : TileData) : (spPut a v d).spOld = d.spOld := by unfold spPut; rfl
@[simp] theorem spPut_spParity (a : Nat) (v : W32) (d : TileData) : (spPut a v d).spParity = d.spParity := by unfold spPut; rfl
@[simp] theorem spPut_regions (a : Nat) (v : W32) (d : TileData) : (spPut a v d).regions = d.regions := by unfold spPut; rfl
@[simp] theorem spPut_wins (a : Nat) (v : W32) (d : TileData) : (spPut a v d).wins = d.wins := by unfold spPut; rfl
@[simp] theorem spPut_denied (a : Nat) (v : W32) (d : TileData) : (spPut a v d).denied = d.denied := by unfold spPut; rfl
@[simp] theorem spPut_dmaq (a : Nat) (v : W32) (d : TileData) : (spPut a v d).dmaq = d.dmaq := by unfold spPut; rfl
@[simp] theorem spPut_armed (a : Nat) (v : W32) (d : TileData) : (spPut a v d).armed = d.armed := by unfold spPut; rfl
@[simp] theorem spPut_disarming (a : Nat) (v : W32) (d : TileData) : (spPut a v d).disarming = d.disarming := by unfold spPut; rfl
@[simp] theorem spPut_recvDone (a : Nat) (v : W32) (d : TileData) : (spPut a v d).recvDone = d.recvDone := by unfold spPut; rfl
@[simp] theorem spPut_xoFree (a : Nat) (v : W32) (d : TileData) : (spPut a v d).xoFree = d.xoFree := by unfold spPut; rfl
@[simp] theorem spPut_beatsOut (a : Nat) (v : W32) (d : TileData) : (spPut a v d).beatsOut = d.beatsOut := by unfold spPut; rfl
@[simp] theorem spPut_beatsIn (a : Nat) (v : W32) (d : TileData) : (spPut a v d).beatsIn = d.beatsIn := by unfold spPut; rfl
@[simp] theorem spPut_xchFaults (a : Nat) (v : W32) (d : TileData) : (spPut a v d).xchFaults = d.xchFaults := by unfold spPut; rfl
@[simp] theorem spPut_stallLimit (a : Nat) (v : W32) (d : TileData) : (spPut a v d).stallLimit = d.stallLimit := by unfold spPut; rfl
@[simp] theorem spPut_handles (a : Nat) (v : W32) (d : TileData) : (spPut a v d).handles = d.handles := by unfold spPut; rfl
@[simp] theorem spPut_copens (a : Nat) (v : W32) (d : TileData) : (spPut a v d).copens = d.copens := by unfold spPut; rfl
@[simp] theorem spPut_dropped (a : Nat) (v : W32) (d : TileData) : (spPut a v d).dropped = d.dropped := by unfold spPut; rfl
@[simp] theorem spPut_sendTimeouts (a : Nat) (v : W32) (d : TileData) : (spPut a v d).sendTimeouts = d.sendTimeouts := by unfold spPut; rfl
@[simp] theorem spPut_recvTimeouts (a : Nat) (v : W32) (d : TileData) : (spPut a v d).recvTimeouts = d.recvTimeouts := by unfold spPut; rfl
@[simp] theorem spPut_sigs (a : Nat) (v : W32) (d : TileData) : (spPut a v d).sigs = d.sigs := by unfold spPut; rfl
@[simp] theorem spPut_queues (a : Nat) (v : W32) (d : TileData) : (spPut a v d).queues = d.queues := by unfold spPut; rfl
@[simp] theorem spPut_bytesIn (a : Nat) (v : W32) (d : TileData) : (spPut a v d).bytesIn = d.bytesIn := by unfold spPut; rfl
@[simp] theorem spPut_bytesOut (a : Nat) (v : W32) (d : TileData) : (spPut a v d).bytesOut = d.bytesOut := by unfold spPut; rfl
@[simp] theorem spPut_streamFault (a : Nat) (v : W32) (d : TileData) : (spPut a v d).streamFault = d.streamFault := by unfold spPut; rfl
@[simp] theorem spPut_wgb (a : Nat) (v : W32) (d : TileData) : (spPut a v d).wgb = d.wgb := by unfold spPut; rfl
@[simp] theorem spPut_wgbExact (a : Nat) (v : W32) (d : TileData) : (spPut a v d).wgbExact = d.wgbExact := by unfold spPut; rfl
@[simp] theorem spPut_wgbLsb (a : Nat) (v : W32) (d : TileData) : (spPut a v d).wgbLsb = d.wgbLsb := by unfold spPut; rfl
@[simp] theorem spPut_wgbFilled (a : Nat) (v : W32) (d : TileData) : (spPut a v d).wgbFilled = d.wgbFilled := by unfold spPut; rfl
@[simp] theorem spPut_wgbRead (a : Nat) (v : W32) (d : TileData) : (spPut a v d).wgbRead = d.wgbRead := by unfold spPut; rfl
@[simp] theorem spPut_wgbEvents (a : Nat) (v : W32) (d : TileData) : (spPut a v d).wgbEvents = d.wgbEvents := by unfold spPut; rfl
@[simp] theorem spPut_wgbVanish (a : Nat) (v : W32) (d : TileData) : (spPut a v d).wgbVanish = d.wgbVanish := by unfold spPut; rfl
@[simp] theorem spPut_wgbNonfinite (a : Nat) (v : W32) (d : TileData) : (spPut a v d).wgbNonfinite = d.wgbNonfinite := by unfold spPut; rfl
@[simp] theorem spPut_quantLsb (a : Nat) (v : W32) (d : TileData) : (spPut a v d).quantLsb = d.quantLsb := by unfold spPut; rfl
@[simp] theorem spPut_quantConv (a : Nat) (v : W32) (d : TileData) : (spPut a v d).quantConv = d.quantConv := by unfold spPut; rfl
@[simp] theorem spPut_quantVan (a : Nat) (v : W32) (d : TileData) : (spPut a v d).quantVan = d.quantVan := by unfold spPut; rfl
@[simp] theorem spPut_quantFault (a : Nat) (v : W32) (d : TileData) : (spPut a v d).quantFault = d.quantFault := by unfold spPut; rfl

/-! ## addCtr -/

@[simp] theorem addCtr_sreg (k n : Nat) (d : TileData) : (addCtr k n d).sreg = d.sreg := by unfold addCtr; split <;> rfl
@[simp] theorem addCtr_vreg (k n : Nat) (d : TileData) : (addCtr k n d).vreg = d.vreg := by unfold addCtr; split <;> rfl
@[simp] theorem addCtr_preg (k n : Nat) (d : TileData) : (addCtr k n d).preg = d.preg := by unfold addCtr; split <;> rfl
@[simp] theorem addCtr_pc (k n : Nat) (d : TileData) : (addCtr k n d).pc = d.pc := by unfold addCtr; split <;> rfl
@[simp] theorem addCtr_loops (k n : Nat) (d : TileData) : (addCtr k n d).loops = d.loops := by unfold addCtr; split <;> rfl
@[simp] theorem addCtr_imem (k n : Nat) (d : TileData) : (addCtr k n d).imem = d.imem := by unfold addCtr; split <;> rfl
@[simp] theorem addCtr_imemBad (k n : Nat) (d : TileData) : (addCtr k n d).imemBad = d.imemBad := by unfold addCtr; split <;> rfl
@[simp] theorem addCtr_image (k n : Nat) (d : TileData) : (addCtr k n d).image = d.image := by unfold addCtr; split <;> rfl
@[simp] theorem addCtr_imemTrap (k n : Nat) (d : TileData) : (addCtr k n d).imemTrap = d.imemTrap := by unfold addCtr; split <;> rfl
@[simp] theorem addCtr_st (k n : Nat) (d : TileData) : (addCtr k n d).st = d.st := by unfold addCtr; split <;> rfl
@[simp] theorem addCtr_wait (k n : Nat) (d : TileData) : (addCtr k n d).wait = d.wait := by unfold addCtr; split <;> rfl
@[simp] theorem addCtr_exiting (k n : Nat) (d : TileData) : (addCtr k n d).exiting = d.exiting := by unfold addCtr; split <;> rfl
@[simp] theorem addCtr_latch (k n : Nat) (d : TileData) : (addCtr k n d).latch = d.latch := by unfold addCtr; split <;> rfl
@[simp] theorem addCtr_skipBreak (k n : Nat) (d : TileData) : (addCtr k n d).skipBreak = d.skipBreak := by unfold addCtr; split <;> rfl
@[simp] theorem addCtr_oneBundle (k n : Nat) (d : TileData) : (addCtr k n d).oneBundle = d.oneBundle := by unfold addCtr; split <;> rfl
@[simp] theorem addCtr_stopDue (k n : Nat) (d : TileData) : (addCtr k n d).stopDue = d.stopDue := by unfold addCtr; split <;> rfl
@[simp] theorem addCtr_faultsDue (k n : Nat) (d : TileData) : (addCtr k n d).faultsDue = d.faultsDue := by unfold addCtr; split <;> rfl
@[simp] theorem addCtr_shown (k n : Nat) (d : TileData) : (addCtr k n d).shown = d.shown := by unfold addCtr; split <;> rfl
@[simp] theorem addCtr_waitLimit (k n : Nat) (d : TileData) : (addCtr k n d).waitLimit = d.waitLimit := by unfold addCtr; split <;> rfl
@[simp] theorem addCtr_singleStep (k n : Nat) (d : TileData) : (addCtr k n d).singleStep = d.singleStep := by unfold addCtr; split <;> rfl
@[simp] theorem addCtr_breakEnable (k n : Nat) (d : TileData) : (addCtr k n d).breakEnable = d.breakEnable := by unfold addCtr; split <;> rfl
@[simp] theorem addCtr_startPc (k n : Nat) (d : TileData) : (addCtr k n d).startPc = d.startPc := by unfold addCtr; split <;> rfl
@[simp] theorem addCtr_trap (k n : Nat) (d : TileData) : (addCtr k n d).trap = d.trap := by unfold addCtr; split <;> rfl
@[simp] theorem addCtr_breakPcEn (k n : Nat) (d : TileData) : (addCtr k n d).breakPcEn = d.breakPcEn := by unfold addCtr; split <;> rfl
@[simp] theorem addCtr_breakPc (k n : Nat) (d : TileData) : (addCtr k n d).breakPc = d.breakPc := by unfold addCtr; split <;> rfl
@[simp] theorem addCtr_freeze (k n : Nat) (d : TileData) : (addCtr k n d).freeze = d.freeze := by unfold addCtr; split <;> rfl
@[simp] theorem addCtr_scr (k n : Nat) (d : TileData) : (addCtr k n d).scr = d.scr := by unfold addCtr; split <;> rfl
@[simp] theorem addCtr_nextIssue (k n : Nat) (d : TileData) : (addCtr k n d).nextIssue = d.nextIssue := by unfold addCtr; split <;> rfl
@[simp] theorem addCtr_ready (k n : Nat) (d : TileData) : (addCtr k n d).ready = d.ready := by unfold addCtr; split <;> rfl
@[simp] theorem addCtr_lands (k n : Nat) (d : TileData) : (addCtr k n d).lands = d.lands := by unfold addCtr; split <;> rfl
@[simp] theorem addCtr_xpend (k n : Nat) (d : TileData) : (addCtr k n d).xpend = d.xpend := by unfold addCtr; split <;> rfl
@[simp] theorem addCtr_nfFreeze (k n : Nat) (d : TileData) : (addCtr k n d).nfFreeze = d.nfFreeze := by unfold addCtr; split <;> rfl
@[simp] theorem addCtr_nfResults (k n : Nat) (d : TileData) : (addCtr k n d).nfResults = d.nfResults := by unfold addCtr; split <;> rfl
@[simp] theorem addCtr_nfInvalid (k n : Nat) (d : TileData) : (addCtr k n d).nfInvalid = d.nfInvalid := by unfold addCtr; split <;> rfl
@[simp] theorem addCtr_nfOverflow (k n : Nat) (d : TileData) : (addCtr k n d).nfOverflow = d.nfOverflow := by unfold addCtr; split <;> rfl
@[simp] theorem addCtr_nfDivzero (k n : Nat) (d : TileData) : (addCtr k n d).nfDivzero = d.nfDivzero := by unfold addCtr; split <;> rfl
@[simp] theorem addCtr_nfFirst (k n : Nat) (d : TileData) : (addCtr k n d).nfFirst = d.nfFirst := by unfold addCtr; split <;> rfl
@[simp] theorem addCtr_cvFreeze (k n : Nat) (d : TileData) : (addCtr k n d).cvFreeze = d.cvFreeze := by unfold addCtr; split <;> rfl
@[simp] theorem addCtr_cv (k n : Nat) (d : TileData) : (addCtr k n d).cv = d.cv := by unfold addCtr; split <;> rfl
@[simp] theorem addCtr_wbuf (k n : Nat) (d : TileData) : (addCtr k n d).wbuf = d.wbuf := by unfold addCtr; split <;> rfl
@[simp] theorem addCtr_wIssued (k n : Nat) (d : TileData) : (addCtr k n d).wIssued = d.wIssued := by unfold addCtr; split <;> rfl
@[simp] theorem addCtr_coll (k n : Nat) (d : TileData) : (addCtr k n d).coll = d.coll := by unfold addCtr; split <;> rfl
@[simp] theorem addCtr_mq (k n : Nat) (d : TileData) : (addCtr k n d).mq = d.mq := by unfold addCtr; split <;> rfl
@[simp] theorem addCtr_mruns (k n : Nat) (d : TileData) : (addCtr k n d).mruns = d.mruns := by unfold addCtr; split <;> rfl
@[simp] theorem addCtr_mloads (k n : Nat) (d : TileData) : (addCtr k n d).mloads = d.mloads := by unfold addCtr; split <;> rfl
@[simp] theorem addCtr_drain (k n : Nat) (d : TileData) : (addCtr k n d).drain = d.drain := by unfold addCtr; split <;> rfl
@[simp] theorem addCtr_drainFree (k n : Nat) (d : TileData) : (addCtr k n d).drainFree = d.drainFree := by unfold addCtr; split <;> rfl
@[simp] theorem addCtr_wpathFree (k n : Nat) (d : TileData) : (addCtr k n d).wpathFree = d.wpathFree := by unfold addCtr; split <;> rfl
@[simp] theorem addCtr_stream (k n : Nat) (d : TileData) : (addCtr k n d).stream = d.stream := by unfold addCtr; split <;> rfl
@[simp] theorem addCtr_mstarts (k n : Nat) (d : TileData) : (addCtr k n d).mstarts = d.mstarts := by unfold addCtr; split <;> rfl
@[simp] theorem addCtr_mdeps (k n : Nat) (d : TileData) : (addCtr k n d).mdeps = d.mdeps := by unfold addCtr; split <;> rfl
@[simp] theorem addCtr_maNonfinite (k n : Nat) (d : TileData) : (addCtr k n d).maNonfinite = d.maNonfinite := by unfold addCtr; split <;> rfl
@[simp] theorem addCtr_maCellOps (k n : Nat) (d : TileData) : (addCtr k n d).maCellOps = d.maCellOps := by unfold addCtr; split <;> rfl
@[simp] theorem addCtr_maGatedOps (k n : Nat) (d : TileData) : (addCtr k n d).maGatedOps = d.maGatedOps := by unfold addCtr; split <;> rfl
@[simp] theorem addCtr_scratch (k n : Nat) (d : TileData) : (addCtr k n d).scratch = d.scratch := by unfold addCtr; split <;> rfl
@[simp] theorem addCtr_spBad (k n : Nat) (d : TileData) : (addCtr k n d).spBad = d.spBad := by unfold addCtr; split <;> rfl
@[simp] theorem addCtr_spLast (k n : Nat) (d : TileData) : (addCtr k n d).spLast = d.spLast := by unfold addCtr; split <;> rfl
@[simp] theorem addCtr_spOld (k n : Nat) (d : TileData) : (addCtr k n d).spOld = d.spOld := by unfold addCtr; split <;> rfl
@[simp] theorem addCtr_spParity (k n : Nat) (d : TileData) : (addCtr k n d).spParity = d.spParity := by unfold addCtr; split <;> rfl
@[simp] theorem addCtr_regions (k n : Nat) (d : TileData) : (addCtr k n d).regions = d.regions := by unfold addCtr; split <;> rfl
@[simp] theorem addCtr_wins (k n : Nat) (d : TileData) : (addCtr k n d).wins = d.wins := by unfold addCtr; split <;> rfl
@[simp] theorem addCtr_denied (k n : Nat) (d : TileData) : (addCtr k n d).denied = d.denied := by unfold addCtr; split <;> rfl
@[simp] theorem addCtr_dmaq (k n : Nat) (d : TileData) : (addCtr k n d).dmaq = d.dmaq := by unfold addCtr; split <;> rfl
@[simp] theorem addCtr_armed (k n : Nat) (d : TileData) : (addCtr k n d).armed = d.armed := by unfold addCtr; split <;> rfl
@[simp] theorem addCtr_disarming (k n : Nat) (d : TileData) : (addCtr k n d).disarming = d.disarming := by unfold addCtr; split <;> rfl
@[simp] theorem addCtr_recvDone (k n : Nat) (d : TileData) : (addCtr k n d).recvDone = d.recvDone := by unfold addCtr; split <;> rfl
@[simp] theorem addCtr_xoFree (k n : Nat) (d : TileData) : (addCtr k n d).xoFree = d.xoFree := by unfold addCtr; split <;> rfl
@[simp] theorem addCtr_beatsOut (k n : Nat) (d : TileData) : (addCtr k n d).beatsOut = d.beatsOut := by unfold addCtr; split <;> rfl
@[simp] theorem addCtr_beatsIn (k n : Nat) (d : TileData) : (addCtr k n d).beatsIn = d.beatsIn := by unfold addCtr; split <;> rfl
@[simp] theorem addCtr_xchFaults (k n : Nat) (d : TileData) : (addCtr k n d).xchFaults = d.xchFaults := by unfold addCtr; split <;> rfl
@[simp] theorem addCtr_stallLimit (k n : Nat) (d : TileData) : (addCtr k n d).stallLimit = d.stallLimit := by unfold addCtr; split <;> rfl
@[simp] theorem addCtr_handles (k n : Nat) (d : TileData) : (addCtr k n d).handles = d.handles := by unfold addCtr; split <;> rfl
@[simp] theorem addCtr_copens (k n : Nat) (d : TileData) : (addCtr k n d).copens = d.copens := by unfold addCtr; split <;> rfl
@[simp] theorem addCtr_dropped (k n : Nat) (d : TileData) : (addCtr k n d).dropped = d.dropped := by unfold addCtr; split <;> rfl
@[simp] theorem addCtr_sendTimeouts (k n : Nat) (d : TileData) : (addCtr k n d).sendTimeouts = d.sendTimeouts := by unfold addCtr; split <;> rfl
@[simp] theorem addCtr_recvTimeouts (k n : Nat) (d : TileData) : (addCtr k n d).recvTimeouts = d.recvTimeouts := by unfold addCtr; split <;> rfl
@[simp] theorem addCtr_sigs (k n : Nat) (d : TileData) : (addCtr k n d).sigs = d.sigs := by unfold addCtr; split <;> rfl
@[simp] theorem addCtr_queues (k n : Nat) (d : TileData) : (addCtr k n d).queues = d.queues := by unfold addCtr; split <;> rfl
@[simp] theorem addCtr_bytesIn (k n : Nat) (d : TileData) : (addCtr k n d).bytesIn = d.bytesIn := by unfold addCtr; split <;> rfl
@[simp] theorem addCtr_bytesOut (k n : Nat) (d : TileData) : (addCtr k n d).bytesOut = d.bytesOut := by unfold addCtr; split <;> rfl
@[simp] theorem addCtr_streamFault (k n : Nat) (d : TileData) : (addCtr k n d).streamFault = d.streamFault := by unfold addCtr; split <;> rfl
@[simp] theorem addCtr_wgb (k n : Nat) (d : TileData) : (addCtr k n d).wgb = d.wgb := by unfold addCtr; split <;> rfl
@[simp] theorem addCtr_wgbExact (k n : Nat) (d : TileData) : (addCtr k n d).wgbExact = d.wgbExact := by unfold addCtr; split <;> rfl
@[simp] theorem addCtr_wgbLsb (k n : Nat) (d : TileData) : (addCtr k n d).wgbLsb = d.wgbLsb := by unfold addCtr; split <;> rfl
@[simp] theorem addCtr_wgbFilled (k n : Nat) (d : TileData) : (addCtr k n d).wgbFilled = d.wgbFilled := by unfold addCtr; split <;> rfl
@[simp] theorem addCtr_wgbRead (k n : Nat) (d : TileData) : (addCtr k n d).wgbRead = d.wgbRead := by unfold addCtr; split <;> rfl
@[simp] theorem addCtr_wgbEvents (k n : Nat) (d : TileData) : (addCtr k n d).wgbEvents = d.wgbEvents := by unfold addCtr; split <;> rfl
@[simp] theorem addCtr_wgbVanish (k n : Nat) (d : TileData) : (addCtr k n d).wgbVanish = d.wgbVanish := by unfold addCtr; split <;> rfl
@[simp] theorem addCtr_wgbNonfinite (k n : Nat) (d : TileData) : (addCtr k n d).wgbNonfinite = d.wgbNonfinite := by unfold addCtr; split <;> rfl
@[simp] theorem addCtr_quantLsb (k n : Nat) (d : TileData) : (addCtr k n d).quantLsb = d.quantLsb := by unfold addCtr; split <;> rfl
@[simp] theorem addCtr_quantConv (k n : Nat) (d : TileData) : (addCtr k n d).quantConv = d.quantConv := by unfold addCtr; split <;> rfl
@[simp] theorem addCtr_quantVan (k n : Nat) (d : TileData) : (addCtr k n d).quantVan = d.quantVan := by unfold addCtr; split <;> rfl
@[simp] theorem addCtr_quantFault (k n : Nat) (d : TileData) : (addCtr k n d).quantFault = d.quantFault := by unfold addCtr; split <;> rfl

@[simp] theorem setL_vreg (r i : Nat) (v : W32) (d : TileData) : (setL r i v d).vreg = mset 0 d.vreg (32 * r + i) v := by unfold setL; rfl
@[simp] theorem spPut_scratch (a : Nat) (v : W32) (d : TileData) : (spPut a v d).scratch = mset 0 d.scratch (a / 4) v := by unfold spPut; rfl
@[simp] theorem spPut_spBad (a : Nat) (v : W32) (d : TileData) : (spPut a v d).spBad = d.spBad.filter (· ≠ a / 4) := by unfold spPut; rfl

/-! ## Registers and scratchpad words -/

/-- s0 reads zero (R58). -/
@[simp] theorem getS_zero (d : TileData) : getS d 0 = 0 := rfl
/-- p0 reads all ones (R59). -/
@[simp] theorem getP_zero (d : TileData) : getP d 0 = BitVec.allOnes 32 := rfl
/-- A scalar register after a write: s0 keeps reading zero. -/
theorem getS_setS (r q : Nat) (v : W32) (d : TileData) : getS (setS r v d) q = if r = q ∧ q ≠ 0 then v else getS d q := by
  unfold getS setS
  by_cases hq : q = 0
  · simp [hq]
  · by_cases hr : r = 0
    · subst hr; simp [hq, Ne.symm hq]
    · simp [hq, hr, mget_mset]
/-- A predicate register after a write: p0 keeps reading all ones. -/
theorem getP_setP (r q : Nat) (v : W32) (d : TileData) : getP (setP r v d) q = if r = q ∧ q ≠ 0 then v else getP d q := by
  unfold getP setP
  by_cases hq : q = 0
  · simp [hq]
  · by_cases hr : r = 0
    · subst hr; simp [hq, Ne.symm hq]
    · simp [hq, hr, mget_mset]
/-- A vector lane after a write of a lane. -/
theorem getL_setL (r i q j : Nat) (v : W32) (d : TileData) (hi : i < 32) (hj : j < 32) :
    getL (setL r i v d) q j = if r = q ∧ i = j then v else getL d q j := by
  unfold getL; rw [setL_vreg, mget_mset]
  by_cases h : 32 * r + i = 32 * q + j
  · rw [if_pos h, if_pos (by omega)]
  · rw [if_neg h, if_neg (by omega)]
/-- A scratchpad word after a write of a word. -/
theorem spWord_spPut (a b : Nat) (v : W32) (d : TileData) : spWord (spPut a v d) b = if a / 4 = b / 4 then v else spWord d b := by
  unfold spWord; rw [spPut_scratch, mget_mset]

@[simp] theorem getS_setP (r q : Nat) (v : W32) (d : TileData) : getS (setP r v d) q = getS d q := by simp [getS]
@[simp] theorem getP_setS (r q : Nat) (v : W32) (d : TileData) : getP (setS r v d) q = getP d q := by simp [getP]
@[simp] theorem getL_setS (r q i : Nat) (v : W32) (d : TileData) : getL (setS r v d) q i = getL d q i := by simp [getL]
@[simp] theorem getL_setP (r q i : Nat) (v : W32) (d : TileData) : getL (setP r v d) q i = getL d q i := by simp [getL]
@[simp] theorem getS_setL (r i q : Nat) (v : W32) (d : TileData) : getS (setL r i v d) q = getS d q := by simp [getS]
@[simp] theorem getP_setL (r i q : Nat) (v : W32) (d : TileData) : getP (setL r i v d) q = getP d q := by simp [getP]
@[simp] theorem getS_spPut (a q : Nat) (v : W32) (d : TileData) : getS (spPut a v d) q = getS d q := by simp [getS]
@[simp] theorem getP_spPut (a q : Nat) (v : W32) (d : TileData) : getP (spPut a v d) q = getP d q := by simp [getP]
@[simp] theorem getL_spPut (a q i : Nat) (v : W32) (d : TileData) : getL (spPut a v d) q i = getL d q i := by simp [getL]
@[simp] theorem spWord_setS (r a : Nat) (v : W32) (d : TileData) : spWord (setS r v d) a = spWord d a := by simp [spWord]
@[simp] theorem spWord_setP (r a : Nat) (v : W32) (d : TileData) : spWord (setP r v d) a = spWord d a := by simp [spWord]
@[simp] theorem spWord_setL (r i a : Nat) (v : W32) (d : TileData) : spWord (setL r i v d) a = spWord d a := by simp [spWord]

/-- Lanes of a masked vector write: lane j of v r reads as f j where the mask has bit j, every other lane as before. -/
theorem getL_foldl_setL (l : List Nat) (r : Nat) (f : Nat → W32) (d : TileData) (q j : Nat) (hj : j < 32) (hl : ∀ i ∈ l, i < 32) :
    getL (l.foldl (fun d i => setL r i (f i) d) d) q j = if r = q ∧ j ∈ l then f j else getL d q j := by
  induction l generalizing d with
  | nil => simp
  | cons i t ih =>
    have hi := hl i (by simp)
    rw [List.foldl_cons, ih _ (fun x hx => hl x (by simp [hx])), getL_setL r i q j _ _ hi hj]
    by_cases h : r = q
    · by_cases h2 : j ∈ t
      · simp [h, h2]
      · by_cases h3 : i = j
        · subst h3; simp [h, h2]
        · simp [h, h2, h3, Ne.symm h3]
    · simp [h]

end Sys2Proof.Machine
end

