-- ==== Sys2Proof/Laws/Frames.lean ====
section
/-! SUPPORT. What the shared operations leave alone: reads of compiled beats, traps, waits and pointer follow-up keep the registers, the
scratchpad, the instruction memory, the arrays and the DRAM. -/

namespace Sys2Proof.Machine

/-- Two tile data agree on what programs compute with: registers, scratchpad, instruction memory, weight buffers and collectors. -/
structure CoreSame (d e : TileData) : Prop where
  sreg : e.sreg = d.sreg
  vreg : e.vreg = d.vreg
  preg : e.preg = d.preg
  scratch : e.scratch = d.scratch
  imem : e.imem = d.imem
  coll : e.coll = d.coll
  wbuf : e.wbuf = d.wbuf
  scr : e.scr = d.scr
  handles : e.handles = d.handles
  armed : e.armed = d.armed

theorem CoreSame.refl (d : TileData) : CoreSame d d := ⟨rfl, rfl, rfl, rfl, rfl, rfl, rfl, rfl, rfl, rfl⟩
theorem CoreSame.trans {d e f : TileData} (h : CoreSame d e) (g : CoreSame e f) : CoreSame d f :=
  ⟨g.1.trans h.1, g.2.trans h.2, g.3.trans h.3, g.4.trans h.4, g.5.trans h.5, g.6.trans h.6, g.7.trans h.7, g.8.trans h.8,
    g.9.trans h.9, g.10.trans h.10⟩

theorem CoreSame.foldl {α : Type} {f : TileData → α → TileData} (hf : ∀ d a, CoreSame d (f d a)) (l : List α) (d : TileData) :
    CoreSame d (l.foldl f d) := by
  induction l generalizing d with
  | nil => exact CoreSame.refl d
  | cons a r ih => exact (hf d a).trans (ih _)

/-- Two modules agree on every tile's core and on the DRAM. -/
structure Same (m n : Mod) : Prop where
  core : ∀ u, CoreSame (tdOf m u) (tdOf n u)
  dram : n.dram = m.dram
  dir : n.dir = m.dir

theorem Same.refl (m : Mod) : Same m m := ⟨fun _ => CoreSame.refl _, rfl, rfl⟩
theorem Same.trans {m n k : Mod} (h : Same m n) (g : Same n k) : Same m k :=
  ⟨fun u => (h.core u).trans (g.core u), g.dram.trans h.dram, g.dir.trans h.dir⟩

/-- A fold keeps what each of its steps keeps. -/
theorem Same.foldl {α : Type} {f : Mod → α → Mod} (hf : ∀ m a, Same m (f m a)) (l : List α) (m : Mod) : Same m (l.foldl f m) := by
  induction l generalizing m with
  | nil => exact Same.refl m
  | cons a r ih => exact (hf m a).trans (ih _)

theorem Same.ite {c : Prop} [Decidable c] {m a b : Mod} (ha : Same m a) (hb : Same m b) : Same m (if c then a else b) := by
  split
  · exact ha
  · exact hb

/-- A change of the data of one tile that keeps its core. -/
theorem Same.modTd {t : Nat} {f : TileData → TileData} (hf : ∀ d, CoreSame d (f d)) (m : Mod) : Same m (modTd t f m) := by
  refine ⟨fun u => ?_, by simp, by simp⟩
  rw [tdOf_modTd]; split
  · subst_vars; exact hf _
  · exact CoreSame.refl _

/-- A change of a tile that keeps its core. -/
theorem Same.modTile {t : Nat} {f : Tile → Tile} (hf : ∀ x, CoreSame x.d (f x).d) (m : Mod) : Same m (modTile t f m) := by
  refine ⟨fun u => ?_, by simp, by simp⟩
  rw [tdOf_modTile]; split
  · subst_vars; exact hf _
  · exact CoreSame.refl _

theorem Same.modPart (p : Nat) (f : Part → Part) (m : Mod) : Same m (modPart p f m) :=
  ⟨fun u => by rw [tdOf_modPart]; exact CoreSame.refl _, by simp, by simp⟩
theorem Same.modPort (p : Nat) (f : Port → Port) (m : Mod) : Same m (modPort p f m) :=
  ⟨fun u => by rw [tdOf_modPort]; exact CoreSame.refl _, by simp, by simp⟩
theorem Same.modEp (p : Nat) (f : Ep → Ep) (m : Mod) : Same m (modEp p f m) :=
  ⟨fun u => by rw [tdOf_modEp]; exact CoreSame.refl _, by simp, by simp⟩
theorem Same.modBar (p : Nat) (f : Bar → Bar) (m : Mod) : Same m (modBar p f m) :=
  ⟨fun u => by rw [tdOf_modBar]; exact CoreSame.refl _, by simp, by simp⟩
theorem Same.emit (o : Out) (m : Mod) : Same m (emit o m) :=
  ⟨fun u => by rw [tdOf_emit]; exact CoreSame.refl _, by simp, by simp⟩

theorem signalAt_same (p c d t : Nat) (a : BitVec 48 × Nat) (m : Mod) : Same m (signalAt p c d t a m) := Same.modPart _ _ _
theorem signalModule_same (p c d : Nat) (m : Mod) : Same m (signalModule p c d m) := signalAt_same ..
theorem signalTile_same (t c d : Nat) (a : BitVec 48 × Nat) (m : Mod) : Same m (signalTile t c d a m) := by
  unfold signalTile; split
  · exact signalAt_same ..
  · exact Same.refl m

theorem addCtr_core (k n : Nat) (d : TileData) : CoreSame d (addCtr k n d) := by
  constructor <;> simp
theorem countWait_core (c : Nat) (d : TileData) : CoreSame d (countWait c d) := by
  unfold countWait; split
  · exact (addCtr_core _ _ d).trans ((addCtr_core _ _ _).trans ⟨rfl, rfl, rfl, rfl, rfl, rfl, rfl, rfl, rfl, rfl⟩)
  · exact CoreSame.refl d
theorem countIdle_core (c : Nat) (d : TileData) : CoreSame d (countIdle c d) := by
  unfold countIdle; split
  · exact addCtr_core ..
  · exact CoreSame.refl d
theorem recordTrap_core (pc sl ca i cy : Nat) (a : BitVec 48 × Nat) (d : TileData) : CoreSame d (recordTrap pc sl ca i cy a d) := by
  unfold recordTrap; split
  · exact ⟨rfl, rfl, rfl, rfl, rfl, rfl, rfl, rfl, rfl, rfl⟩
  · exact (countIdle_core cy d).trans ((countWait_core cy _).trans ⟨rfl, rfl, rfl, rfl, rfl, rfl, rfl, rfl, rfl, rfl⟩)
theorem spRecord_core (c port : Nat) (l : List Nat) (d : TileData) : CoreSame d (spRecord c port l d) := by
  unfold spRecord
  refine CoreSame.foldl ?_ _ _; intro d a; exact ⟨rfl, rfl, rfl, rfl, rfl, rfl, rfl, rfl, rfl, rfl⟩

theorem leaveWait_same (t c : Nat) (m : Mod) : Same m (leaveWait t c m) := by
  unfold leaveWait; dsimp only
  split
  · split
    · exact Same.modEp ..
    · exact Same.refl m
  · split
    · exact Same.modEp ..
    · exact Same.refl m
  · exact Same.modBar ..
  · exact Same.refl m

/-- Taking a trap leaves registers, memories and arrays as they are. -/
theorem trapTile_same (t pc sl ca i cy : Nat) (bk q : Bool) (m : Mod) : Same m (trapTile t pc sl ca i cy bk q m) := by
  unfold trapTile; dsimp only
  split
  · exact Same.refl m
  · split
    · exact (leaveWait_same ..).trans (Same.modTile (fun x => recordTrap_core ..) _)
    · refine Same.trans ?_ (signalTile_same ..)
      exact (leaveWait_same ..).trans (Same.modTile (fun x => recordTrap_core ..) _)
/-- The same of a trap outside any bundle. -/
theorem trapLanding_same (t sl ca i : Nat) (m : Mod) (hb : (tileOf m t).bundle.isSome = false) : Same m (trapLanding t sl ca i m) := by
  have h : cutBundle t (nowOf m t) m = m := by
    rw [Option.isSome_eq_false_iff, Option.isNone_iff_eq_none] at hb
    simp only [cutBundle, hb]
  unfold trapLanding
  rw [h]
  exact trapTile_same ..

theorem takeFree_same (m : Mod) : Same m (takeFree m).2 := ⟨fun _ => CoreSame.refl _, rfl, rfl⟩
theorem takeLink_same (q c : Nat) (f l : Bool) (tg tr : Nat) (b : List W32) (m : Mod) : Same m (takeLink q c f l tg tr b m) :=
  (Same.modPort ..).trans (Same.emit ..)
theorem sendWaiting_same (q i : Nat) (m : Mod) : Same m (sendWaiting q i m) := by
  unfold sendWaiting; split
  · exact Same.refl m
  · dsimp only
    split
    · exact (Same.modPort ..).trans ((takeLink_same ..).trans (Same.emit ..))
    · exact (Same.modPort ..).trans (takeLink_same ..)
theorem resendNext_same (q : Nat) (b : LinkBeat) (r : List LinkBeat) (m : Mod) : Same m (resendNext q b r m) :=
  (Same.modPort ..).trans (Same.emit ..)
theorem serveLink_same (own : Bool) (q n : Nat) (m : Mod) : Same m (serveLink own q n m) := by
  induction n generalizing m with
  | zero => exact Same.refl m
  | succ n ih =>
    unfold serveLink
    dsimp only
    refine Same.ite (Same.refl m) ?_
    split
    · exact (resendNext_same ..).trans (ih _)
    · refine Same.ite (Same.refl m) ?_
      split
      · exact Same.refl m
      · exact (sendWaiting_same ..).trans (ih _)
theorem queueBeats_same (q : Nat) (l : List WaitBeat) (m : Mod) : Same m (queueBeats q l m) := by
  unfold queueBeats
  exact Same.ite (Same.refl m) ((Same.modPort ..).trans (serveLink_same ..))
theorem freeBeats_same (n : Nat) (m : Mod) : Same m (freeBeats n m).2 := by
  induction n generalizing m with
  | zero => exact Same.refl m
  | succ n ih => exact (takeFree_same m).trans (ih _)
theorem sendChanLink_same (q : Nat) (k : ChanPkt) (m : Mod) : Same m (sendChanLink q k m) := by
  unfold sendChanLink
  exact Same.ite (Same.refl m) ((freeBeats_same ..).trans (queueBeats_same ..))

theorem countQuant_core (c job src addr size : Nat) (l : List QElem) (d : TileData) : CoreSame d (countQuant c job src addr size l d) :=
  ⟨rfl, rfl, rfl, rfl, rfl, rfl, rfl, rfl, rfl, rfl⟩
theorem wgbExport_core (b : Nat) (d : TileData) : CoreSame d (wgbExport b d).2 := by
  unfold wgbExport; constructor <;> (dsimp only; (repeat' split) <;> rfl)
theorem readBeat_core (s : BeatSrc) (c : Nat) (b d : TileData) : CoreSame d (readBeat s c b d).2.2 := by
  unfold readBeat; split
  · exact CoreSame.refl d
  · exact wgbExport_core ..
  · exact CoreSame.refl d
theorem addContrib_same (c : ContribBeat) (m : Mod) : Same m (addContrib c m) := ⟨fun _ => CoreSame.refl _, rfl, rfl⟩
theorem noteRead_same (p t id : Nat) (src : BeatSrc) (c : Nat) (base : TileData) (m : Mod) : Same m (noteRead p t id src c base m) := by
  unfold noteRead
  refine Same.trans ?_ (Same.modPart ..)
  refine Same.modTd (fun d => (readBeat_core src c base d).trans ?_) m
  exact ⟨rfl, rfl, rfl, rfl, rfl, rfl, rfl, rfl, rfl, rfl⟩
theorem forwardCopy_same (p t : Nat) (ws : List W32) (b : Beat) (m : Mod) : Same m (forwardCopy p t ws b m) := by
  unfold forwardCopy; split
  · refine Same.trans ?_ (Same.ite (Same.refl _) (addContrib_same ..))
    refine Same.ite (Same.trans ?_ (signalTile_same ..)) ?_ <;> exact Same.modTd (fun d => countQuant_core ..) m
  · exact Same.ite (Same.refl m) (Same.modPart ..)
theorem forwardAll_same (p t : Nat) (ws : List W32) (l : List Beat) (m : Mod) : Same m (forwardAll p t ws l m) :=
  Same.foldl (fun m c => forwardCopy_same p t ws c m) l m
theorem readNext_same (p t c : Nat) (base : TileData) (m : Mod) : Same m (readNext p t c base m) := by
  unfold readNext
  dsimp only
  split
  · exact Same.refl m
  · have h := fun (b : Beat) => (noteRead_same p t b.id b.src b.readAt base m).trans
      (forwardAll_same p t (readBeat b.src b.readAt base (tdOf m t)).1 (copiesOf m p b.id) _)
    split
    · exact h _
    · refine (h _).trans (Same.modTd (fun d => ?_) _)
      exact ⟨rfl, rfl, rfl, rfl, rfl, rfl, rfl, rfl, rfl, rfl⟩
theorem readBeats_same (t c : Nat) (base : TileData) (m : Mod) : Same m (readBeats t c base m) := by
  unfold readBeats; split
  · exact Same.refl m
  · exact Same.foldl (fun m _ => readNext_same ..) _ _

/-- Where a tile has no beat to read, none is read. -/
theorem readBeats_none {t : Nat} {m : Mod} (h : noBeatToRead t m = true) (c : Nat) (base : TileData) : readBeats t c base m = m := by
  unfold readBeats
  split
  · rfl
  · rename_i p hp
    have hp8 : p ∈ List.range 8 := by
      unfold partOfTile partOfHalf at hp
      exact List.mem_of_find?_eq_some hp
    have hb := (List.all_eq_true.mp h) p hp8
    have hn : readNext p t c base m = m := by
      unfold readNext
      dsimp only
      split
      · rfl
      · rename_i b hf
        have hm := (List.all_eq_true.mp hb) b (List.mem_of_find?_eq_some hf)
        have hq := List.find?_some hf
        cases hs : b.src <;> rw [hs] at hm hq <;> simp_all
    have hl : ∀ l : List Beat, l.foldl (fun m _ => readNext p t c base m) m = m := by
      intro l
      induction l with
      | nil => rfl
      | cons a r ih => rw [List.foldl_cons, hn, ih]
    exact hl _
theorem readsDue_none {t : Nat} {m : Mod} {base : TileData} (h : (base.spBad.isEmpty || noBeatToRead t m) = true) (c : Nat) :
    readsDue t c base m = m := by
  unfold readsDue
  split
  · rfl
  · exact readBeats_none (by simp_all) c base

theorem modRegion_core (g : Nat) (f : Region → Region) (d : TileData) : CoreSame d (modRegion g f d) :=
  ⟨rfl, rfl, rfl, rfl, rfl, rfl, rfl, rfl, rfl, rfl⟩
theorem sendChan_same (q a : Nat) (k : ChanPkt) (m : Mod) : Same m (sendChan q a k m) := by
  unfold sendChan
  exact Same.ite ⟨fun _ => CoreSame.refl _, rfl, rfl⟩ (sendChanLink_same ..)
theorem dropOutgoing_same (o : Option Nat) (q : Nat) (m : Mod) : Same m (dropOutgoing o q m) := by
  unfold dropOutgoing
  have h : Same m { m with routeDrops := satAdd 32 m.routeDrops 1 } := ⟨fun _ => CoreSame.refl _, rfl, rfl⟩
  split
  · exact h.trans (signalModule_same ..)
  · exact h
theorem sendBack_same (a : Nat) (k : ChanPkt) (m : Mod) : Same m (sendBack a k m) := by
  unfold sendBack
  refine Same.ite (sendChan_same ..) ?_
  split
  · exact Same.ite (sendChan_same ..) (dropOutgoing_same ..)
  · exact dropOutgoing_same ..
theorem returnCredit_same (e cm c t u cy : Nat) (m : Mod) : Same m (returnCredit e cm c t u cy m) := by
  unfold returnCredit
  exact Same.ite (sendBack_same ..) (Same.modEp ..)
theorem passRecords_same (t g o n c : Nat) (m : Mod) : Same m (passRecords t g o n c m) := by
  unfold passRecords; split
  · exact Same.refl m
  · exact Same.trans (Same.modEp ..) (Same.foldl (fun m r => returnCredit_same ..) _ _)
theorem drParity_same (t : Nat) (l : List Nat) (m : Mod) : Same m (drParity t l m) := by
  unfold drParity; split
  · exact Same.refl m
  · split
    · refine Same.modTd (fun d => ?_) m
      exact ⟨rfl, rfl, rfl, rfl, rfl, rfl, rfl, rfl, rfl, rfl⟩
    · rename_i h
      refine Same.trans (Same.modTd (fun d => spRecord_core ..) m) (trapLanding_same _ _ _ _ _ ?_)
      rw [tileOf_modTd, if_pos rfl]
      simpa using h
theorem badPointer_same (t g : Nat) (m : Mod) : Same m (badPointer t g m) := by
  unfold badPointer
  exact Same.ite (Same.refl m) (Same.trans (Same.modTd (fun d => modRegion_core ..) m) (signalTile_same ..))
theorem rereadMirror_same (t g c : Nat) (m : Mod) : Same m (rereadMirror t g c m) := by
  unfold rereadMirror
  dsimp only
  split
  · exact Same.refl m
  · exact Same.trans (drParity_same ..)
      (Same.ite (Same.refl _) (Same.ite (Same.modTd (fun d => modRegion_core ..) _) (badPointer_same ..)))
  · exact Same.trans (drParity_same ..) (Same.ite (Same.refl _)
      (Same.ite (Same.trans (Same.modTd (fun d => modRegion_core ..) _) (passRecords_same ..)) (badPointer_same ..)))
theorem followHeads_same (t c : Nat) (l : List Nat) (m : Mod) : Same m (followHeads t c l m) := by
  unfold followHeads
  refine Same.foldl (fun m e => Same.ite ?_ (Same.refl m)) _ _
  have h : Same m (modTd t (modRegion e.1 (fun r => { r with badSeen := false })) m) := Same.modTd (fun d => modRegion_core ..) m
  exact Same.ite (h.trans (rereadMirror_same ..)) h
theorem takeDue_same (t : Nat) (m : Mod) (x : DueTrap) : Same m (takeDue t m x) :=
  (Same.modTd (fun _ => spRecord_core ..) m).trans (trapTile_same ..)
theorem dueTraps_same (t c : Nat) (m : Mod) : Same m (dueTraps t c m) := by
  unfold dueTraps
  refine Same.trans ?_ (Same.foldl (fun _ _ => takeDue_same ..) _ _)
  refine Same.modTd (fun d => ?_) m
  exact ⟨rfl, rfl, rfl, rfl, rfl, rfl, rfl, rfl, rfl, rfl⟩
theorem takeTraps_same (t pc c k : Nat) (l : List ExecTrap) (m : Mod) : Same m (takeTraps t pc c k l m) := by
  unfold takeTraps; dsimp only
  refine Same.trans ?_ (Same.modTd (fun d => ?_) _)
  · exact Same.foldl (fun _ _ => trapTile_same ..) _ _
  exact ⟨rfl, rfl, rfl, rfl, rfl, rfl, rfl, rfl, rfl, rfl⟩
theorem wakeUp_core (n : Nat) (w : WaitKind × Nat) (d : TileData) : CoreSame d { wakeUp n d with shown := w } :=
  (countWait_core n d).trans ⟨rfl, rfl, rfl, rfl, rfl, rfl, rfl, rfl, rfl, rfl⟩
theorem beginWait_core (w : WaitKind) (pc i : Nat) (d : TileData) : CoreSame d (beginWait w pc i d) :=
  ⟨rfl, rfl, rfl, rfl, rfl, rfl, rfl, rfl, rfl, rfl⟩
theorem endWait_same (t c : Nat) (m : Mod) : Same m (endWait t c m) := by
  unfold endWait
  dsimp only
  refine (dueTraps_same ..).trans (Same.ite (Same.refl _) (Same.ite (Same.trans ?_ (trapTile_same ..)) ?_)) <;>
    exact Same.modTd (fun d => wakeUp_core ..) _
theorem afterBundle_same (t c : Nat) (b : BundleCtx) (m : Mod) : Same m (afterBundle t c b m) := by
  unfold afterBundle
  refine Same.ite (Same.refl m) ?_
  split
  · refine Same.trans (Same.modTd (fun d => ?_) m) (endWait_same ..)
    exact ⟨rfl, rfl, rfl, rfl, rfl, rfl, rfl, rfl, rfl, rfl⟩
  · exact Same.modTd (fun d => beginWait_core ..) m
  · exact Same.ite (trapTile_same ..) (Same.refl m)

/-- What follows the end of a bundle besides `retireBundle` leaves registers, memories and arrays as they are. -/
theorem finishBundle_same (t : Nat) (m : Mod) (b : BundleCtx) (hb : (tileOf m t).bundle = some b) (hn : b.blocked = false) :
    ∃ n, Same m n ∧ Same (modTile t (retireTile n t b) n) (finishBundle t m) := by
  refine ⟨readBeats t (issueCycle m t b + 2) b.base m, readBeats_same .., ?_⟩
  unfold finishBundle
  rw [hb]
  simp only [hn]
  exact Same.trans (followHeads_same ..) (Same.trans (takeTraps_same ..) (afterBundle_same ..))

/-- Two tile data agree on all of the core but the scalar registers. -/
structure RestSame (d e : TileData) : Prop where
  vreg : e.vreg = d.vreg
  preg : e.preg = d.preg
  scratch : e.scratch = d.scratch
  imem : e.imem = d.imem
  coll : e.coll = d.coll
  wbuf : e.wbuf = d.wbuf
  scr : e.scr = d.scr
  handles : e.handles = d.handles
  armed : e.armed = d.armed

theorem RestSame.refl (d : TileData) : RestSame d d := ⟨rfl, rfl, rfl, rfl, rfl, rfl, rfl, rfl, rfl⟩
theorem RestSame.trans {d e f : TileData} (h : RestSame d e) (g : RestSame e f) : RestSame d f :=
  ⟨g.1.trans h.1, g.2.trans h.2, g.3.trans h.3, g.4.trans h.4, g.5.trans h.5, g.6.trans h.6, g.7.trans h.7, g.8.trans h.8,
    g.9.trans h.9⟩
theorem CoreSame.rest {d e : TileData} (h : CoreSame d e) : RestSame d e :=
  ⟨h.vreg, h.preg, h.scratch, h.imem, h.coll, h.wbuf, h.scr, h.handles, h.armed⟩
theorem RestSame.foldl {α : Type} {f : TileData → α → TileData} (hf : ∀ d a, RestSame d (f d a)) (l : List α) (d : TileData) :
    RestSame d (l.foldl f d) := by
  induction l generalizing d with
  | nil => exact RestSame.refl d
  | cons a r ih => exact (hf d a).trans (ih _)
theorem setS_rest (r : Nat) (v : W32) (d : TileData) : RestSame d (setS r v d) := by constructor <;> simp
theorem timeRead_rest (m : Mod) (t c fn rd : Nat) (d : TileData) : RestSame d (timeRead m t c fn rd d) := by
  unfold timeRead
  dsimp only
  split
  · exact RestSame.trans (setS_rest ..) ⟨rfl, rfl, rfl, rfl, rfl, rfl, rfl, rfl, rfl⟩
  all_goals exact setS_rest ..
theorem lateRead_rest (m : Mod) (t c : Nat) (b : TileData) (r : LateRead) (d : TileData) : RestSame d (lateRead m t c b r d) := by
  unfold lateRead; split
  · exact timeRead_rest ..
  · exact setS_rest ..
  · exact ⟨rfl, rfl, rfl, rfl, rfl, rfl, rfl, rfl, rfl⟩

theorem countInterlock_core (n : Nat) (d : TileData) : CoreSame d (countInterlock n d) := (addCtr_core 2 n d).trans (addCtr_core 0 n _)
theorem countBundle_core (n b : Nat) (d : TileData) : CoreSame d (countBundle n b d) :=
  (addCtr_core 3 b d).trans ((addCtr_core 1 1 _).trans (addCtr_core 0 n _))
theorem landResults_core (c k : Nat) (l : List Land) (d : TileData) : CoreSame d (landResults c k l d) := by
  exact ⟨rfl, rfl, rfl, rfl, rfl, rfl, rfl, rfl, rfl, rfl⟩
theorem stampStores_core (c k : Nat) (l : List (Nat × Nat)) (d : TileData) : CoreSame d (stampStores c k l d) :=
  ⟨rfl, rfl, rfl, rfl, rfl, rfl, rfl, rfl, rfl, rfl⟩
theorem goOn_core (c n : Nat) (b : BundleCtx) (d : TileData) : CoreSame d (goOn c n b d) :=
  ⟨rfl, rfl, rfl, rfl, rfl, rfl, rfl, rfl, rfl, rfl⟩

/-- The end of a bundle leaves what only slots write as it is; scalar registers change only by the bundle's TIME and CSRR. -/
theorem retireBundle_rest (m : Mod) (t : Nat) (b : BundleCtx) (d : TileData) : RestSame d (retireBundle m t b d) :=
  (countInterlock_core _ d).rest.trans ((RestSame.foldl (fun _ _ => lateRead_rest ..) b.late _).trans
    (((countBundle_core ..).trans ((landResults_core ..).trans ((stampStores_core ..).trans (goOn_core ..)))).rest))

theorem retireBundle_core (m : Mod) (t : Nat) (b : BundleCtx) (d : TileData) (h : b.late = []) : CoreSame d (retireBundle m t b d) := by
  unfold retireBundle
  rw [h]
  exact (countInterlock_core _ d).trans ((countBundle_core ..).trans ((landResults_core ..).trans ((stampStores_core ..).trans (goOn_core ..))))

/-- The end of a bundle without TIME, CSRR or a write of COUNTER_CONTROL keeps the core of every tile. -/
theorem finishBundle_core (t : Nat) (m : Mod) (b : BundleCtx) (hb : (tileOf m t).bundle = some b) (hn : b.blocked = false)
    (hl : b.late = []) : Same m (finishBundle t m) := by
  obtain ⟨n, h1, h2⟩ := finishBundle_same t m b hb hn
  exact h1.trans ((Same.modTile (fun x => retireBundle_core n t b x.d hl) n).trans h2)

/-- The end of a bundle keeps all of the core but scalar registers, which its TIME and CSRR write. -/
theorem finishBundle_rest (t : Nat) (m : Mod) (b : BundleCtx) (hb : (tileOf m t).bundle = some b) (hn : b.blocked = false) (u : Nat) :
    RestSame (tdOf m u) (tdOf (finishBundle t m) u) := by
  obtain ⟨n, h1, h2⟩ := finishBundle_same t m b hb hn
  refine (h1.core u).rest.trans (RestSame.trans ?_ (h2.core u).rest)
  rw [tdOf_modTile]; split
  · subst_vars; exact retireBundle_rest ..
  · exact RestSame.refl _

end Sys2Proof.Machine
end

