-- ==== Sys2Proof/Laws/Issue.lean ====
section
/-! SUPPORT. Issuing a slot instruction that raises no trap: the one lemma every slot instruction's law rests on. -/

namespace Sys2Proof.Machine

/-- The bundle a slot joins: the one in progress, or a new one. -/
def bundleOf (x : Tile) : BundleCtx := x.bundle.getD { base := x.d, earliest := x.d.nextIssue }

theorem bundleOf_base (x : Tile) : (bundleOf x).base = bundleBase x := by
  unfold bundleOf bundleBase; cases x.bundle <;> rfl

/-- What a slot instruction reads as it executes. -/
def envOf (e : SlotIns) (j : Issue) (m n : Mod) : SlotEnv :=
  { base := bundleBase (tileOf m j.tile.val), mask := execMask (bundleBase (tileOf m j.tile.val)) j
    cycle := issueCycle n j.tile.val (noteSlot e j (bundleOf (tileOf m j.tile.val)))
    sup := ((partOfTile n j.tile.val).map (fun p => (partOf n p).superstep)).getD 0 }

theorem beginBundle_some {t : Nat} {m : Mod} {b : BundleCtx} (h : (tileOf m t).bundle = some b) : beginBundle t m = m := by
  simp only [beginBundle, h]
theorem modTile_congr {t : Nat} {f g : Tile → Tile} (m : Mod) (h : f (tileOf m t) = g (tileOf m t)) : modTile t f m = modTile t g m := by
  unfold modTile mmod
  unfold tileOf at h
  rw [h]
theorem modTile_with (t : Nat) (f : Tile → Tile) (m : Mod) : modTile t f m = { m with tiles := (modTile t f m).tiles } := rfl
/-- Where no trap of an earlier bundle is still to come, none is taken. -/
theorem dueTraps_none {t c : Nat} {m : Mod} (hb : (tileOf m t).bundle = none) (h : (tdOf m t).faultsDue = []) :
    ∃ tl, dueTraps t c m = { m with tiles := tl } ∧ ∀ u, tileOf { m with tiles := tl } u = tileOf m u := by
  refine ⟨(modTd t (fun d => { d with faultsDue := d.faultsDue.filter (fun x => decide (c < x.cycle)) }) m).tiles, ?_, ?_⟩
  · unfold dueTraps; dsimp only; rw [h]; rfl
  · intro u
    have hu : tileOf (modTd t (fun d => { d with faultsDue := d.faultsDue.filter (fun x => decide (c < x.cycle)) }) m) u = tileOf m u := by
      rw [tileOf_modTd]; split
      · subst_vars
        have e : tileOf m u = { d := tdOf m u, bundle := none } := by rw [← hb]; rfl
        have e2 : ({ tdOf m u with faultsDue := [] } : TileData) = tdOf m u := by rw [← h]
        rw [hb, h, List.filter_nil, e2, Option.map_none, ← e]
      · rfl
    exact hu
theorem beginBundle_none {t : Nat} {m : Mod} (h : (tileOf m t).bundle = none) (hf : fetchTrap (tileOf m t).d = none)
    (hr : (tdOf m t).st = .running) (hd : (tdOf m t).faultsDue = []) (hs : ((tdOf m t).spBad.isEmpty || noBeatToRead t m) = true) :
    ∃ n, beginBundle t m = modTile t (fun x => { x with bundle := some { base := x.d, earliest := x.d.nextIssue } }) n ∧
      (∀ u, tileOf n u = tileOf m u) ∧ n = { m with tiles := n.tiles } := by
  obtain ⟨tl, e1, e2⟩ := dueTraps_none (c := (tdOf m t).nextIssue) h hd
  refine ⟨{ m with tiles := tl }, ?_, e2, rfl⟩
  have hq : tdOf { m with tiles := tl } t = (tileOf m t).d := congrArg Tile.d (e2 t)
  have hr' : (tileOf m t).d.st = .running := hr
  simp only [beginBundle, h, readsDue_none hs, e1, hq, hf, hr', ne_eq, not_true_eq_false, if_false]

/-- A slot instruction that is ready, listed and free of reserved fields: its tile enters the bundle `noteSlot` describes, its effect
runs, and the bundle ends unless a further slot follows. -/
theorem issueSlot_enters (e : SlotIns) (own : SlotEnv → Option (Nat × Nat × Nat)) (eff : SlotEnv → Mod → Mod) (j : Issue)
    (body : BitVec 22) (m : Mod) (hr : slotReady e.slot j e.srcs e.dests m = true) (hi : e.illegal = false) (ho : e.ok = true)
    (hc : e.csr = none) (hf : (e.flow && endsLoop (bundleBase (tileOf m j.tile.val))) = false) :
    ∃ n : Mod, (tileOf n j.tile.val).bundle = some (noteSlot e j (bundleOf (tileOf m j.tile.val))) ∧ (bundleOf (tileOf m j.tile.val)).blocked = false ∧
      (∀ u, tdOf n u = tdOf m u) ∧ (∀ u, j.tile.val ≠ u → tileOf n u = tileOf m u) ∧ n = { m with tiles := n.tiles } ∧
      (own (envOf e j m (beginBundle j.tile.val m)) = none → issueSlot e own eff j body m =
        if j.more && e.slot != .x then eff (envOf e j m (beginBundle j.tile.val m)) n
        else finishBundle j.tile.val (eff (envOf e j m (beginBundle j.tile.val m)) n)) := by
  obtain ⟨t, pred, pneg, more⟩ := j
  simp only [slotReady, Bool.and_eq_true, Bool.not_eq_true'] at hr
  obtain ⟨⟨⟨⟨hcore, htake⟩, hx⟩, hdue⟩, hsp⟩ := hr
  rw [List.isEmpty_iff] at hdue
  have hrun : (tdOf m t.val).st = .running := by
    simp only [coreRuns, Bool.and_eq_true, beq_iff_eq] at hcore
    exact hcore.1.1.1.1
  -- the tile after the bundle has begun
  have hb : ∃ n0, beginBundle t.val m = n0 ∧ (tileOf n0 t.val).bundle = some (bundleOf (tileOf m t.val)) ∧ (∀ u, tdOf n0 u = tdOf m u) ∧
      (∀ u, t.val ≠ u → tileOf n0 u = tileOf m u) ∧ n0 = { m with tiles := n0.tiles } := by
    cases hbd : (tileOf m t.val).bundle with
    | some b =>
      refine ⟨m, beginBundle_some hbd, ?_, fun _ => rfl, fun _ _ => rfl, rfl⟩
      unfold bundleOf; rw [hbd]; rfl
    | none =>
      simp only [bundleTakes, hbd, Option.isNone_iff_eq_none] at htake
      have hbase0 : bundleBase (tileOf m t.val) = tdOf m t.val := by unfold bundleBase; rw [hbd]; rfl
      obtain ⟨n, e1, e2, e3⟩ := beginBundle_none hbd htake hrun hdue (by rw [← hbase0]; exact hsp)
      refine ⟨_, e1, ?_, ?_, ?_, ?_⟩
      · unfold bundleOf; rw [tileOf_modTile_self, e2, hbd]; rfl
      · intro u; rw [tdOf_modTile]; split
        · subst_vars; rw [e2]; rfl
        · unfold tdOf; rw [e2]
      · intro u hu; rw [tileOf_modTile, if_neg hu, e2]
      · obtain ⟨tl, hn⟩ : ∃ tl, n = { m with tiles := tl } := ⟨_, e3⟩
        subst hn; rfl
  obtain ⟨n0, he, hbun, hd, hu, hm⟩ := hb
  have hblk : (bundleOf (tileOf m t.val)).blocked = false := by
    unfold bundleOf
    cases hbd : (tileOf m t.val).bundle with
    | none => rfl
    | some b => simp [bundleTakes, hbd] at htake; simpa using htake.1.2
  have hnote : ∀ b : BundleCtx, b.blocked = false → { noteSlot e ⟨t, pred, pneg, more⟩ b with blocked := false } = noteSlot e ⟨t, pred, pneg, more⟩ b := by
    intro b hb; unfold noteSlot; simp [hb]
  refine ⟨modTile t.val (fun x => { x with bundle := some (noteSlot e ⟨t, pred, pneg, more⟩ (bundleOf (tileOf m t.val))) }) n0, by simp, hblk, ?_, ?_, ?_, ?_⟩
  · intro u; rw [tdOf_modTile]; split
    · subst_vars; exact hd _
    · exact hd u
  · intro u hne; rw [tileOf_modTile, if_neg hne]; exact hu u hne
  · obtain ⟨tl, hn⟩ : ∃ tl, n0 = { m with tiles := tl } := ⟨_, hm⟩
    subst hn; rfl
  · intro hown
    rw [he] at hown ⊢
    have hslots : (bundleOf (tileOf m t.val)).slots.any (fun q => decide (slotNo e.slot ≤ slotNo q)) = false := by
      unfold bundleOf
      cases hbd : (tileOf m t.val).bundle with
      | none => rfl
      | some b =>
        simp only [bundleTakes, hbd, Bool.and_eq_true] at htake
        have := htake.1.1
        simp only [List.all_eq_true, decide_eq_true_eq] at this
        simp only [Option.getD_some, List.any_eq_false, decide_eq_true_eq, Nat.not_le]
        exact this
    have hdest : (realDests e.dests).any (bundleOf (tileOf m t.val)).dests.contains = false := by
      unfold bundleOf
      cases hbd : (tileOf m t.val).bundle with
      | none => simp
      | some b =>
        simp only [bundleTakes, hbd, Bool.and_eq_true] at htake
        simpa using htake.2
    have hbase := bundleOf_base (tileOf m t.val)
    have htrap : slotTrap e (bundleOf (tileOf m t.val)) ⟨t, pred, pneg, more⟩ body (own (envOf e ⟨t, pred, pneg, more⟩ m n0)) = none := by
      unfold slotTrap; rw [hbase]; simp [hi, ho, hc, hdest, hf, hown]
    unfold issueSlot
    have hsp0 : ((bundleOf (tileOf m t.val)).base.spBad.isEmpty || noBeatToRead t.val n0) = true := by
      rw [hbase]
      have : noBeatToRead t.val n0 = noBeatToRead t.val m := by rw [hm]; rfl
      rw [this]; exact hsp
    have hdue0 : (tdOf n0 t.val).faultsDue = [] := by rw [hd]; exact hdue
    simp only [hcore, he, hbun, hslots, readsDue_none hsp0, hdue0, List.any_nil]
    simp only [hbase]
    have hb0 : bundleBase (tileOf n0 t.val) = bundleBase (tileOf m t.val) := by rw [← hbase, bundleBase, hbun]
    simp only [envOf] at htrap hown ⊢
    simp only [htrap, hblk, hx, Bool.not_true, Bool.false_eq_true, if_false, Bool.or_self]
    have hset : modTile t.val (fun x => { x with bundle := some { noteSlot e ⟨t, pred, pneg, more⟩ (bundleOf (tileOf m t.val)) with base := bundleBase x, blocked := false } }) n0
        = modTile t.val (fun x => { x with bundle := some (noteSlot e ⟨t, pred, pneg, more⟩ (bundleOf (tileOf m t.val))) }) n0 := by
      refine modTile_congr _ ?_
      rw [hb0, ← hbase]
      rw [← hnote _ hblk]
      rfl
    rw [hset]

/-- An S- or M-slot instruction that starts a bundle, raises no issue trap, and reads neither time nor CSRs: its tile's core afterwards is what
its effect makes of it where its predicate enables it, and as before where not. -/
theorem issueS_core (e : SlotIns) (own : SlotEnv → Option (Nat × Nat × Nat)) (f : SlotEnv → TileData → SlotRes) (j : Issue) (b : BitVec 22) (s : State)
    (hr : slotReady e.slot j e.srcs e.dests s.m = true) (hi : e.illegal = false) (ho : e.ok = true)
    (hc : e.csr = none) (hf : (e.flow && endsLoop (bundleBase (tileOf s.m j.tile.val))) = false)
    (hb : (tileOf s.m j.tile.val).bundle = none) (hown : ∀ env, env.base = tdOf s.m j.tile.val → env.mask.getLsbD 0 = true → own env = none)
    (hl : ∀ env d, (f env d).late = [] ∧ (f env d).blocked = false) :
    ∃ m' env, issueS e own f j b s = .next { s with m := m' } ∧ env.base = tdOf s.m j.tile.val ∧ env.mask = execMask (tdOf s.m j.tile.val) j ∧
      CoreSame (if slotEnabled j s.m then (f env (tdOf s.m j.tile.val)).d else tdOf s.m j.tile.val) (tdOf m' j.tile.val) := by
  have hbase : bundleBase (tileOf s.m j.tile.val) = tdOf s.m j.tile.val := by unfold bundleBase; rw [hb]; rfl
  obtain ⟨n, hbun, hblk, hd, -, -, hrun⟩ := issueSlot_enters e (fun env => if enabled env then own env else none)
    (fun env m => if enabled env then applyRes j.tile.val (f env) m else m) j b s.m hr hi ho hc hf
  have hdd : (tileOf n j.tile.val).d = tdOf s.m j.tile.val := hd _
  have hown' : (fun env => if enabled env then own env else none) (envOf e j s.m (beginBundle j.tile.val s.m)) = none := by
    dsimp only; split
    · rename_i h; exact hown _ hbase h
    · rfl
  have hbo : bundleOf (tileOf s.m j.tile.val) = { base := tdOf s.m j.tile.val, earliest := (tdOf s.m j.tile.val).nextIssue } := by
    unfold bundleOf; rw [hb]; rfl
  refine ⟨_, envOf e j s.m (beginBundle j.tile.val s.m), rfl, hbase, by simp only [envOf, hbase], ?_⟩
  rw [hrun hown']
  have hen : enabled (envOf e j s.m (beginBundle j.tile.val s.m)) = slotEnabled j s.m := rfl
  simp only [hen]
  generalize envOf e j s.m (beginBundle j.tile.val s.m) = env
  by_cases h : slotEnabled j s.m = true
  · simp only [h, if_true]
    have hb2 : ∃ b2, (tileOf (applyRes j.tile.val (f env) n) j.tile.val).bundle = some b2 ∧ b2.blocked = false ∧ b2.late = [] := by
      unfold applyRes
      rw [tileOf_modTile_self, hbun]
      exact ⟨_, rfl, by rw [hbo]; simp [noteSlot, (hl _ _).2], by rw [hbo]; simp [noteSlot, (hl _ _).1]⟩
    obtain ⟨b2, e1, e2, e3⟩ := hb2
    have h1 : tdOf (applyRes j.tile.val (f env) n) j.tile.val = (f env (tdOf s.m j.tile.val)).d := by
      unfold applyRes; rw [tdOf_modTile_self, hdd]
    split
    · rw [h1]; exact CoreSame.refl _
    · rw [← h1]; exact (finishBundle_core _ _ b2 e1 e2 e3).core _
  · rw [Bool.not_eq_true] at h
    simp only [h, Bool.false_eq_true, if_false]
    split
    · rw [hd]; exact CoreSame.refl _
    · rw [← hd]; exact (finishBundle_core _ _ _ hbun (by rw [hbo]; rfl) (by rw [hbo]; rfl)).core _

theorem getS_core {d e : TileData} (h : CoreSame d e) (r : Nat) : getS e r = getS d r := by unfold getS; rw [h.sreg]

end Sys2Proof.Machine
end

