-- ==== Sys2Proof/Laws/Mailbox.lean ====
section
/-! SUPPORT. What the mailbox does with a COMMAND frame: the one lemma on which the law of every command of Gondola rests. -/

namespace Sys2Proof.Machine

/-- The response to a command of class I or S is the stored one. -/
theorem answerOf_respond (r : Resp) (m : Mod) : answerOf (respond r m) = some r := by
  unfold respond emitKite warmAnswered; split <;> (split <;> rfl)

/-- Sending a response changes only the mailbox and what is sent. -/
theorem respond_rest (r : Resp) (m : Mod) : respond r m = { m with box := (respond r m).box, out := (respond r m).out } := by
  unfold respond emitKite warmAnswered; split <;> (split <;> rfl)

/-- The command that an accepted frame orders is run on the module with the mailbox RUNNING, and its answer is stored or waits. -/
theorem command_accepts {f : Frame} {o : Nat} {m : Mod} (h : accepts f o m) (long : Bool) (run : Mod → Answer) :
    command f o long run m =
      (let a := run (taken f o m)
       let r : Resp := { opcode := o, seq := f.seq, status := a.status, w := resultBlock a.w, data := a.data }
       if long || a.hold then { a.m with box := { a.m.box with running := some (r, a.undo), most := a.most } }
       else a.after (respond r a.m)) := by
  obtain ⟨-, hf, ho, hw, hc, hl, hk, hb, hh, hi, hs⟩ := h
  have hserved : served m = true := by simp [served, hb]
  have hruns : gondolaRuns m = true := by simp [gondolaRuns, hb]
  have hkept : discarded f = false := by simp [discarded, hc, hf, Nat.not_lt.mpr hl]; decide
  have hstored : m.box.stored.filter (fun r => r.seq == f.seq && r.opcode == o) = none := by
    cases hst : m.box.stored with
    | none => rfl
    | some r =>
      have := hs r hst
      simp only [Option.filter]
      rw [if_neg]
      simp only [Bool.and_eq_true, beq_iff_eq]
      exact fun hq => this hq.1 hq.2
  have hphase : phaseRefusal f o (taken f o m) = none := by
    simp [phaseRefusal, inRecovery, taken, hw, hb]
  have htaken : ({ m with box := { m.box with st := .running, opcode := o, seq := f.seq, acceptedAt := srcNow m, stored := none } } : Mod)
      = taken f o m := rfl
  unfold command
  simp only [ho, Option.map_none, Option.getD_none, htaken]
  rw [hk, hruns, hserved, hkept, hh, hi, hstored]
  simp only [hphase, Bool.not_true, Bool.or_self, Bool.false_eq_true, if_false, ne_eq, not_true_eq_false, Option.isSome_none,
    Option.isNone_none, Bool.and_true]

/-- A command whose checks pass answers OK and leaves what its action makes of the module, but for the mailbox and what is sent. -/
theorem execCommand_carries {c : Instr} {f : Frame} {o : Nat} {long : Bool} {run : Mod → Answer} {s : State} {goal : Mod} {w : List W32}
    {data : List Byte} (hc : exec c s = execCommand f o long run s) (h : accepts f o s.m) (hst : (run (taken f o s.m)).status = 0)
    (hw : (run (taken f o s.m)).w = w) (hd : (run (taken f o s.m)).data = data) (ha : (run (taken f o s.m)).after = id)
    (hm : ∃ b u, (run (taken f o s.m)).m = { goal with box := b, out := u }) : Carries c f o s w data goal := by
  refine ⟨command f o long run s.m, ?_, ?_⟩
  · rw [hc]; unfold execCommand onModIf; rw [h.1]; rfl
  · obtain ⟨b, u, hm⟩ := hm
    rw [command_accepts h]
    simp only [hst, hw, hd, ha, id_eq]
    split
    · refine ⟨rfl, ?_⟩; rw [hm]
    · refine ⟨answerOf_respond .., ?_⟩
      rw [hm]; exact respond_rest ..

end Sys2Proof.Machine
end

