-- ==== Sys2Proof/Laws/PerInstr.lean ====
section
/-! SUPPORT. Statements made once for each command, about its syntax: the family Shape. -/

namespace Sys2Proof.Laws.Shape

open Sys2Proof Sys2Proof.Machine

/-- A slot instruction is no command of Gondola, and is well formed unless it is a NOP that names a listed opcode; a command of Gondola is
well formed where its frame is. -/
def Statement (c : Instr) : Prop :=
  (∀ x, slotFields c = some x → commandRow c = none ∧ (wellFormed c = true ∨ opListed x.1 x.2.1.toNat = true)) ∧
  (∀ y, commandRow c = some y → wellFormed c = frameOk y.1)

theorem nop (i : Issue) (slot : Slot) (op : BitVec 6) (body : BitVec 22) : Statement (Instr.nop i slot op body) := by
  constructor
  · intro x h
    cases h
    refine ⟨rfl, ?_⟩
    simp only [wellFormed, nopOk]
    cases opListed slot op.toNat <;> simp
  · intro y h; cases h
theorem add (i : Issue) (body : BitVec 22) : Statement (Instr.add i body) := by
  constructor <;> intro x h <;> cases h <;> first | rfl | exact ⟨rfl, Or.inl rfl⟩
theorem sub (i : Issue) (body : BitVec 22) : Statement (Instr.sub i body) := by
  constructor <;> intro x h <;> cases h <;> first | rfl | exact ⟨rfl, Or.inl rfl⟩
theorem and (i : Issue) (body : BitVec 22) : Statement (Instr.and i body) := by
  constructor <;> intro x h <;> cases h <;> first | rfl | exact ⟨rfl, Or.inl rfl⟩
theorem or (i : Issue) (body : BitVec 22) : Statement (Instr.or i body) := by
  constructor <;> intro x h <;> cases h <;> first | rfl | exact ⟨rfl, Or.inl rfl⟩
theorem xor (i : Issue) (body : BitVec 22) : Statement (Instr.xor i body) := by
  constructor <;> intro x h <;> cases h <;> first | rfl | exact ⟨rfl, Or.inl rfl⟩
theorem shl (i : Issue) (body : BitVec 22) : Statement (Instr.shl i body) := by
  constructor <;> intro x h <;> cases h <;> first | rfl | exact ⟨rfl, Or.inl rfl⟩
theorem shr (i : Issue) (body : BitVec 22) : Statement (Instr.shr i body) := by
  constructor <;> intro x h <;> cases h <;> first | rfl | exact ⟨rfl, Or.inl rfl⟩
theorem sra (i : Issue) (body : BitVec 22) : Statement (Instr.sra i body) := by
  constructor <;> intro x h <;> cases h <;> first | rfl | exact ⟨rfl, Or.inl rfl⟩
theorem mul (i : Issue) (body : BitVec 22) : Statement (Instr.mul i body) := by
  constructor <;> intro x h <;> cases h <;> first | rfl | exact ⟨rfl, Or.inl rfl⟩
theorem mulhs (i : Issue) (body : BitVec 22) : Statement (Instr.mulhs i body) := by
  constructor <;> intro x h <;> cases h <;> first | rfl | exact ⟨rfl, Or.inl rfl⟩
theorem mulhu (i : Issue) (body : BitVec 22) : Statement (Instr.mulhu i body) := by
  constructor <;> intro x h <;> cases h <;> first | rfl | exact ⟨rfl, Or.inl rfl⟩
theorem min (i : Issue) (body : BitVec 22) : Statement (Instr.min i body) := by
  constructor <;> intro x h <;> cases h <;> first | rfl | exact ⟨rfl, Or.inl rfl⟩
theorem max (i : Issue) (body : BitVec 22) : Statement (Instr.max i body) := by
  constructor <;> intro x h <;> cases h <;> first | rfl | exact ⟨rfl, Or.inl rfl⟩
theorem minu (i : Issue) (body : BitVec 22) : Statement (Instr.minu i body) := by
  constructor <;> intro x h <;> cases h <;> first | rfl | exact ⟨rfl, Or.inl rfl⟩
theorem maxu (i : Issue) (body : BitVec 22) : Statement (Instr.maxu i body) := by
  constructor <;> intro x h <;> cases h <;> first | rfl | exact ⟨rfl, Or.inl rfl⟩
theorem addi (i : Issue) (body : BitVec 22) : Statement (Instr.addi i body) := by
  constructor <;> intro x h <;> cases h <;> first | rfl | exact ⟨rfl, Or.inl rfl⟩
theorem andi (i : Issue) (body : BitVec 22) : Statement (Instr.andi i body) := by
  constructor <;> intro x h <;> cases h <;> first | rfl | exact ⟨rfl, Or.inl rfl⟩
theorem ori (i : Issue) (body : BitVec 22) : Statement (Instr.ori i body) := by
  constructor <;> intro x h <;> cases h <;> first | rfl | exact ⟨rfl, Or.inl rfl⟩
theorem xori (i : Issue) (body : BitVec 22) : Statement (Instr.xori i body) := by
  constructor <;> intro x h <;> cases h <;> first | rfl | exact ⟨rfl, Or.inl rfl⟩
theorem shli (i : Issue) (body : BitVec 22) : Statement (Instr.shli i body) := by
  constructor <;> intro x h <;> cases h <;> first | rfl | exact ⟨rfl, Or.inl rfl⟩
theorem shri (i : Issue) (body : BitVec 22) : Statement (Instr.shri i body) := by
  constructor <;> intro x h <;> cases h <;> first | rfl | exact ⟨rfl, Or.inl rfl⟩
theorem srai (i : Issue) (body : BitVec 22) : Statement (Instr.srai i body) := by
  constructor <;> intro x h <;> cases h <;> first | rfl | exact ⟨rfl, Or.inl rfl⟩
theorem lil (i : Issue) (body : BitVec 22) : Statement (Instr.lil i body) := by
  constructor <;> intro x h <;> cases h <;> first | rfl | exact ⟨rfl, Or.inl rfl⟩
theorem lih (i : Issue) (body : BitVec 22) : Statement (Instr.lih i body) := by
  constructor <;> intro x h <;> cases h <;> first | rfl | exact ⟨rfl, Or.inl rfl⟩
theorem cmp (i : Issue) (body : BitVec 22) : Statement (Instr.cmp i body) := by
  constructor <;> intro x h <;> cases h <;> first | rfl | exact ⟨rfl, Or.inl rfl⟩
theorem plogic (i : Issue) (body : BitVec 22) : Statement (Instr.plogic i body) := by
  constructor <;> intro x h <;> cases h <;> first | rfl | exact ⟨rfl, Or.inl rfl⟩
theorem ld (i : Issue) (body : BitVec 22) : Statement (Instr.ld i body) := by
  constructor <;> intro x h <;> cases h <;> first | rfl | exact ⟨rfl, Or.inl rfl⟩
theorem st (i : Issue) (body : BitVec 22) : Statement (Instr.st i body) := by
  constructor <;> intro x h <;> cases h <;> first | rfl | exact ⟨rfl, Or.inl rfl⟩
theorem br (i : Issue) (body : BitVec 22) : Statement (Instr.br i body) := by
  constructor <;> intro x h <;> cases h <;> first | rfl | exact ⟨rfl, Or.inl rfl⟩
theorem call (i : Issue) (body : BitVec 22) : Statement (Instr.call i body) := by
  constructor <;> intro x h <;> cases h <;> first | rfl | exact ⟨rfl, Or.inl rfl⟩
theorem jr (i : Issue) (body : BitVec 22) : Statement (Instr.jr i body) := by
  constructor <;> intro x h <;> cases h <;> first | rfl | exact ⟨rfl, Or.inl rfl⟩
theorem loop (i : Issue) (body : BitVec 22) : Statement (Instr.loop i body) := by
  constructor <;> intro x h <;> cases h <;> first | rfl | exact ⟨rfl, Or.inl rfl⟩
theorem time (i : Issue) (body : BitVec 22) : Statement (Instr.time i body) := by
  constructor <;> intro x h <;> cases h <;> first | rfl | exact ⟨rfl, Or.inl rfl⟩
theorem csrr (i : Issue) (body : BitVec 22) : Statement (Instr.csrr i body) := by
  constructor <;> intro x h <;> cases h <;> first | rfl | exact ⟨rfl, Or.inl rfl⟩
theorem csrw (i : Issue) (body : BitVec 22) : Statement (Instr.csrw i body) := by
  constructor <;> intro x h <;> cases h <;> first | rfl | exact ⟨rfl, Or.inl rfl⟩
theorem brk (i : Issue) (body : BitVec 22) : Statement (Instr.brk i body) := by
  constructor <;> intro x h <;> cases h <;> first | rfl | exact ⟨rfl, Or.inl rfl⟩
theorem exit (i : Issue) (body : BitVec 22) : Statement (Instr.exit i body) := by
  constructor <;> intro x h <;> cases h <;> first | rfl | exact ⟨rfl, Or.inl rfl⟩
theorem vadd (i : Issue) (body : BitVec 22) : Statement (Instr.vadd i body) := by
  constructor <;> intro x h <;> cases h <;> first | rfl | exact ⟨rfl, Or.inl rfl⟩
theorem vsub (i : Issue) (body : BitVec 22) : Statement (Instr.vsub i body) := by
  constructor <;> intro x h <;> cases h <;> first | rfl | exact ⟨rfl, Or.inl rfl⟩
theorem vand (i : Issue) (body : BitVec 22) : Statement (Instr.vand i body) := by
  constructor <;> intro x h <;> cases h <;> first | rfl | exact ⟨rfl, Or.inl rfl⟩
theorem vor (i : Issue) (body : BitVec 22) : Statement (Instr.vor i body) := by
  constructor <;> intro x h <;> cases h <;> first | rfl | exact ⟨rfl, Or.inl rfl⟩
theorem vxor (i : Issue) (body : BitVec 22) : Statement (Instr.vxor i body) := by
  constructor <;> intro x h <;> cases h <;> first | rfl | exact ⟨rfl, Or.inl rfl⟩
theorem vshl (i : Issue) (body : BitVec 22) : Statement (Instr.vshl i body) := by
  constructor <;> intro x h <;> cases h <;> first | rfl | exact ⟨rfl, Or.inl rfl⟩
theorem vshr (i : Issue) (body : BitVec 22) : Statement (Instr.vshr i body) := by
  constructor <;> intro x h <;> cases h <;> first | rfl | exact ⟨rfl, Or.inl rfl⟩
theorem vsra (i : Issue) (body : BitVec 22) : Statement (Instr.vsra i body) := by
  constructor <;> intro x h <;> cases h <;> first | rfl | exact ⟨rfl, Or.inl rfl⟩
theorem vmul (i : Issue) (body : BitVec 22) : Statement (Instr.vmul i body) := by
  constructor <;> intro x h <;> cases h <;> first | rfl | exact ⟨rfl, Or.inl rfl⟩
theorem vfadd (i : Issue) (body : BitVec 22) : Statement (Instr.vfadd i body) := by
  constructor <;> intro x h <;> cases h <;> first | rfl | exact ⟨rfl, Or.inl rfl⟩
theorem vfsub (i : Issue) (body : BitVec 22) : Statement (Instr.vfsub i body) := by
  constructor <;> intro x h <;> cases h <;> first | rfl | exact ⟨rfl, Or.inl rfl⟩
theorem vfmul (i : Issue) (body : BitVec 22) : Statement (Instr.vfmul i body) := by
  constructor <;> intro x h <;> cases h <;> first | rfl | exact ⟨rfl, Or.inl rfl⟩
theorem vfma (i : Issue) (body : BitVec 22) : Statement (Instr.vfma i body) := by
  constructor <;> intro x h <;> cases h <;> first | rfl | exact ⟨rfl, Or.inl rfl⟩
theorem vfmin (i : Issue) (body : BitVec 22) : Statement (Instr.vfmin i body) := by
  constructor <;> intro x h <;> cases h <;> first | rfl | exact ⟨rfl, Or.inl rfl⟩
theorem vfmax (i : Issue) (body : BitVec 22) : Statement (Instr.vfmax i body) := by
  constructor <;> intro x h <;> cases h <;> first | rfl | exact ⟨rfl, Or.inl rfl⟩
theorem vcmp (i : Issue) (body : BitVec 22) : Statement (Instr.vcmp i body) := by
  constructor <;> intro x h <;> cases h <;> first | rfl | exact ⟨rfl, Or.inl rfl⟩
theorem vsel (i : Issue) (body : BitVec 22) : Statement (Instr.vsel i body) := by
  constructor <;> intro x h <;> cases h <;> first | rfl | exact ⟨rfl, Or.inl rfl⟩
theorem vcvt (i : Issue) (body : BitVec 22) : Statement (Instr.vcvt i body) := by
  constructor <;> intro x h <;> cases h <;> first | rfl | exact ⟨rfl, Or.inl rfl⟩
theorem vrcp (i : Issue) (body : BitVec 22) : Statement (Instr.vrcp i body) := by
  constructor <;> intro x h <;> cases h <;> first | rfl | exact ⟨rfl, Or.inl rfl⟩
theorem vrsq (i : Issue) (body : BitVec 22) : Statement (Instr.vrsq i body) := by
  constructor <;> intro x h <;> cases h <;> first | rfl | exact ⟨rfl, Or.inl rfl⟩
theorem vexp2 (i : Issue) (body : BitVec 22) : Statement (Instr.vexp2 i body) := by
  constructor <;> intro x h <;> cases h <;> first | rfl | exact ⟨rfl, Or.inl rfl⟩
theorem vlog2 (i : Issue) (body : BitVec 22) : Statement (Instr.vlog2 i body) := by
  constructor <;> intro x h <;> cases h <;> first | rfl | exact ⟨rfl, Or.inl rfl⟩
theorem vld (i : Issue) (body : BitVec 22) : Statement (Instr.vld i body) := by
  constructor <;> intro x h <;> cases h <;> first | rfl | exact ⟨rfl, Or.inl rfl⟩
theorem vst (i : Issue) (body : BitVec 22) : Statement (Instr.vst i body) := by
  constructor <;> intro x h <;> cases h <;> first | rfl | exact ⟨rfl, Or.inl rfl⟩
theorem vldc (i : Issue) (body : BitVec 22) : Statement (Instr.vldc i body) := by
  constructor <;> intro x h <;> cases h <;> first | rfl | exact ⟨rfl, Or.inl rfl⟩
theorem vstc (i : Issue) (body : BitVec 22) : Statement (Instr.vstc i body) := by
  constructor <;> intro x h <;> cases h <;> first | rfl | exact ⟨rfl, Or.inl rfl⟩
theorem vred (i : Issue) (body : BitVec 22) : Statement (Instr.vred i body) := by
  constructor <;> intro x h <;> cases h <;> first | rfl | exact ⟨rfl, Or.inl rfl⟩
theorem vbcast (i : Issue) (body : BitVec 22) : Statement (Instr.vbcast i body) := by
  constructor <;> intro x h <;> cases h <;> first | rfl | exact ⟨rfl, Or.inl rfl⟩
theorem vextr (i : Issue) (body : BitVec 22) : Statement (Instr.vextr i body) := by
  constructor <;> intro x h <;> cases h <;> first | rfl | exact ⟨rfl, Or.inl rfl⟩
theorem vshuf (i : Issue) (body : BitVec 22) : Statement (Instr.vshuf i body) := by
  constructor <;> intro x h <;> cases h <;> first | rfl | exact ⟨rfl, Or.inl rfl⟩
theorem mldw (i : Issue) (body : BitVec 22) : Statement (Instr.mldw i body) := by
  constructor <;> intro x h <;> cases h <;> first | rfl | exact ⟨rfl, Or.inl rfl⟩
theorem mrun (i : Issue) (body : BitVec 22) : Statement (Instr.mrun i body) := by
  constructor <;> intro x h <;> cases h <;> first | rfl | exact ⟨rfl, Or.inl rfl⟩
theorem mzero (i : Issue) (body : BitVec 22) : Statement (Instr.mzero i body) := by
  constructor <;> intro x h <;> cases h <;> first | rfl | exact ⟨rfl, Or.inl rfl⟩
theorem mdrain (i : Issue) (body : BitVec 22) : Statement (Instr.mdrain i body) := by
  constructor <;> intro x h <;> cases h <;> first | rfl | exact ⟨rfl, Or.inl rfl⟩
theorem mwgb (i : Issue) (body : BitVec 22) : Statement (Instr.mwgb i body) := by
  constructor <;> intro x h <;> cases h <;> first | rfl | exact ⟨rfl, Or.inl rfl⟩
theorem mrunStart (t : TileId) : Statement (Instr.mrunStart t) := by
  constructor <;> intro x h <;> cases h
theorem mldwStart (t : TileId) : Statement (Instr.mldwStart t) := by
  constructor <;> intro x h <;> cases h
theorem mdrainStart (t : TileId) : Statement (Instr.mdrainStart t) := by
  constructor <;> intro x h <;> cases h
theorem mwgbStart (t : TileId) : Statement (Instr.mwgbStart t) := by
  constructor <;> intro x h <;> cases h
theorem mzeroStart (t : TileId) : Statement (Instr.mzeroStart t) := by
  constructor <;> intro x h <;> cases h
theorem rowCommit (t : TileId) (v : Nat) : Statement (Instr.rowCommit t v) := by
  constructor <;> intro x h <;> cases h
theorem weightBufferReady (t : TileId) (buf : Fin 8) : Statement (Instr.weightBufferReady t buf) := by
  constructor <;> intro x h <;> cases h
theorem drainLand (t : TileId) : Statement (Instr.drainLand t) := by
  constructor <;> intro x h <;> cases h
theorem xsend (i : Issue) (body : BitVec 22) : Statement (Instr.xsend i body) := by
  constructor <;> intro x h <;> cases h <;> first | rfl | exact ⟨rfl, Or.inl rfl⟩
theorem xrecv (i : Issue) (body : BitVec 22) : Statement (Instr.xrecv i body) := by
  constructor <;> intro x h <;> cases h <;> first | rfl | exact ⟨rfl, Or.inl rfl⟩
theorem qissue (i : Issue) (body : BitVec 22) : Statement (Instr.qissue i body) := by
  constructor <;> intro x h <;> cases h <;> first | rfl | exact ⟨rfl, Or.inl rfl⟩
theorem waitq (i : Issue) (body : BitVec 22) : Statement (Instr.waitq i body) := by
  constructor <;> intro x h <;> cases h <;> first | rfl | exact ⟨rfl, Or.inl rfl⟩
theorem qpoll (i : Issue) (body : BitVec 22) : Statement (Instr.qpoll i body) := by
  constructor <;> intro x h <;> cases h <;> first | rfl | exact ⟨rfl, Or.inl rfl⟩
theorem copen (i : Issue) (body : BitVec 22) : Statement (Instr.copen i body) := by
  constructor <;> intro x h <;> cases h <;> first | rfl | exact ⟨rfl, Or.inl rfl⟩
theorem cclose (i : Issue) (body : BitVec 22) : Statement (Instr.cclose i body) := by
  constructor <;> intro x h <;> cases h <;> first | rfl | exact ⟨rfl, Or.inl rfl⟩
theorem csend (i : Issue) (body : BitVec 22) : Statement (Instr.csend i body) := by
  constructor <;> intro x h <;> cases h <;> first | rfl | exact ⟨rfl, Or.inl rfl⟩
theorem csendnb (i : Issue) (body : BitVec 22) : Statement (Instr.csendnb i body) := by
  constructor <;> intro x h <;> cases h <;> first | rfl | exact ⟨rfl, Or.inl rfl⟩
theorem crecv (i : Issue) (body : BitVec 22) : Statement (Instr.crecv i body) := by
  constructor <;> intro x h <;> cases h <;> first | rfl | exact ⟨rfl, Or.inl rfl⟩
theorem crecvnb (i : Issue) (body : BitVec 22) : Statement (Instr.crecvnb i body) := by
  constructor <;> intro x h <;> cases h <;> first | rfl | exact ⟨rfl, Or.inl rfl⟩
theorem sync (i : Issue) (body : BitVec 22) : Statement (Instr.sync i body) := by
  constructor <;> intro x h <;> cases h <;> first | rfl | exact ⟨rfl, Or.inl rfl⟩
theorem barrive (i : Issue) (body : BitVec 22) : Statement (Instr.barrive i body) := by
  constructor <;> intro x h <;> cases h <;> first | rfl | exact ⟨rfl, Or.inl rfl⟩
theorem bwait (i : Issue) (body : BitVec 22) : Statement (Instr.bwait i body) := by
  constructor <;> intro x h <;> cases h <;> first | rfl | exact ⟨rfl, Or.inl rfl⟩
theorem dma (i : Issue) (body : BitVec 22) : Statement (Instr.dma i body) := by
  constructor <;> intro x h <;> cases h <;> first | rfl | exact ⟨rfl, Or.inl rfl⟩
theorem swait (i : Issue) (body : BitVec 22) : Statement (Instr.swait i body) := by
  constructor <;> intro x h <;> cases h <;> first | rfl | exact ⟨rfl, Or.inl rfl⟩
theorem tileEnded (t : TileId) : Statement (Instr.tileEnded t) := by
  constructor <;> intro x h <;> cases h
theorem waitRelease (t : TileId) : Statement (Instr.waitRelease t) := by
  constructor <;> intro x h <;> cases h
theorem waitTimeout (t : TileId) : Statement (Instr.waitTimeout t) := by
  constructor <;> intro x h <;> cases h
theorem tileGo (t : TileId) : Statement (Instr.tileGo t) := by
  constructor <;> intro x h <;> cases h
theorem tileStop (t : TileId) (byGondola : Bool) : Statement (Instr.tileStop t byGondola) := by
  constructor <;> intro x h <;> cases h
theorem counterClear (t : TileId) : Statement (Instr.counterClear t) := by
  constructor <;> intro x h <;> cases h
theorem nfClear (t : TileId) : Statement (Instr.nfClear t) := by
  constructor <;> intro x h <;> cases h
theorem cvClear (t : TileId) : Statement (Instr.cvClear t) := by
  constructor <;> intro x h <;> cases h
theorem regionConfigWrite (t : TileId) (g : Fin 16) (v : W64) : Statement (Instr.regionConfigWrite t g v) := by
  constructor <;> intro x h <;> cases h
theorem mirrorReread (t : TileId) (g : Fin 16) : Statement (Instr.mirrorReread t g) := by
  constructor <;> intro x h <;> cases h
theorem registerWrite (addr : BitVec 48) (v : W64) : Statement (Instr.registerWrite addr v) := by
  constructor <;> intro x h <;> cases h
theorem tickCounterAdvance : Statement (Instr.tickCounterAdvance) := by
  constructor <;> intro x h <;> cases h
theorem tickEdge (lowBits : Option (BitVec 16)) : Statement (Instr.tickEdge lowBits) := by
  constructor <;> intro x h <;> cases h
theorem tickLost : Statement (Instr.tickLost) := by
  constructor <;> intro x h <;> cases h
theorem holdoverExpiry : Statement (Instr.holdoverExpiry) := by
  constructor <;> intro x h <;> cases h
theorem clockReturn (h : HalfId) : Statement (Instr.clockReturn h) := by
  constructor <;> intro x h <;> cases h
theorem clockSwitchComplete (h : HalfId) : Statement (Instr.clockSwitchComplete h) := by
  constructor <;> intro x h <;> cases h
theorem decision (what : DecisionFor) : Statement (Instr.decision what) := by
  constructor <;> intro x h <;> cases h
theorem exchangePhaseStart (p : PartId) : Statement (Instr.exchangePhaseStart p) := by
  constructor <;> intro x h <;> cases h
theorem superstepBoundary (p : PartId) : Statement (Instr.superstepBoundary p) := by
  constructor <;> intro x h <;> cases h
theorem commit (p : PartId) : Statement (Instr.commit p) := by
  constructor <;> intro x h <;> cases h
theorem checkpointStart (p : PartId) : Statement (Instr.checkpointStart p) := by
  constructor <;> intro x h <;> cases h
theorem ckptSaveComplete (p : PartId) (remoteOk : Bool) : Statement (Instr.ckptSaveComplete p remoteOk) := by
  constructor <;> intro x h <;> cases h
theorem clockEvent (p : PartId) : Statement (Instr.clockEvent p) := by
  constructor <;> intro x h <;> cases h
theorem optionalDecision (p : PartId) : Statement (Instr.optionalDecision p) := by
  constructor <;> intro x h <;> cases h
theorem beatLanding (p : PartId) (k : Nat) : Statement (Instr.beatLanding p k) := by
  constructor <;> intro x h <;> cases h
theorem inboundBeat (q : PortId) (transfer : BitVec 16) (tag : BitVec 4) (data : List W32) : Statement (Instr.inboundBeat q transfer tag data) := by
  constructor <;> intro x h <;> cases h
theorem heldBeatForward (q : PortId) : Statement (Instr.heldBeatForward q) := by
  constructor <;> intro x h <;> cases h
theorem exchangeStall (p : PartId) : Statement (Instr.exchangeStall p) := by
  constructor <;> intro x h <;> cases h
theorem stallLimit (p : PartId) : Statement (Instr.stallLimit p) := by
  constructor <;> intro x h <;> cases h
theorem openRequest (src : PktFrom) : Statement (Instr.openRequest src) := by
  constructor <;> intro x h <;> cases h
theorem copenReply (src : PktFrom) : Statement (Instr.copenReply src) := by
  constructor <;> intro x h <;> cases h
theorem copenTimeout (t : TileId) (h : Fin 64) : Statement (Instr.copenTimeout t h) := by
  constructor <;> intro x h <;> cases h
theorem closeNotice (src : PktFrom) : Statement (Instr.closeNotice src) := by
  constructor <;> intro x h <;> cases h
theorem closeAck (src : PktFrom) : Statement (Instr.closeAck src) := by
  constructor <;> intro x h <;> cases h
theorem creditReturn (src : PktFrom) : Statement (Instr.creditReturn src) := by
  constructor <;> intro x h <;> cases h
theorem dropNotice (src : PktFrom) : Statement (Instr.dropNotice src) := by
  constructor <;> intro x h <;> cases h
theorem opqLanding (src : PktFrom) : Statement (Instr.opqLanding src) := by
  constructor <;> intro x h <;> cases h
theorem ringRecordLanding (src : PktFrom) : Statement (Instr.ringRecordLanding src) := by
  constructor <;> intro x h <;> cases h
theorem sendTimeout (t : TileId) : Statement (Instr.sendTimeout t) := by
  constructor <;> intro x h <;> cases h
theorem recvTimeout (t : TileId) : Statement (Instr.recvTimeout t) := by
  constructor <;> intro x h <;> cases h
theorem barrierArrival (b : Fin 4096) : Statement (Instr.barrierArrival b) := by
  constructor <;> intro x h <;> cases h
theorem barrierLimitExpiry (b : Fin 4096) : Statement (Instr.barrierLimitExpiry b) := by
  constructor <;> intro x h <;> cases h
theorem dmaCompletion (t : TileId) : Statement (Instr.dmaCompletion t) := by
  constructor <;> intro x h <;> cases h
theorem putData (q : PortId) (pkt : DmaPkt) : Statement (Instr.putData q pkt) := by
  constructor <;> intro x h <;> cases h
theorem getRequest (q : PortId) (pkt : DmaPkt) : Statement (Instr.getRequest q pkt) := by
  constructor <;> intro x h <;> cases h
theorem getData (q : PortId) (pkt : DmaPkt) : Statement (Instr.getData q pkt) := by
  constructor <;> intro x h <;> cases h
theorem dmaAck (q : PortId) (pkt : DmaPkt) : Statement (Instr.dmaAck q pkt) := by
  constructor <;> intro x h <;> cases h
theorem deny (q : PortId) (pkt : DmaPkt) : Statement (Instr.deny q pkt) := by
  constructor <;> intro x h <;> cases h
theorem streamReadData (t : TileId) (k : Nat) : Statement (Instr.streamReadData t k) := by
  constructor <;> intro x h <;> cases h
theorem streamWriteAck (t : TileId) (k : Nat) : Statement (Instr.streamWriteAck t k) := by
  constructor <;> intro x h <;> cases h
theorem stackRequest (src : ReqSource) : Statement (Instr.stackRequest src) := by
  constructor <;> intro x h <;> cases h
theorem channelGrant (n : StackId) (ch : Fin 16) : Statement (Instr.channelGrant n ch) := by
  constructor <;> intro x h <;> cases h
theorem backoffExpiry (n : StackId) (ch : Fin 16) (k : Nat) : Statement (Instr.backoffExpiry n ch k) := by
  constructor <;> intro x h <;> cases h
theorem maintenanceWindow (n : StackId) (ch : Fin 16) (passDone : Bool) : Statement (Instr.maintenanceWindow n ch passDone) := by
  constructor <;> intro x h <;> cases h
theorem zeroFillComplete (k : Nat) : Statement (Instr.zeroFillComplete k) := by
  constructor <;> intro x h <;> cases h
theorem moveFlip (page : Nat) : Statement (Instr.moveFlip page) := by
  constructor <;> intro x h <;> cases h
theorem frameRelease (k : Nat) : Statement (Instr.frameRelease k) := by
  constructor <;> intro x h <;> cases h
theorem reelActivate (p : PartId) : Statement (Instr.reelActivate p) := by
  constructor <;> intro x h <;> cases h
theorem nmuStart (p : PartId) : Statement (Instr.nmuStart p) := by
  constructor <;> intro x h <;> cases h
theorem shardComplete (i : Fin 16384) : Statement (Instr.shardComplete i) := by
  constructor <;> intro x h <;> cases h
theorem contributionBeat (e : PortId) (k : Nat) : Statement (Instr.contributionBeat e k) := by
  constructor <;> intro x h <;> cases h
theorem reductionPacket (q : PortId) (jobTag : BitVec 16) (epoch : BitVec 8) (payload : List W32) : Statement (Instr.reductionPacket q jobTag epoch payload) := by
  constructor <;> intro x h <;> cases h
theorem chainBlock (e : PortId) (k : Nat) : Statement (Instr.chainBlock e k) := by
  constructor <;> intro x h <;> cases h
theorem blockSum (e : PortId) : Statement (Instr.blockSum e) := by
  constructor <;> intro x h <;> cases h
theorem delivery (e : PortId) : Statement (Instr.delivery e) := by
  constructor <;> intro x h <;> cases h
theorem barrierLineRelease : Statement (Instr.barrierLineRelease) := by
  constructor <;> intro x h <;> cases h
theorem barrierLineSample (high : Bool) : Statement (Instr.barrierLineSample high) := by
  constructor <;> intro x h <;> cases h
theorem bridleTimeout : Statement (Instr.bridleTimeout) := by
  constructor <;> intro x h <;> cases h
theorem linkBeat (q : PortId) (fec : FecResult) (hdr : W64) (body : List W32) : Statement (Instr.linkBeat q fec hdr body) := by
  constructor <;> intro x h <;> cases h
theorem linkAckTimer (q : PortId) : Statement (Instr.linkAckTimer q) := by
  constructor <;> intro x h <;> cases h
theorem ack (q : PortId) (seq : BitVec 16) : Statement (Instr.ack q seq) := by
  constructor <;> intro x h <;> cases h
theorem nak (q : PortId) (seq : BitVec 16) : Statement (Instr.nak q seq) := by
  constructor <;> intro x h <;> cases h
theorem tick (q : PortId) (arg : W32) : Statement (Instr.tick q arg) := by
  constructor <;> intro x h <;> cases h
theorem ready (q : PortId) (sym : Sym) : Statement (Instr.ready q sym) := by
  constructor <;> intro x h <;> cases h
theorem go (q : PortId) (sym : Sym) : Statement (Instr.go q sym) := by
  constructor <;> intro x h <;> cases h
theorem slip (q : PortId) (sym : Sym) : Statement (Instr.slip q sym) := by
  constructor <;> intro x h <;> cases h
theorem fault (q : PortId) (sym : Sym) : Statement (Instr.fault q sym) := by
  constructor <;> intro x h <;> cases h
theorem fail (q : PortId) (sym : Sym) : Statement (Instr.fail q sym) := by
  constructor <;> intro x h <;> cases h
theorem abandon (q : PortId) (sym : Sym) : Statement (Instr.abandon q sym) := by
  constructor <;> intro x h <;> cases h
theorem echoReq (q : PortId) (stamp : W32) : Statement (Instr.echoReq q stamp) := by
  constructor <;> intro x h <;> cases h
theorem echoReply (q : PortId) (roundTrip16 turnaround16 : Nat) : Statement (Instr.echoReply q roundTrip16 turnaround16) := by
  constructor <;> intro x h <;> cases h
theorem alignmentRecord (q : PortId) (number : BitVec 48) (offset16 : Nat) (loaded : Bool) : Statement (Instr.alignmentRecord q number offset16 loaded) := by
  constructor <;> intro x h <;> cases h
theorem alignmentReport (q : PortId) (delay : Nat) : Statement (Instr.alignmentReport q delay) := by
  constructor <;> intro x h <;> cases h
theorem stepFault (p : PartId) : Statement (Instr.stepFault p) := by
  constructor <;> intro x h <;> cases h
theorem abandonBroadcast (p : PartId) : Statement (Instr.abandonBroadcast p) := by
  constructor <;> intro x h <;> cases h
theorem lateAbandon (p : PartId) : Statement (Instr.lateAbandon p) := by
  constructor <;> intro x h <;> cases h
theorem abandonLost (p : PartId) : Statement (Instr.abandonLost p) := by
  constructor <;> intro x h <;> cases h
theorem abandonDrainComplete (p : PartId) : Statement (Instr.abandonDrainComplete p) := by
  constructor <;> intro x h <;> cases h
theorem restart (p : PartId) : Statement (Instr.restart p) := by
  constructor <;> intro x h <;> cases h
theorem scrubComplete (p : PartId) : Statement (Instr.scrubComplete p) := by
  constructor <;> intro x h <;> cases h
theorem identify (f : Frame) : Statement (Instr.identify f) := by
  constructor <;> intro x h <;> cases h <;> rfl
theorem setModuleNum (f : Frame) : Statement (Instr.setModuleNum f) := by
  constructor <;> intro x h <;> cases h <;> rfl
theorem roleConfirm (f : Frame) : Statement (Instr.roleConfirm f) := by
  constructor <;> intro x h <;> cases h <;> rfl
theorem setTickTree (f : Frame) : Statement (Instr.setTickTree f) := by
  constructor <;> intro x h <;> cases h <;> rfl
theorem linkTrain (f : Frame) : Statement (Instr.linkTrain f) := by
  constructor <;> intro x h <;> cases h <;> rfl
theorem linkTrainComplete (upMask : Nat) : Statement (Instr.linkTrainComplete upMask) := by
  constructor <;> intro x h <;> cases h
theorem tickSync (f : Frame) : Statement (Instr.tickSync f) := by
  constructor <;> intro x h <;> cases h <;> rfl
theorem tickSyncComplete (upHops upDelay : Nat) : Statement (Instr.tickSyncComplete upHops upDelay) := by
  constructor <;> intro x h <;> cases h
theorem partSet (f : Frame) : Statement (Instr.partSet f) := by
  constructor <;> intro x h <;> cases h <;> rfl
theorem partPorts (f : Frame) : Statement (Instr.partPorts f) := by
  constructor <;> intro x h <;> cases h <;> rfl
theorem setQuota (f : Frame) : Statement (Instr.setQuota f) := by
  constructor <;> intro x h <;> cases h <;> rfl
theorem map (f : Frame) : Statement (Instr.map f) := by
  constructor <;> intro x h <;> cases h <;> rfl
theorem move (f : Frame) : Statement (Instr.move f) := by
  constructor <;> intro x h <;> cases h <;> rfl
theorem unmap (f : Frame) : Statement (Instr.unmap f) := by
  constructor <;> intro x h <;> cases h <;> rfl
theorem memRead (f : Frame) : Statement (Instr.memRead f) := by
  constructor <;> intro x h <;> cases h <;> rfl
theorem memWrite (f : Frame) : Statement (Instr.memWrite f) := by
  constructor <;> intro x h <;> cases h <;> rfl
theorem winTile (f : Frame) : Statement (Instr.winTile f) := by
  constructor <;> intro x h <;> cases h <;> rfl
theorem winDram (f : Frame) : Statement (Instr.winDram f) := by
  constructor <;> intro x h <;> cases h <;> rfl
theorem load (f : Frame) : Statement (Instr.load f) := by
  constructor <;> intro x h <;> cases h <;> rfl
theorem jobStart (f : Frame) : Statement (Instr.jobStart f) := by
  constructor <;> intro x h <;> cases h <;> rfl
theorem jobStartTick (p : PartId) : Statement (Instr.jobStartTick p) := by
  constructor <;> intro x h <;> cases h
theorem jobKill (f : Frame) : Statement (Instr.jobKill f) := by
  constructor <;> intro x h <;> cases h <;> rfl
theorem jobStatus (f : Frame) : Statement (Instr.jobStatus f) := by
  constructor <;> intro x h <;> cases h <;> rfl
theorem scrub (f : Frame) : Statement (Instr.scrub f) := by
  constructor <;> intro x h <;> cases h <;> rfl
theorem ckptSave (f : Frame) : Statement (Instr.ckptSave f) := by
  constructor <;> intro x h <;> cases h <;> rfl
theorem ckptRestore (f : Frame) (image : Option (List Byte)) : Statement (Instr.ckptRestore f image) := by
  constructor <;> intro x h <;> cases h <;> rfl
theorem regRead (f : Frame) : Statement (Instr.regRead f) := by
  constructor <;> intro x h <;> cases h <;> rfl
theorem regWrite (f : Frame) : Statement (Instr.regWrite f) := by
  constructor <;> intro x h <;> cases h <;> rfl
theorem powerSet (f : Frame) : Statement (Instr.powerSet f) := by
  constructor <;> intro x h <;> cases h <;> rfl
theorem quote (f : Frame) : Statement (Instr.quote f) := by
  constructor <;> intro x h <;> cases h <;> rfl
theorem certRead (f : Frame) : Statement (Instr.certRead f) := by
  constructor <;> intro x h <;> cases h <;> rfl
theorem fwInstall (f : Frame) : Statement (Instr.fwInstall f) := by
  constructor <;> intro x h <;> cases h <;> rfl
theorem statusRead (crcOk : Bool) : Statement (Instr.statusRead crcOk) := by
  constructor <;> intro x h <;> cases h
theorem halt (lowNs : Nat) (wordsDone : Nat) : Statement (Instr.halt lowNs wordsDone) := by
  constructor <;> intro x h <;> cases h
theorem svnFloorRaise : Statement (Instr.svnFloorRaise) := by
  constructor <;> intro x h <;> cases h
theorem ballastPeriod (start : BitVec 48) : Statement (Instr.ballastPeriod start) := by
  constructor <;> intro x h <;> cases h
theorem policyTakesEffect : Statement (Instr.policyTakesEffect) := by
  constructor <;> intro x h <;> cases h
theorem powerSample (tenMilliVolt deciAmp : Nat) (draw : PowerDraw) : Statement (Instr.powerSample tenMilliVolt deciAmp draw) := by
  constructor <;> intro x h <;> cases h
theorem thermalSample (tele : ThermalTelemetry) : Statement (Instr.thermalSample tele) := by
  constructor <;> intro x h <;> cases h
theorem emergencyRestart : Statement (Instr.emergencyRestart) := by
  constructor <;> intro x h <;> cases h
theorem powerOn (env : BootEnv) : Statement (Instr.powerOn env) := by
  constructor <;> intro x h <;> cases h
theorem powerLoss : Statement (Instr.powerLoss) := by
  constructor <;> intro x h <;> cases h
theorem resetN (lowNs : Nat) (env : BootEnv) : Statement (Instr.resetN lowNs env) := by
  constructor <;> intro x h <;> cases h
theorem warmReset : Statement (Instr.warmReset) := by
  constructor <;> intro x h <;> cases h
theorem warmResetBegin (env : BootEnv) : Statement (Instr.warmResetBegin env) := by
  constructor <;> intro x h <;> cases h
theorem tileReset (t : TileId) : Statement (Instr.tileReset t) := by
  constructor <;> intro x h <;> cases h
theorem telemetryRead (first : TelStart) (count : Nat) : Statement (Instr.telemetryRead first count) := by
  constructor <;> intro x h <;> cases h
theorem collectionPass : Statement (Instr.collectionPass) := by
  constructor <;> intro x h <;> cases h
theorem collectionPassComplete : Statement (Instr.collectionPassComplete) := by
  constructor <;> intro x h <;> cases h
theorem haltRelease (highNs : Nat) : Statement (Instr.haltRelease highNs) := by
  constructor <;> intro x h <;> cases h
theorem resetNRelease (env : BootEnv) : Statement (Instr.resetNRelease env) := by
  constructor <;> intro x h <;> cases h
theorem kitelineDown : Statement (Instr.kitelineDown) := by
  constructor <;> intro x h <;> cases h
theorem kitelineUp : Statement (Instr.kitelineUp) := by
  constructor <;> intro x h <;> cases h

end Sys2Proof.Laws.Shape
end

