-- ==== Sys2Proof/Tests/Slice0.lean ====
section
/-! SUPPORT. Tests: slot words written out from the encoding tables of 03, an ill-formed term for each check of WellFormed, worked results
from the spec's rules, and for each statement with hypotheses a state and operands that meet them. -/

namespace Sys2Proof.Tests

set_option Elab.async false

open Sys2Proof Sys2Proof.Machine

/-! ## Helpers -/

/-- A slot instruction on tile 0 under p0, alone in its bundle. -/
def j0 : Issue := { tile := 0, pred := 0, pneg := false, more := false }
/-- A module in phase READY: tile 0 as given, partition 0 with half 0 and a running job. -/
def tMod (d : TileData) : Mod :=
  { bringup := .ready, powered := true, moduleNum := 7, tiles := [(0, { d := d, bundle := none })]
    parts := [(0, { halves := 1, jstate := .running, rstate := .running })] }
/-- A state of a C0 module. -/
def stOf (m : Mod) : State := { chip := { stepping := .c0 }, m := m, pending := [] }
/-- The state with tile 0 as given. -/
def tSt (d : TileData) : State := stOf (tMod d)
/-- A tile that runs. -/
def runT : TileData := { st := .running }
/-- The module after a command. -/
def after (c : Instr) (s : State) : Mod :=
  match exec c s with
  | .next t => t.m
  | _ => s.m
/-- Tile 0 after a command. -/
def tile0 (c : Instr) (s : State) : TileData := tdOf (after c s) 0
/-- A BODY with rd, ra, rb and FN (R64). -/
def body (rd ra rb fn : Nat) : BitVec 22 := BitVec.ofNat 22 (rd * 2 ^ 17 + ra * 2 ^ 12 + rb * 2 ^ 7 + fn)
/-- A BODY with rd, ra and IMM12. -/
def bodyI (rd ra imm : Nat) : BitVec 22 := BitVec.ofNat 22 (rd * 2 ^ 17 + ra * 2 ^ 12 + imm)
/-- A COMMAND frame with these argument words, the rest zero. -/
def frameOf (w : List W32) (data : List Byte) : Frame := { seq := 1, crcOk := true, w := w ++ List.replicate (16 - w.length) 0, data := data }

/-! ## Slot words (R64: OP in 31:26, PRED in 25:23, PNEG in 22, BODY below) -/

/-- ADD s3, s1, s2: OP 0x01, rd 3, ra 1, rb 2. -/
theorem test_word_add : decodeSlot .s 0 false 0b000001_000_0_00011_00001_00010_0000000 = .add j0 (body 3 1 2 0) := by decide +kernel
/-- BR to 5 when p2 is false: OP 0x28, PRED 2, PNEG 1, target 5 in 21:10. -/
theorem test_word_br :
    decodeSlot .s 0 false 0b101000_010_1_000000000101_0000000000 = .br { j0 with pred := 2, pneg := true } (5 * 1024) := by decide +kernel
/-- VFMA v1, v2, v3: OP 0x13. -/
theorem test_word_vfma : decodeSlot .v 0 false 0b010011_000_0_00001_00010_00011_0000000 = .vfma j0 (body 1 2 3 0) := by decide +kernel
/-- MZERO of 4 rows from row 1 on all arrays: OP 0x03, ROW 1, ROWS 3, MASK 15. -/
theorem test_word_mzero :
    decodeSlot .m 0 false 0b000011_000_0_0000001_0000011_1111_0000 = .mzero j0 (1 * 2 ^ 15 + 3 * 2 ^ 8 + 15 * 2 ^ 4) := by decide +kernel
/-- SWAIT of signal 5 for 2: OP 0x21, SIGNAL 5 in 21:16, COUNT 2 in 15:10. -/
theorem test_word_swait : decodeSlot .x 0 false 0b100001_000_0_000101_000010_0000000000 = .swait j0 (5 * 2 ^ 16 + 2 * 2 ^ 10) := by decide +kernel
/-- An unlisted X-slot opcode and the word of zeros are NOP (R64, R67). -/
theorem test_word_nop : decodeSlot .x 0 false 0xFC000000 = .nop j0 .x 0x3F 0 ∧ decodeSlot .v 0 false 0 = .nop j0 .v 0 0 := by decide +kernel
/-- No row of the table gives bits, so no table word spells a command. -/
theorem test_table_word : decodeTableWord 32 0x04000000 = none ∧ State.reset.withFetchWord 32 0x04000000 = State.reset := ⟨rfl, rfl⟩

/-! ## Ill-formed commands, one for each check -/

/-- A frame with 17 words, and one with data behind a short argument block (R419). -/
theorem test_ill_frame : wellFormed (.identify { seq := 0, crcOk := true, w := List.replicate 17 0, data := [] }) = false ∧
    wellFormed (.memWrite { seq := 0, crcOk := true, w := [0], data := [1] }) = false := by decide +kernel
/-- A NOP that names a listed opcode. -/
theorem test_ill_nop : wellFormed (.nop j0 .s 1 0) = false := by decide +kernel
/-- A link beat and a compiled beat of 15 words (R374, R226). -/
theorem test_ill_beat : wellFormed (.linkBeat 0 .clean 0 (List.replicate 15 0)) = false ∧
    wellFormed (.inboundBeat 0 0 0 (List.replicate 15 0)) = false := by decide +kernel
/-- A DMA packet whose length is no multiple of 4, and one whose payload is not as long as it says (R381). -/
def pkt0 : DmaPkt :=
  { destModule := 7, srcModule := 9, srcTile := 0, jobTag := 0, addr := BitVec.ofNat 48 tileBase, length := 4, signal := 0, mode := 0, hops := 0
    payload := [5], crcOk := true }
theorem test_ill_packet : wellFormed (.putData 0 { pkt0 with length := 6 }) = false ∧ wellFormed (.putData 0 { pkt0 with payload := [] }) = false ∧
    wellFormed (.getRequest 0 pkt0) = false ∧ wellFormed (.putData 0 pkt0) = true := by decide +kernel
/-- A channel packet from a link that is not of its row's kind (R256). -/
def chan0 : ChanPkt :=
  { kind := .openReq, conn := 1, connModule := 9, ep := 2, epModule := 7, tgt := 0, jobTag := 0, srcTile := 0, amount := 1, code := 0, words := [] }
theorem test_ill_channel : wellFormed (.creditReturn (.port 0 chan0)) = false ∧ wellFormed (.openRequest (.port 0 chan0)) = true := by decide +kernel
/-- Telemetry without a value for each half (R472, R475), and a telemetry offset of two bytes (R516). -/
theorem test_ill_telemetry :
    wellFormed (.powerSample 4800 0 { watt := 0, outsideW := 0, halfW := [] }) = false ∧
    wellFormed (.thermalSample { dieHalf := [1], stackMax := 0, inlet := 0, outlet := 0 }) = false ∧
    wellFormed (.telemetryRead { addr := 0x60, offset := 256, written := 1 } 1) = false := by decide +kernel
/-- A frame with a TYPE that is no COMMAND and not reserved, and one with a listed opcode in place of its row's (R419, R431). -/
theorem test_ill_opcode : wellFormed (.quote { frameOf [] [] with ftype := 2 }) = false ∧
    wellFormed (.quote { frameOf [] [] with opcode := some 0x0101 }) = false ∧
    wellFormed (.quote { frameOf [] [] with opcode := some 0x0109 }) = true ∧ wellFormed (.quote { frameOf [] [] with ftype := 7 }) = true := by
  decide +kernel
/-- An ill-formed command ends in its fault; a well-formed one never does. -/
theorem test_ill_faults : exec (.nop j0 .s 1 0) (tSt runT) = .fault .illFormed := rfl

/-! ## Worked results of the rules -/

/-- ADD wraps modulo 2^32, and s0 stays zero (R58, R103). -/
theorem test_add_wraps : getS (tile0 (.add j0 (body 3 1 2 0)) (tSt { runT with sreg := [(1, 0xFFFFFFFF), (2, 2)] })) 3 = 1 ∧
    getS (tile0 (.add j0 (body 0 1 2 0)) (tSt { runT with sreg := [(1, 0xFFFFFFFF), (2, 2)] })) 0 = 0 := by decide +kernel
/-- SRA shifts by b[4:0] and keeps the sign (R104). -/
theorem test_sra : getS (tile0 (.sra j0 (body 3 1 2 0)) (tSt { runT with sreg := [(1, 0x80000000), (2, 33)] })) 3 = 0xC0000000 := by decide +kernel
/-- MULHS and MULHU of 0xFFFFFFFF with itself: -1 times -1 has high half 0, (2^32 - 1)^2 has 0xFFFFFFFE (R103). -/
theorem test_mulh : getS (tile0 (.mulhs j0 (body 3 1 1 0)) (tSt { runT with sreg := [(1, 0xFFFFFFFF)] })) 3 = 0 ∧
    getS (tile0 (.mulhu j0 (body 3 1 1 0)) (tSt { runT with sreg := [(1, 0xFFFFFFFF)] })) 3 = 0xFFFFFFFE := by decide +kernel
/-- ADDI extends the sign of IMM12 (R105). -/
theorem test_addi : getS (tile0 (.addi j0 (bodyI 3 0 0xFFF)) (tSt runT)) 3 = 0xFFFFFFFF := by decide +kernel
/-- LIH keeps the low half (R67). -/
theorem test_lih : getS (tile0 (.lih j0 (bodyI 3 0x1 0x234)) (tSt { runT with sreg := [(3, 0xABCD)] })) 3 = 0x1234ABCD := by decide +kernel
/-- A store with its address register as base, and the load of the same word (R75). -/
theorem test_st_ld : spWord (tile0 (.st j0 (bodyI 3 1 1)) (tSt { runT with sreg := [(1, 0x100), (3, 7)] })) 0x104 = 7 ∧
    getS (tile0 (.ld j0 (bodyI 3 1 1)) (tSt { runT with sreg := [(1, 0x100)], scratch := [(0x41, 9)] })) 3 = 9 := by decide +kernel
/-- A misaligned load traps with 0x09 and its address (R75). -/
theorem test_ld_trap : (tile0 (.ld j0 (bodyI 3 1 0)) (tSt { runT with sreg := [(1, 2)] })).trap.cause = 0x09 ∧
    (tile0 (.ld j0 (bodyI 3 1 0)) (tSt { runT with sreg := [(1, 2)] })).st = .trapped := by decide +kernel
/-- A disabled instruction writes nothing (R65): p1 is all zeros here. -/
theorem test_disabled : getS (tile0 (.addi { j0 with pred := 1 } (bodyI 3 0 5)) (tSt runT)) 3 = 0 := by decide +kernel
/-- 1.0 + 2^-24 is a tie that rounds to even: 1.0 (R107). -/
theorem test_fadd_tie : fAdd 0x3F800000 0x33800000 = 0x3F800000 ∧ fAdd 0x3F800001 0x33800000 = 0x3F800002 := by decide +kernel
/-- Infinity minus infinity, and zero times infinity, are the canonical NaN (R108, R110). -/
theorem test_nan : fAdd 0x7F800000 0xFF800000 = 0x7FC00000 ∧ fMul 0 0x7F800000 = 0x7FC00000 := by decide +kernel
/-- CRC-32C of the nine digits is the check value of the Castagnoli polynomial (R377). -/
theorem test_crc : crc32c [0x31, 0x32, 0x33, 0x34, 0x35, 0x36, 0x37, 0x38, 0x39] = 0xE3069283 := by decide +kernel
/-- The tick counter advances at the last cycle of a tick (R30). -/
theorem test_tick : (passCycle { stepping := .c0 } { phase := 639 }).tick = 1 ∧ (passCycle { stepping := .c0 } { phase := 638 }).phase = 639 := by
  decide +kernel
/-- MODULE_NUM 9,999 is the last (R385). -/
theorem test_module_num : (after (.setModuleNum (frameOf [9999] [])) (stOf { bringup := .ready })).moduleNum = 9999 ∧
    (after (.setModuleNum (frameOf [10000] [])) (stOf { bringup := .ready })).moduleNum = 0x3FFF := by decide +kernel


/-- R227: a Tether port takes 13 compiled beats in 8 cycles; one more is discarded with code 0x0C. -/
theorem test_port_overrun :
    let m (q k : Nat) : Mod := modPort q (fun y => { y with state := .up, sent := List.replicate k 100 }) { State.reset.m with now := 104 }
    (partOf (sendCompiled 3 0 0 [] (m 3 13)) 0).exchFault.e = 12 ∧ (sendCompiled 3 0 0 [] (m 3 13)).out = [] ∧
      (sendCompiled 3 0 0 [] (m 3 12)).out.length = 1 ∧ (sendCompiled 3 0 0 [] { m 3 13 with now := 108 }).out.length = 1 ∧
      (sendCompiled 48 0 0 [] (m 48 13)).out.length = 1 := by
  decide +kernel
/-- R227: other classes keep a slot of the limit of a Tether link for a compiled beat of each cycle: five take the link at once, not six. -/
theorem test_link_room : linkRoom 3 40 true (List.replicate 4 40) = true ∧ linkRoom 3 40 true (List.replicate 5 40) = false ∧
    linkRoom 50 40 true (List.replicate 24 40) = true ∧ linkRoom 50 40 true (List.replicate 25 40) = false := by decide +kernel
/-- R376: reduction before channel before DMA, but a DMA beat that has waited 64 cycles goes first. -/
theorem test_next_beat :
    let b (cls since : Nat) : WaitBeat := ⟨cls, true, true, [], since, none⟩
    nextBeat 100 [b 2 40, b 3 40, b 1 40] = some 2 ∧ nextBeat 104 [b 2 40, b 3 40, b 1 40] = some 0 := by decide +kernel


/-! ## States and operands that meet the hypotheses of the statements, each clause in order -/

theorem witness_StepRunsFront : (stOf {}).pending = [] ∧ ({ stOf {} with pending := [.tickLost] } : State).pending = .tickLost :: [] := ⟨rfl, rfl⟩
theorem witness_EveryCommandAnswers : wellFormed .tickLost = true ∧ wellFormed (.nop j0 .s 1 0) = false := by decide +kernel
theorem witness_SlotWordsRoundTrip : slotFields (.swait j0 0x3FFFFF) = some (.x, 0x21, j0, 0x3FFFFF) ∧ wellFormed (.swait j0 0x3FFFFF) = true :=
  ⟨rfl, by decide +kernel⟩
theorem witness_ScalarResults : (∃ f, scalarRule (.maxu j0 (body 31 31 31 0)) = some (j0, body 31 31 31 0, f)) ∧
    slotReady .s j0 [fRa (body 31 31 31 0), fRb (body 31 31 31 0)] [fRd (body 31 31 31 0)] (tMod runT) = true ∧
    (tileOf (tMod runT) 0).bundle = none ∧ fFn (body 31 31 31 0) = 0 := ⟨⟨_, rfl⟩, by decide +kernel, rfl, by decide +kernel⟩
theorem witness_ScalarImmediateResults : (∃ f, scalarImmRule (.srai j0 (bodyI 1 31 31)) = some (j0, bodyI 1 31 31, f)) ∧
    slotReady .s j0 [fRa (bodyI 1 31 31)] [fRd (bodyI 1 31 31)] (tMod runT) = true ∧ (tileOf (tMod runT) 0).bundle = none ∧
    isShiftImm (.srai j0 (bodyI 1 31 31)) = true ∧ bits (bodyI 1 31 31).toNat 11 5 = 0 := ⟨⟨_, rfl⟩, by decide +kernel, rfl, rfl, by decide +kernel⟩
theorem witness_LoadImmediateResults : slotReady .s j0 [fRd (bodyI 31 15 0xFFF)] [fRd (bodyI 31 15 0xFFF)] (tMod runT) = true ∧
    bits (bodyI 31 15 0xFFF).toNat 16 16 = 0 ∧ bits (bodyI 31 15 0xFFF).toNat 15 0 = 0xFFFF := by decide +kernel
theorem witness_PredicateResults :
    (fRd (body 7 1 2 5) < 8 ∧ slotReady .s j0 [fRa (body 7 1 2 5), fRb (body 7 1 2 5)] [kP (fRd (body 7 1 2 5))] (tMod runT) = true ∧ fFn (body 7 1 2 5) ≤ 5) ∧
    (fRd (body 7 0 0 7) < 8 ∧ slotReady .s j0 [kP (fRa (body 7 0 0 7)), kP (fRb (body 7 0 0 7))] [kP (fRd (body 7 0 0 7))] (tMod runT) = true ∧
      fFn (body 7 0 0 7) ≤ 7 ∧ fRa (body 7 0 0 7) = 0 ∧ fRb (body 7 0 0 7) = 0) := by decide +kernel
/-- s1 holds the last word address of the scratchpad. -/
def lastT : TileData := { runT with sreg := [(1, 0xFFFFC)] }
theorem witness_ScalarLoadStore : effAddr (tdJ j0 (tMod lastT)) (bodyI 3 1 0) 4 = 0xFFFFC ∧
    slotReady .s j0 [fRa (bodyI 3 1 0)] [fRd (bodyI 3 1 0)] (tMod lastT) = true ∧ (tdJ j0 (tMod lastT)).spBad.contains 0x3FFFF = false ∧
    slotReady .s j0 [fRa (bodyI 3 1 0), fRd (bodyI 3 1 0)] [] (tMod lastT) = true := by decide +kernel
/-- A trap of a parity check that is due. -/
def due0 : DueTrap := ⟨7, 1, trapScratchParity, 0xFFFFC, 3, 0, [0xFFFFC]⟩
theorem witness_ScalarLoadStore_parity : (tdJ j0 (tMod { lastT with spBad := [0x3FFFF] })).spBad.contains (effAddr (tdJ j0 (tMod lastT)) (bodyI 3 1 0) 4 / 4) = true ∧
    plainTile j0 (tMod { lastT with spBad := [0x3FFFF] }) = true ∧ j0.more = false ∧
    slotReady .s j0 [fRa (bodyI 3 1 0)] [fRd (bodyI 3 1 0)] (tMod { lastT with spBad := [0x3FFFF] }) = true ∧
    (slotFields (.nop j0 .s 0 0) = some (.s, 0, j0, 0) ∧ coreRuns (tMod { runT with faultsDue := [due0], nextIssue := 3 }) 0 = true ∧
      noBeatToRead 0 (tMod { runT with faultsDue := [due0], nextIssue := 3 }) = true ∧ due0.cycle ≤ 3 ∧ due0.cause = 0x0A ∧ due0.words = [0xFFFFC]) := by
  decide +kernel
theorem witness_ScalarAccessTraps : slotReady .s j0 [fRa (bodyI 3 1 1)] [fRd (bodyI 3 1 1)] (tMod lastT) = true ∧
    slotReady .s j0 [fRa (bodyI 3 1 1), fRd (bodyI 3 1 1)] [] (tMod lastT) = true ∧ slotEnabled j0 (tMod lastT) = true ∧
    noBeatToRead 0 (tMod lastT) = true ∧ effAddr (tdJ j0 (tMod lastT)) (bodyI 3 1 1) 4 = 0x100000 := by decide +kernel
theorem witness_ControlFlow : (tdJ j0 (tMod runT)).oneBundle = false ∧ endsLoop (tdJ j0 (tMod runT)) = false ∧
    slotReady .s j0 [] [] (tMod runT) = true ∧ bits (BitVec.ofNat 22 (4095 * 1024)).toNat 9 0 = 0 ∧ slotReady .s j0 [] [kS 31] (tMod runT) = true ∧
    slotReady .s j0 [fRa (body 0 1 0 0)] [] (tMod { runT with sreg := [(1, 4095)] }) = true ∧
    (getS (tdJ j0 (tMod { runT with sreg := [(1, 4095)] })) 1).toNat < 4096 ∧
    slotReady .s j0 [fRd (BitVec.ofNat 22 (1 * 2 ^ 17 + 1 * 2 ^ 5))] [] (tMod runT) = true ∧
    (tdJ j0 (tMod runT)).pc < bits (BitVec.ofNat 22 (1 * 2 ^ 17 + 1 * 2 ^ 5)).toNat 16 5 ∧ (tdJ j0 (tMod runT)).loops = [] ∧
    (tdJ j0 (tMod runT)).breakEnable = false := by decide +kernel
/-- s1 as given, s2 zero. -/
def oneReg (v : W32) : TileData := { runT with sreg := [(1, v)] }
theorem witness_BreakStops : slotReady .s j0 [] [] (tMod { runT with breakEnable := true }) = true ∧
    slotEnabled j0 (tMod { runT with breakEnable := true }) = true ∧ (tdJ j0 (tMod { runT with breakEnable := true })).breakEnable = true := by
  decide +kernel
/-- Tile 0 at bundle 4,095 with two active loops, of which the inner one ends there; s1 holds 4,096. -/
def endT : TileData :=
  { runT with pc := 4095, imemBad := [16383], sreg := [(1, 4096)], loops := [{ start := 1, last := 4095, remain := 2 }, { start := 0, last := 4095, remain := 2 }] }
/-- Tile 0 at bundle 0 with loops that end at the bundles given, the innermost first. -/
def loopT (l : List Nat) : TileData := { oneReg 4096 with loops := l.map (fun e => { start := 0, last := e, remain := 2 }) }
/-- Tile 0 with a bundle in progress, whose S slot has s31 as its destination. -/
def twoSlots : Mod :=
  { tMod runT with tiles := [(0, { d := runT, bundle := some { base := runT, slots := [.s], dests := [kS 31] } })] }
theorem witness_BreakStops_fetch : slotFields (.nop j0 .x 0x3F 0) = some (.x, 0x3F, j0, 0) ∧ wellFormed (.nop j0 .x 0x3F 0) = true ∧
    coreRuns (tMod endT) 0 = true ∧ (tdJ j0 (tMod endT)).faultsDue = [] ∧ (tdJ j0 (tMod endT)).spBad = [] ∧ noBeatToRead 0 (tMod endT) = true ∧
    ({ endT with pc := 4096 } : TileData).pc = 4096 ∧ (baseJ j0 (tMod endT)).pc = 4095 ∧ (tdJ j0 (tMod endT)).imemBad.contains (4 * 4095 + 3) = true := by
  decide +kernel
theorem witness_BreakStops_checks : checksNow .x j0 (tMod runT) ∧ (0x3F : BitVec 6).toNat ∉ listedRule .x ∧ checksNow .v j0 twoSlots ∧
    kS (fRd (body 31 1 0 31)) ∈ [kS 31] ∧ fFn (body 31 1 0 31) < 32 ∧
    (checksNow .s j0 (tMod { endT with imemBad := [] }) ∧ (baseJ j0 (tMod { endT with imemBad := [] })).loops.any (fun l => l.last == 4095) = true ∧
      bits (0 : BitVec 22).toNat 9 0 = 0) ∧
    (checksNow .s j0 (tMod (loopT [2, 3])) ∧ slotEnabled j0 (tMod (loopT [2, 3])) = true ∧ (baseJ j0 (tMod (loopT [2, 3]))).loops.all (fun l => l.last != 0) = true ∧
      4096 ≤ (getS (baseJ j0 (tMod (loopT [2, 3]))) (fRa (body 0 1 0 0))).toNat ∧
      bits (BitVec.ofNat 22 (1 * 2 ^ 17)).toNat 16 5 ≤ 0 ∧ 2 ≤ bits (BitVec.ofNat 22 (1 * 2 ^ 17 + 2 * 2 ^ 5)).toNat 16 5 ∧
      0 < bits (BitVec.ofNat 22 (1 * 2 ^ 17 + 1 * 2 ^ 5)).toNat 16 5 ∧ bits (BitVec.ofNat 22 (1 * 2 ^ 17 + 1 * 2 ^ 5)).toNat 16 5 < 2) := by
  unfold checksNow; decide +kernel
theorem witness_BreakStops_reserved : reservedRule (.add j0 (body 3 1 2 127)) (body 3 1 2 127) ∧ reservedRule (.br j0 1023) 1023 ∧
    flowRule (.br j0 0) j0 ∧ flowRule (.exit j0 0) j0 :=
  ⟨Or.inl ⟨j0, _, Or.inl rfl, by decide +kernel⟩, Or.inr (Or.inr (Or.inr (Or.inr (Or.inr (Or.inr ⟨j0, Or.inr ⟨Or.inl rfl, by decide +kernel⟩⟩))))),
    ⟨0, Or.inl ⟨Or.inl rfl, by decide +kernel⟩⟩, ⟨0, Or.inr (Or.inr (Or.inr rfl))⟩⟩
theorem witness_TimeAndCsrReads : (tileOf (tMod runT) 0).bundle = none ∧ slotEnabled j0 (tMod runT) = true ∧ noBeatToRead 0 (tMod runT) = true ∧
    (slotReady .s j0 [] [fRd (body 1 0 0 5)] (tMod runT) = true ∧ fRa (body 1 0 0 5) = 0 ∧ fRb (body 1 0 0 5) = 0 ∧ fFn (body 1 0 0 5) ≤ 5) ∧
    (slotReady .s j0 [] [fRd (bodyI 1 0 0x81F)] (tMod runT) = true ∧ csrListed (fImm (bodyI 1 0 0x81F) % 2048) = true ∧
      csrListed (fImm (bodyI 1 0 0x810) % 2048) = true ∧ csrListed (fImm (bodyI 1 0 0x817) % 2048) = true) ∧
    (slotReady .s j0 [fRa (bodyI 0 1 0x01F)] [] (tMod runT) = true ∧ fRd (bodyI 0 1 0x01F) = 0 ∧ fImm (bodyI 0 1 0x01F) % 2048 = 0x01F) ∧
    (slotReady .s j0 [fRa (bodyI 0 1 0x018)] [] (tMod runT) = true ∧ fImm (bodyI 0 1 0x018) % 2048 = 0x018 ∧ (tdJ j0 (tMod runT)).oneBundle = false) ∧
    (csrListed (fImm (bodyI 1 0 0x7FF) % 2048) = false ∧ fRa (bodyI 1 0 0x7FF) = 0 ∧ csrWritable (fImm (bodyI 0 1 0x01B) % 2048) = false) := by decide +kernel
theorem witness_VectorIntegerResults : (∃ f, vectorIntRule (.vsra j0 (body 31 30 29 0)) = some (j0, body 31 30 29 0, f)) ∧
    slotReady .v j0 [kV 30, kV 29] [kV 31] (tMod runT) = true ∧ fFn (body 31 30 29 0) = 0 := ⟨⟨_, rfl⟩, by decide +kernel, by decide +kernel⟩
theorem witness_VectorFloatResults : (∃ f, vectorFpRule (.vfma j0 (body 31 30 29 0)) = some (j0, body 31 30 29 0, f, true)) ∧
    slotReady .v j0 ([kV 30, kV 29] ++ [kV 31]) [kV 31] (tMod runT) = true := ⟨⟨_, rfl⟩, by decide +kernel⟩
theorem witness_VectorFunctionResults : (∃ f, vectorFnRule (.vlog2 j0 (body 31 30 0 0)) = some (j0, body 31 30 0 0, f)) ∧
    slotReady .v j0 [kV 30] [kV 31] (tMod runT) = true ∧ fRb (body 31 30 0 0) = 0 ∧ fFn (body 31 30 0 0) = 0 ∧
    0x80000001 ≤ (0xFF800000 : W32).toNat ∧ (0xFF800000 : W32).toNat ≤ 0xFF800000 :=
  ⟨⟨_, rfl⟩, by decide +kernel, by decide +kernel, by decide +kernel, by decide +kernel, by decide +kernel⟩
theorem witness_VectorMoveResults :
    (slotReady .v j0 [kV 1, kV 2] [kP 7] (tMod runT) = true ∧ fFn (body 7 1 2 0xC) = 0xC ∧ fRd (body 7 1 2 0xC) = 7) ∧
    (slotReady .v j0 [kV 1, kV 2, kP (7 % 8)] [kV 3] (tMod runT) = true ∧ fFn (body 3 1 2 7) < 8) ∧
    (slotReady .v j0 [kS 1] [kV 3] (tMod runT) = true ∧ fRb (body 3 1 0 0) = 0) ∧
    (slotReady .v j0 [kV 1, kV 2] [kV 3] (tMod runT) = true ∧ fFn (body 3 1 2 0) = 0) ∧
    (slotReady .v j0 [kV 1] [kS 3] (tMod runT) = true ∧ fFn (body 3 1 0 31) = 31 ∧ noLate j0 (tMod runT) = true) := by decide +kernel
theorem witness_VectorReductionAndConversion : fRb (body 3 1 0 3) = 0 ∧ slotReady .v j0 [kV 1] [kV 3] (tMod runT) = true ∧ fFn (body 3 1 0 3) ≤ 3 ∧
    (∃ i, i < 32 ∧ laneEnabled j0 (tMod runT) i = true) ∧ slotReady .v j0 [kV 1, kV 3] [kV 3] (tMod runT) = true ∧
    (fFn (body 3 1 0 127) = 127 ∧ cvtListed (127 % 32) (127 / 32) = false ∧ cvtListed (fFn (body 3 1 0 108) % 32) (fFn (body 3 1 0 108) / 32) = true ∧
      cvtListed 0 1 = true ∧ cvtListed 4 3 = true ∧ cvtListed 8 0 = true ∧ cvtListed 0xC 3 = true ∧ cvtListed 0x10 0 = true ∧ cvtListed 0x14 0 = true ∧
      cvtListed 0x18 0 = true ∧ cvtListed 0x1C 0 = true) :=
  ⟨by decide +kernel, by decide +kernel, by decide +kernel, ⟨31, by decide +kernel⟩, by decide +kernel, by decide +kernel⟩
theorem witness_ExactValuesRoundTrip : f32IsNan 0x80000001 = false ∧ f32IsNan 0xFF800000 = false := by decide +kernel
theorem witness_NonFiniteCounting : (tdJ j0 (tMod { runT with nfResults := 2 ^ 64 - 1 })).nfResults < 2 ^ 64 ∧
    slotReady .v j0 ([kV 30, kV 29] ++ []) [kV 31] (tMod { runT with nfResults := 2 ^ 64 - 1 }) = true := by decide +kernel
/-- s1 holds the last line of the scratchpad. -/
def lineT : TileData := { runT with sreg := [(1, 0xFFF80)] }
theorem witness_VectorLoadStore :
    (∃ a : Nat → Nat, (∀ i, a i = effAddr (baseJ j0 (tMod lineT)) (bodyI 3 1 0) 128 + 4 * i) ∧ effAddr (baseJ j0 (tMod lineT)) (bodyI 3 1 0) 128 % 128 = 0 ∧
      (∀ i, i < 32 → a i < 0x100000)) ∧ slotReady .v j0 [kS 1] [kV 3] (tMod lineT) = true ∧
    (∃ a : Nat → Nat, (∀ i, a i = (getS (baseJ j0 (tMod runT)) 1).toNat + 4 * fImm (bodyI 3 1 31) + 128 * i) ∧ fImm (bodyI 3 1 31) < 32 ∧
      (∀ i, i < 32 → a i < 0x100000)) ∧ slotReady .v j0 [kS 1, kV 3] [] (tMod runT) = true :=
  ⟨⟨_, fun _ => rfl, by decide +kernel, by decide +kernel⟩, by decide +kernel, ⟨_, fun _ => rfl, by decide +kernel, by decide +kernel⟩, by decide +kernel⟩
theorem witness_ArithmeticFrame : slotFields (.vlog2 j0 (body 1 2 0 0)) = some (.v, 0x1E, j0, body 1 2 0 0) ∧ noBeatToRead 0 (tMod runT) = true ∧
    ∃ s', exec (.vlog2 j0 (body 1 2 0 0)) (tSt runT) = .next s' := ⟨rfl, by decide +kernel, _, rfl⟩
/-- A BODY of an M-slot instruction with two address registers. -/
def mBody (ra rb low : Nat) : BitVec 22 := BitVec.ofNat 22 (ra * 2 ^ 17 + rb * 2 ^ 12 + low)
theorem witness_MatrixIssue : (tdJ j0 (tMod (oneReg 0x10000000))).mq.length < 4 ∧ slotEnabled j0 (tMod (oneReg 0x10000000)) = true ∧
    plainTile j0 (tMod (oneReg 0x10000000)) = true ∧ slotReady .m j0 [1, 2] [] (tMod (oneReg 0x10000000)) = true ∧
    -- MLDW of format 1, array 3, buffer 1; of a reserved format, and of OFF
    (bits (mBody 1 2 0xE00).toNat 8 0 = 0 ∧ mldwCode 0x10000000 0 = 0 ∧ mldwCode 0xB0000000 0 = 1 ∧ mldwCode 0x100FFFE0 0 = 4 ∧ mldwCode 0 0 = 5) ∧
    -- MRUN of format 1 over rows 127 to 127; of INT8 with a product scale; over row 128; of OFF
    (bits (mBody 1 2 0).toNat 2 0 = 0 ∧ mrunCode (tdJ j0 (tMod (oneReg 0x17F00000))) 0x17F00000 0 1 0 false = 0 ∧
      mrunCode (tdJ j0 (tMod (oneReg 0xA7F00000))) 0xA7F00000 0x00800000 1 0 false = 0 ∧
      mrunCode (tdJ j0 (tMod (oneReg 0xA7F00000))) 0xA7F00000 0x007FFFFF 1 0 false = 7 ∧
      mrunCode (tdJ j0 (tMod (oneReg 0x17F00000))) 0x17F00000 0 2 0 false = 3 ∧ mrunCode (tdJ j0 (tMod runT)) 0 0 1 0 false = 5 ∧
      mrunCode { runT with wIssued := [(0, 6)] } 0x10000000 0 1 0 false = 2) ∧
    -- MDRAIN of row 127 of array 3, in both layouts; of INT8
    (bits (mBody 1 2 0x1C).toNat 1 0 = 0 ∧ mdrainCode 0x07F00000 0 1 false = 0 ∧ bit (mBody 1 2 0x1C).toNat 2 = true ∧ mdrainCode 0x17F00000 0 1 true = 0 ∧
      mdrainCode 0xA0000000 0 1 false = 5 ∧ mdrainCode 0x80000000 0 1 true = 5) ∧
    -- MZERO of row 127, and of rows 127 and 128
    (slotReady .m j0 [] [] (tMod runT) = true ∧ bits (BitVec.ofNat 22 (127 * 2 ^ 15)).toNat 3 0 = 0 ∧
      ¬128 < bits (BitVec.ofNat 22 (127 * 2 ^ 15)).toNat 21 15 + bits (BitVec.ofNat 22 (127 * 2 ^ 15)).toNat 14 8 + 1 ∧
      128 < bits (BitVec.ofNat 22 (127 * 2 ^ 15 + 2 ^ 8)).toNat 21 15 + bits (BitVec.ofNat 22 (127 * 2 ^ 15 + 2 ^ 8)).toNat 14 8 + 1) ∧
    -- MWGB of row 127 into block 47, which EXACT does not have
    (slotReady .m j0 [1] [] (tMod (oneReg 0x07F0002F)) = true ∧ bits (mBody 1 0 0).toNat 9 0 = 0 ∧ mwgbCode (tdJ j0 (tMod runT)) 0x07F0002F 1 = 0 ∧
      mwgbCode { runT with wgbExact := true } 0x07F0002F 1 = 6 ∧ mwgbCode (tdJ j0 (tMod runT)) 0x07F0002F 2 = 3) := by decide +kernel
/-- A module in the exchange phase, tile 0 as given. -/
def xMod (d : TileData) : Mod :=
  { tMod d with parts := [(0, { halves := 1, jstate := .running, rstate := .running, xphase := .exchange, xlen := 100 })] }
theorem witness_ExchangeIssue : (tileOf (xMod (oneReg 0x400FFFC0)) 0).bundle = none ∧ slotEnabled j0 (xMod (oneReg 0x400FFFC0)) = true ∧
    partOfTile (xMod (oneReg 0x400FFFC0)) 0 = some 0 ∧ plainTile j0 (xMod (oneReg 0x400FFFC0)) = true ∧
    (slotReady .x j0 [1] [] (xMod (oneReg 0x400FFFC0)) = true ∧ fRd (bodyI 1 0 0) = 1 ∧ fRa (bodyI 1 0 0) = 0 ∧
      xrecvCode (partOf (xMod runT) 0) (tdJ j0 (xMod (oneReg 0x400FFFC0))) 0x400FFFC0 1 (soloCycle (xIns 0x02 true [1] []) j0 (xMod (oneReg 0x400FFFC0))) = 0 ∧
      xrecvCode (partOf (xMod runT) 0) (tdJ j0 (xMod (oneReg 0x400FFFC0))) 0x400FFFC0 2 (soloCycle (xIns 0x02 true [1] []) j0 (xMod (oneReg 0x400FFFC0))) = 7 ∧
      xrecvCode (partOf (tMod runT) 0) (tdJ j0 (tMod (oneReg 0))) 0 1 0 = 5 ∧
      xrecvCode (partOf (xMod runT) 0) { runT with armed := [⟨4, 0, 1, 0, 0⟩] } 0x400FFFC0 1 0 = 3) ∧
    (slotReady .x j0 [1, 0] [] (xMod (oneReg 0x400FFFC0)) = true ∧ xDests (xMod (oneReg 0x400FFFC0)) 0 0 = .inl [.tile 0] ∧
      xsendCode (xMod (oneReg 0x400FFFC0)) 0 (tdJ j0 (xMod (oneReg 0x400FFFC0))) 0x400FFFC0 0 1
        (soloCycle (xIns 0x01 true [1, 0] []) j0 (xMod (oneReg 0x400FFFC0))) = 0 ∧
      xsendCode (xMod (oneReg 0x400FFFC0)) 0 { oneReg 0x400FFFC0 with xoFree := 9 } 0x400FFFC0 0 1 8 = 4 ∧ xdestCode (xMod runT) 0 0x1400 = 6 ∧
      xdestCode (xMod runT) 0 0x2000 = 7 ∧ (partOf (xMod (oneReg 0x400FFFC0)) 0).paths = []) := by decide +kernel
theorem witness_StreamIssue : (∀ i, i < 8 → (baseJ j0 (tMod (oneReg 0xFFFE0))).spBad.contains ((0xFFFE0 + 4 * i) / 4) = false) ∧ noLate j0 (tMod (oneReg 0xFFFE0)) = true ∧ plainTile j0 (tMod runT) = true ∧
    (slotReady .x j0 [1] [3] (tMod (oneReg 0xFFFE0)) = true ∧ bits (bodyI 3 1 0xB00).toNat 7 0 = 0 ∧ bits (bodyI 3 1 0xB00).toNat 11 8 = 11 ∧
      (getS (baseJ j0 (tMod (oneReg 0xFFFE0))) 1).toNat % 32 = 0 ∧ (getS (baseJ j0 (tMod (oneReg 0xFFFE0))) 1).toNat < 0x100000) ∧
    (slotReady .x j0 [] [3] (tMod runT) = true ∧ bits (bodyI 3 0 0xB00).toNat 16 12 = 0) ∧
    (slotReady .x j0 [] [] (tMod runT) = true ∧ bits (BitVec.ofNat 22 (11 * 2 ^ 18 + 63 * 2 ^ 12)).toNat 11 0 = 0 ∧
      bits (BitVec.ofNat 22 (11 * 2 ^ 18 + 63 * 2 ^ 12)).toNat 21 18 = 11 ∧ bits (BitVec.ofNat 22 (11 * 2 ^ 18 + 63 * 2 ^ 12)).toNat 17 12 = 63) := by
  decide +kernel
/-- A module with port 50 UP and its partition's, and an open connection in pool entry 5, which is handle 63 of tile 0. -/
def cMod (e : Ep) (d : TileData) : Mod :=
  { tMod { d with handles := [(63, 6)] } with pool := [(5, e)], ports := [(50, { state := .up, assigned := true })] }
/-- The sending side of a connection to one target. -/
def sendEp : Ep := { state := .opened, kind := .send, credits := [1], quota := 1 }
/-- A group with a target in the module and one behind port 50. -/
def grpMod (d : TileData) : Mod :=
  { cMod sendEp d with cgroups := [(16, BitVec.ofNat 64 (2 ^ 63 + 6 * 2 ^ 48 + 7)), (17, BitVec.ofNat 64 (2 ^ 63 + 1 * 2 ^ 48 + 50 * 2 ^ 42 + 9999))] }
theorem witness_ChannelOpenClose :
    mwf 0 (tdJ j0 (cMod sendEp runT)).handles = true ∧ mwf {} (cMod sendEp runT).pool = true ∧ noLate j0 (cMod sendEp runT) = true ∧
    (slotReady .x j0 [1, 2] [3] (cMod sendEp runT) = true ∧ copenOk 9999 0x10032 = true ∧ partOfTile (cMod sendEp runT) 0 = some 0 ∧
      (tdJ j0 (cMod sendEp runT)).handles.length < 64 ∧ (usedEps (cMod sendEp runT)).length < 32768 ∧ bit 9999 31 = false ∧
      freeHere (cMod sendEp runT) (bits 9999 13 0, bits 9999 30 16, bits 0x10032 5 0) = false ∧
      reachable (cMod sendEp runT) 0 (bits 9999 13 0, bits 9999 30 16, bits 0x10032 5 0) = true ∧
      reachable (cMod sendEp runT) 0 (bits 9999 13 0, bits 9999 30 16, 51) = false ∧ freeHere (cMod sendEp runT) (7, 4, 0) = true ∧
      64 ≤ (tdJ j0 (tMod { runT with handles := (List.range 64).map (fun h => (h, 1)) })).handles.length) ∧
    (copenOk 0x80010000 0x10000 = true ∧ groupTargets (grpMod runT) (bits 0x80010000 25 16) = [(7, 6, 0), (9999, 1, 50)] ∧
      (groupTargets (grpMod runT) 1).all (reachable (grpMod runT) 0) = true ∧ ((groupTargets (grpMod runT) 1).filter (fun g => !freeHere (grpMod runT) g)).length = 1) ∧
    (slotReady .x j0 [1] [3] (cMod sendEp runT) = true ∧ handleEp (cMod sendEp runT) 0 0 = none ∧ handleEp (cMod sendEp runT) 0 63 = some 5 ∧
      isSend (epOf (cMod sendEp runT) 5) = true ∧ (epOf (cMod sendEp runT) 5).state = .opened) ∧
    (isHere (cMod sendEp runT) 7 = true ∧ (epOf (cMod { sendEp with state := .opening } runT) 5).state = .opening) := by decide +kernel
/-- A receive endpoint that is an operand queue of tile 0. -/
def opqEp : Ep := { state := .opened, kind := .opq, handle := 63, credit := 16, quota := 16 }
/-- The sending side of a connection to a ring. -/
def ringEp : Ep := { sendEp with ring := true, quota := 33, credits := [33] }
/-- SEND of n bytes on handle 63 from address a. -/
def sendT (n a : Nat) : TileData := { runT with sreg := [(1, BitVec.ofNat 32 (n * 65536 + 63)), (2, BitVec.ofNat 32 a)] }
theorem witness_ChannelSendReceive : plainTile j0 (cMod sendEp (oneReg 63)) = true ∧ bits 63 5 0 = 63 ∧ handleEp (cMod sendEp (oneReg 63)) 0 63 = some 5 ∧
    (slotReady .x j0 [1, 2, 4] [3] (cMod sendEp (oneReg 63)) = true ∧ isSend (epOf (cMod sendEp (oneReg 63)) 5) = true ∧
      (epOf (cMod sendEp (oneReg 63)) 5).ring = false) ∧
    (slotReady .x j0 [1] [3, kP 7] (cMod opqEp (oneReg 63)) = true ∧ (epOf (cMod opqEp (oneReg 63)) 5).kind = .opq ∧
      fFn (BitVec.ofNat 22 (3 * 2 ^ 17 + 1 * 2 ^ 12 + 7 * 2 ^ 9)) = 0 ∧ fPd (BitVec.ofNat 22 (3 * 2 ^ 17 + 1 * 2 ^ 12 + 7 * 2 ^ 9)) = 7) ∧
    (slotReady .x j0 [1, 2, 0] [3] (cMod ringEp (sendT 4096 0xFF000)) = true ∧ plainTile j0 (cMod ringEp (sendT 4096 0xFF000)) = true ∧
      (getS (tdJ j0 (cMod ringEp (sendT 4096 0xFF000))) 1).toNat = 4096 * 65536 + 63 ∧ bits (4096 * 65536 + 63) 28 16 = 4096 ∧
      (8 + 4096 + 127) / 128 ≤ ringEp.quota ∧ (ringEp.ring = true ∧ isSend ringEp = true ∧ ringEp.state = .opened) ∧
      0xFF000 + (4096 + 3) / 4 * 4 = 0x100000 ∧ (sendT 4096 0xFF000).spBad = [] ∧ isHere (cMod ringEp runT) 7 = true) := by decide +kernel
/-- A barrier of the tiles of half 0, with two participants. -/
def bar0 : Bar := { valid := true, state := .active, participants := 2, limit := 1, cHi := 31, rHi := 31 }
/-- A module with that barrier as number 4,095. -/
def bMod (d : TileData) : Mod := { tMod d with bars := [(4095, bar0)] }
/-- The difference of BWAIT between a generation and g. -/
def aheadOf (gen g : Nat) : Nat := (gen + 65536 - g) % 65536
theorem witness_SyncAndBarrierIssue : plainTile j0 (bMod (oneReg 4095)) = true ∧ slotEnabled j0 (bMod (oneReg 4095)) = true ∧
    partOfTile (bMod (oneReg 4095)) 0 = some 0 ∧ slotReady .x j0 [] [] (bMod (oneReg 4095)) = true ∧
    ((partOf (bMod runT) 0).jstate = .running ∧ (partOf (bMod runT) 0).xphase = .compute ∧ (partOf (bMod runT) 0).closedAt = none ∧
      5 ∈ syncTiles (bMod runT) 0 ∧ 5 ∉ (partOf (bMod runT) 0).arrived) ∧
    (slotReady .x j0 [1] [3] (bMod (oneReg 4095)) = true ∧ (getS (tdJ j0 (bMod (oneReg 4095))) 1).toNat = 4095) ∧
    (slotReady .x j0 [1, 2] [3] (bMod (oneReg 4095)) = true ∧ (getS (tdJ j0 (bMod (oneReg 4095))) 2).toNat < 65536 ∧
      isMember (bMod (oneReg 4095)) 4095 0 = true ∧ (barOf (bMod (oneReg 4095)) 4095).state = .active ∧ isMember (bMod (oneReg 0)) 0 0 = false ∧
      aheadOf 0 0 = 0 ∧ aheadOf 1 0 = 1 ∧ aheadOf 0 0xC000 = 0x4000 ∧ aheadOf 0 0xBFFF = 0x4001 ∧ aheadOf 0 0x4001 = 0xBFFF ∧ aheadOf 0 0x4000 = 0xC000 ∧ nth? ({ releasedAt := [9, 5] } : Bar).releasedAt (2 - 1) = some 5) ∧
    (bits (BitVec.ofNat 22 (63 * 2 ^ 16 + 63 * 2 ^ 10)).toNat 9 0 = 0 ∧ 1 ≤ bits (BitVec.ofNat 22 (63 * 2 ^ 16 + 63 * 2 ^ 10)).toNat 15 10) := by
  decide +kernel
/-- With every tile of the partition arrived, any SYNC is the last arrival. -/
theorem witness_SyncAndBarrierIssue_close (m : Mod) : ∀ u ∈ syncTiles m 0, u = 0 ∨ u ∈ tilesOfPart m 0 :=
  fun _ h => Or.inr (List.mem_filter.mp h).1
/-- A PUT descriptor of 4 bytes at the last word of the scratchpad for module 9 by port 50. -/
def putWords : List W32 := [0x100FFFFC, 4, 0, 0x00090000, 50, 0, 0, 0]
theorem witness_DmaIssue : slotReady .x j0 [1] [31] (tMod (oneReg 0xFFFE0)) = true ∧ slotEnabled j0 (tMod (oneReg 0xFFFE0)) = true ∧
    noLate j0 (tMod (oneReg 0xFFFE0)) = true ∧ bits (mBody 1 31 0).toNat 21 17 = 1 ∧ bits (mBody 1 31 0).toNat 11 0 = 0 ∧
    bits (mBody 1 31 0).toNat 16 12 = 31 ∧ (getS (baseJ j0 (tMod (oneReg 0xFFFE0))) 1).toNat % 32 = 0 ∧
    (getS (baseJ j0 (tMod (oneReg 0xFFFE0))) 1).toNat < 0x100000 ∧
    (∀ i, i < 8 → (baseJ j0 (tMod (oneReg 0xFFFE0))).spBad.contains ((0xFFFE0 + 4 * i) / 4) = false) ∧
    dmaDescOk putWords = true ∧ dmaDescOk (putWords.map (· + 1)) = false ∧ bits (dw putWords 4) 5 0 = 50 ∧
    (plainTile j0 (tMod (oneReg 0x100000)) = true ∧ slotReady .x j0 [1] [31] (tMod (oneReg 0x100000)) = true) := by
  decide +kernel
theorem witness_DmaIssue_port : portTo 0 50 (cMod {} runT) ∧ partOfTile (cMod {} runT) 0 = some 0 := ⟨⟨rfl, rfl, rfl⟩, by decide +kernel⟩
/-- The M queue holds one entry. -/
def mTile (op : MOp) : TileData := { runT with mq := [{ op := op, issued := 0, pc := 0 }] }
theorem witness_MatrixStarts :
    (headM 0 (tMod (mTile (.ldw 3 1 1 0 0))) (.ldw 3 1 1 0 0) 0 [] ∧ bytesLanded (mTile (.ldw 3 1 1 0 0)) 0 (32 * slotSize 1) = true ∧
      bytesLanded (mTile (.ldw 3 1 1 0 0)) 0 (imgScales 1) = true) ∧
    (headM 0 (tMod (mTile (.run 1 127 0 0 1 false 0))) (.run 1 127 0 0 1 false 0) 0 [] ∧
      (mTile (.run 1 127 0 0 1 false 0)).mloads.all (fun x => x.slot % 2 != 0) = true ∧
      bytesLanded (mTile (.run 1 127 0 0 1 false 0)) 0 (32 * beatsOf 1 1) = true ∧
      bytesLanded (mTile (.run 1 127 0 0 1 false 0)) 0 (scaleBytes 1 1 false) = true) ∧
    (headM 0 (tMod (mTile (.zero 127 1 15))) (.zero 127 1 15) 0 [] ∧ rowsCommitted (mTile (.zero 127 1 15)) 127 127 = true) ∧
    (headM 0 (tMod (mTile (.drain 3 127 1 0 0 0 true))) (.drain 3 127 1 0 0 0 true) 0 [] ∧
      rowsCommitted (mTile (.drain 3 127 1 0 0 0 true)) 127 127 = true) ∧
    (headM 0 (tMod (mTile (.wgb 3 96 32 47))) (.wgb 3 96 32 47) 0 [] ∧ rowsCommitted (mTile (.wgb 3 96 32 47)) 96 127 = true ∧
      noBeatToRead 0 (tMod (mTile (.wgb 3 96 32 47))) = true ∧ quietM (mTile (.wgb 3 96 32 47))) :=
  ⟨⟨⟨⟨0, rfl⟩, by decide +kernel⟩, by decide +kernel⟩, ⟨⟨⟨0, rfl⟩, by decide +kernel⟩, by decide +kernel⟩, ⟨⟨⟨0, rfl⟩, by decide +kernel⟩, by decide +kernel⟩,
    ⟨⟨⟨0, rfl⟩, by decide +kernel⟩, by decide +kernel⟩, ⟨⟨⟨0, rfl⟩, by decide +kernel⟩, by decide +kernel, by decide +kernel, ⟨rfl, rfl⟩⟩⟩
/-- The EXACT clause of MWGB: an addend of 1.0 whose sum stays in 64 bits. -/
theorem witness_MatrixStarts_exact : f32Val 0x3F800000 = .fin false 0x800000 (-23) ∧ (quantise 0 (0x800000 : Int) (-23)).natAbs < 2 ^ 63 ∧
    wgbExactElem { runT with wgbExact := true } 23 0 0 + quantise 0 (0x800000 : Int) (-23) < 2 ^ 63 := by decide +kernel
/-- A run of one vector of format 1 over row 127. -/
def run0 : MRunning :=
  { fmt := 1, base := 127, n := 1, tr := false, buf := 0, rb := 0, start := 0, addr := 0, vecs := [[]], scales := [[]], weights := [], done := 0 }
theorem witness_MatrixLandings : clockRuns (tMod runT) 0 = true ∧ run0.done = 0 ∧ run0.base + rowsPerVec run0.fmt run0.tr * (0 + 1) ≤ 128 ∧
    (∃ x : MLoading, [x].find? (fun y => y.slot == (7 : Fin 8).val) = some x) ∧ noBeatToRead 0 (tMod runT) = true ∧ runT.faultsDue = [] ∧
    ({} : WBuf).fmt = none :=
  ⟨by decide +kernel, rfl, by decide +kernel, ⟨{ slot := 7, content := {}, start := 0, ready := 0 }, rfl⟩, by decide +kernel, rfl, rfl⟩
/-- A region whose hardware side waits. -/
def waitReg (attach : Nat) : Region := { attach := attach, sizeLog2 := 5, mirror := 0x8000, waitFrom := some 3 }
theorem witness_TileControl : (tileStopped {} = true ∧ regionOk {} 0 { attach := 3, sizeLog2 := 0, mirror := 0x1000, base := 0 } = true) ∧
    tileStopped runT = false ∧ partOfTile (tMod runT) 0 = some 0 ∧ (tileOf (tMod runT) 0).bundle = none ∧ runT.faultsDue = [] ∧
    (({ stopDue := true } : TileData).st = .idle ∧ ({ st := .debugStop } : TileData).st = .debugStop ∧ ({ st := .ended } : TileData).st ≠ .idle) ∧
    (bundleBase { d := {}, bundle := none } = {} ∧ mwf 0 ({} : TileData).cv = true ∧ clockRuns (tMod {}) 0 = true) ∧
    ((waitReg 3).waitFrom = some 3 ∧ 3 + 16 * coreK (tMod {}) 0 = 19 ∧ ({} : Region).waitFrom = none ∧
      (spWord { scratch := [(0x2001, 128)] } (waitReg 3).programWord).toNat = 128 ∧ (128 + 2 ^ 32 - (waitReg 3).tail) % 2 ^ 32 ≤ (waitReg 3).room ∧
      ¬(0xFFFF + 2 ^ 32 - (waitReg 3).tail) % 2 ^ 32 ≤ (waitReg 3).room ∧ (0 + 2 ^ 32 - (waitReg 1).head) % 2 ^ 32 ≤ (waitReg 1).used) ∧
    (mIdle {} = true ∧ streamReq (tMod {}) 0 = none) ∧
    (retained (tMod {}) 0 = false ∧ retained { tMod {} with parts := [(0, { halves := 1, jstate := .killedRetained, rstate := .killedRetained })] } 0 = true ∧
      noBeatToRead 0 (tMod {}) = true ∧ nowOf { tMod {} with now := 19 } 0 = 19 ∧ (waitReg 3).lacks (waitReg 3).waitNeed = false) := by decide +kernel
/-- Tile 0 waits. -/
def waitT (k : WaitKind) : TileData := { st := .waiting, wait := { kind := k }, handles := [(63, 6)], waitLimit := 1 }
theorem witness_TileWaitsAndEnd : clockRuns (tMod (waitT .sync)) 0 = true ∧ (waitT (.swait 63 1)).wait.kind = .swait 63 1 ∧
    (waitT (.bwait 4095 0 31)).wait.kind = .bwait 4095 0 31 ∧ (waitT (.bwait 4095 0 31)).faultsDue = [] ∧ aheadOf 0 0x8001 = 0x7FFF ∧ aheadOf 0 0x8000 = 0x8000 ∧ (waitT (.waitq 11 1)).waitLimit ≠ 0 ∧
    handleEp (tMod (waitT (.csend 63 3 1 [0] 1 0))) 0 63 = some 5 ∧ (waitT (.crecv 63 31 7 true true)).oneBundle = false ∧
    (∃ x : CopenPend, [x].find? (fun y => y.handle == (63 : Fin 64).val) = some x ∧ x.rd = 31) ∧
    ({ runT with exiting := true } : TileData).st = .running ∧ mIdle { runT with exiting := true } = true ∧ noBeatToRead 0 (tMod { runT with exiting := true }) = true ∧
    partOfTile (tMod { runT with exiting := true }) 0 = some 0 :=
  ⟨by decide +kernel, rfl, rfl, rfl, by decide +kernel, by decide +kernel, by decide +kernel, by decide +kernel, rfl,
    ⟨{ handle := 63, conn := 5, rd := 31, since := 0, awaiting := 1, closed := false, full := false, lost := false, granted := [] }, rfl, rfl⟩, rfl, by decide +kernel, by decide +kernel,
    by decide +kernel⟩
/-- A running job of partition 7, which holds half 7. -/
def jobP : Part := { halves := 0x80, jstate := .running, rstate := .running, tag := 5 }
/-- A module with partition 7 as given, and port 50 UP and assigned to it. -/
def pMod (x : Part) : Mod :=
  { bringup := .ready, powered := true, moduleNum := 7, lock := .locked, parts := [(7, x)], ports := [(50, { state := .up, assigned := true, part := 7 })] }
theorem witness_TickCounter : (stOf {}).m.box.running = none ∧ (stOf {}).m.syncing = none ∧ (stOf {}).pending = [] := ⟨rfl, rfl, rfl⟩
/-- A module that has accepted an edge in the last tick before the counter wraps. -/
def wrapMod (t : BitVec 48) : Mod := { lock := .locked, lastEdge := some ((2 ^ 48 - 1) * 10240), tick := t }
theorem witness_TickLossDeclared : (wrapMod 7).role ≠ roleMaster ∧ (wrapMod 7).lock = .locked ∧
    (81920 : Int) ≤ sinceInstant ((((2 ^ 48 - 1) * 10240 : Nat) : Nat) : Int) (instant (wrapMod 7)) ∧
    sinceInstant ((((2 ^ 48 - 1) * 10240 : Nat) : Nat) : Int) (instant (wrapMod 6)) < 81920 := by decide +kernel
theorem witness_SuperstepNumber : stepRuns 7 (pMod { jobP with xphase := .exchange }) ∧ openEntries (pMod { jobP with xphase := .exchange }) 7 = [] ∧
    (partOf (pMod jobP) 7).xphase ≠ .exchange := ⟨⟨rfl, rfl, rfl⟩, by decide +kernel, by decide +kernel⟩
theorem witness_TickReceiver :
    edgeFits (instant { tick := 3, phase := 16, role := 1 }) (some 3) { tick := 3, phase := 16, role := 1 } ∧
    edgeFits (instant { tick := 2, phase := 624, role := 0 }) none { tick := 2, phase := 624, role := 0 } ∧
    (fromUp { (pMod jobP) with upstream := 50, role := 1, tick := 3 } 50 = true ∧
      edgeFits (instant { (pMod jobP) with upstream := 50, role := 1, tick := 3 } - ((0 : Nat) : Int) - ((0 : Nat) : Int)) (some 3)
        { (pMod jobP) with upstream := 50, role := 1, tick := 3 }) ∧
    (16 < ({ phase := 17 } : Mod).phase ∧ ({ phase := 623 } : Mod).phase < 624) ∧
    aligning { upstream := 50, syncing := some (1, 0, none) } = true ∧ (downPorts { (pMod jobP) with role := 1 }).contains 50 = true :=
  ⟨⟨⟨3, by decide +kernel, by decide +kernel, Or.inr rfl⟩, fun _ h => by cases h⟩,
    ⟨⟨3, by decide +kernel, by decide +kernel, Or.inl rfl⟩, fun _ h => by cases h⟩,
    ⟨by decide +kernel, ⟨3, by decide +kernel, by decide +kernel, Or.inr rfl⟩, fun _ h => by cases h⟩, by decide +kernel,
    by decide +kernel, by decide +kernel⟩
/-- An event of the current superstep at tick 10. -/
def ev (k : SchedKind) : SchedEv := { kind := k, superstep := 0, offset := 10, tick := 10, mask := 0x80, chosen := none, done := false }
/-- A partition whose next event is of a kind, with a record and its sync closed at cycle 5. -/
def evP (k : SchedKind) : Part := { jobP with sched := [ev k], closedAt := some 5, records := [(0, 0x100000063)] }
theorem witness_StepSequence :
    (stepRuns 7 (pMod (evP .commit)) ∧ nextEvent (evP .commit) = some (ev .commit) ∧ (evP .commit).goFor ≠ some (eventSeq (evP .commit) (ev .commit)) ∧
      tickReached { pMod (evP .commit) with tick := 6, role := 2 } (decisionTick (evP .commit)) = true ∧
      ((ev .commit).tick - BitVec.ofNat 48 (evP .commit).readyLead - (tickAt { pMod (evP .commit) with tick := 2 } 5).1).toNat < 2 ^ 47 ∧
      (evP .commit).failSeen ≠ some (evP .commit).stepNum) ∧
    ((evP .exchange).readySent = false ∧ (evP .exchange).slips + 1 ≤ (evP .exchange).slipLimit ∧
      ({ evP .exchange with slipLimit := 0 } : Part).slipLimit < ({ evP .exchange with slipLimit := 0 } : Part).slips + 1) ∧
    ((curRecord (evP .exchange)).getLsbD 32 = true ∧ (evP .exchange).committed = false ∧ recTicked (curRecord (evP .exchange)) = false ∧ nextEvent { evP .exchange with sched := [] } = none) ∧
    ((ev .exchange).superstep = stepIndex (evP .exchange) ∧ tickReached { pMod (evP .exchange) with tick := 10 } (ev .exchange).tick = true ∧
      ({ evP .exchange with goFor := some 0 } : Part).goFor = some (eventSeq (evP .exchange) (ev .exchange)) ∧ tickGood (pMod (evP .exchange)) = true) ∧
    ((evP .exchange).lateRaised = false ∧ nextEvent (evP .exchange) = some (ev .exchange) ∧
      (evP .exchange).goFor ≠ some (eventSeq (evP .exchange) (ev .exchange)) ∧ (ev .commit).kind = .commit) ∧
    (commitDue { pMod { evP .commit with goFor := some 0 } with tick := 10 } 7 = true ∧
      eventLate { pMod { evP .commit with goFor := some 0 } with tick := 10 } 7 = false ∧ commitIncomplete (pMod (evP .commit)) 7 = false ∧
      commitIncomplete { pMod (evP .commit) with shards := [(16383, { valid := true, part := 7, began := true })] } 7 = true) :=
  ⟨⟨⟨rfl, rfl, rfl⟩, by decide +kernel, by decide +kernel, by decide +kernel, by decide +kernel, by decide +kernel⟩, by decide +kernel, by decide +kernel,
    by decide +kernel, by decide +kernel, by decide +kernel⟩
/-- A commit and an exchange start at tick 10, the GO of the first received. -/
def twoP : Part := { evP .commit with sched := [ev .commit, ev .exchange], goFor := some 0, readySent := true }
/-- An event of a job that the system master does not run, and a master that has heard of port 50 for it. -/
def other0 : OtherEvent := { tag := 6, seq := 9, tick := 10, lead := 8, slips := 64, limit := 64, ports := 2 ^ 50, commit := none }
def masterMod (x : Part) : Mod := { pMod x with role := 2, tick := 6, now := 3840, others := [(6, { ready := [(9, 50)] })] }
theorem witness_StepSequence_second : stepRuns 7 (masterMod twoP) ∧ nextEvent twoP = some (ev .commit) ∧ twoP.goFor = some (eventSeq twoP (ev .commit)) ∧
    secondEvent twoP = some (ev .exchange) ∧ tickReached (masterMod twoP) ((ev .exchange).tick - BitVec.ofNat 48 (twoP.readyLead / 2)) = true ∧
    stepIndex twoP = (ev .exchange).superstep ∧
    ((ev .exchange).tick - BitVec.ofNat 48 twoP.readyLead - (tickAt (masterMod twoP) (5 + twoP.lag)).1).toNat < 2 ^ 47 :=
  ⟨⟨rfl, rfl, rfl⟩, by decide +kernel⟩
theorem witness_StepSequence_other : runsJob (masterMod jobP) other0.tag = false ∧
    tickReached (masterMod jobP) (other0.tick - BitVec.ofNat 48 (other0.lead / 2)) = true ∧
    (∀ q, q ∈ downPorts (masterMod jobP) → bit other0.ports q = true → (other0.seq.toNat, q) ∈ (mget {} (masterMod jobP).others other0.tag.toNat).ready) ∧
    50 ∈ downPorts (masterMod jobP) ∧ bit other0.ports 50 = true ∧ (other0.seq.toNat, 50) ∉ (mget {} (pMod jobP).others other0.tag.toNat).ready ∧
    ¬other0.slips + 1 ≤ other0.limit ∧ (0 : Nat) + 1 ≤ other0.limit := by decide +kernel
theorem witness_StepSequence_start : (pMod jobP).power.heldResets = [] ∧ 5119 ∈ tilesOfPart (pMod jobP) 7 ∧
    (evP .commit).lossEnable = false ∧ (evP .commit).goNext = none := by decide +kernel
theorem witness_StepSequence_end : dmasQuiet 7 (pMod (evP .commit)) ∧ (evP .commit).ending = none ∧ (evP .commit).retain = false := by
  unfold dmasQuiet; decide +kernel
/-- The superstep boundary came at cycle 6,500, within the tick of the event: it is late, and takes effect at the next tick. -/
def lateMod : Mod := { pMod { evP .clockFixed with boundary := 6500 } with tick := 11, now := 7040 }
theorem witness_ClockEvents : (evP .clockOptional).jstate = .running ∧ (evP .clockOptional).stepFailed = false ∧ stepRuns 7 (pMod (evP .clockFixed)) ∧
    ((clockEvents (evP .clockFixed)).filter (fun y => tickReached { pMod (evP .clockFixed) with tick := 10 } (boundaryTick
        { pMod (evP .clockFixed) with tick := 10 } 7 y.tick).1) = [ev .clockFixed] ∧
      (boundaryTick { pMod (evP .clockFixed) with tick := 10 } 7 10).2 = false) ∧
    ((clockEvents (evP .clockFixed)).filter (fun y => tickReached lateMod (boundaryTick lateMod 7 y.tick).1) = [ev .clockFixed] ∧
      boundaryTick lateMod 7 10 = (11, true)) ∧
    ((evP .clockFixed).sched.filter (fun y => y.kind == (ev .clockFixed).kind && y.superstep == (ev .clockFixed).superstep && y.mask == (ev .clockFixed).mask))
      = [ev .clockFixed] ∧
    partOfHalf (pMod jobP) 7 = some 7 ∧ recHalfReturn (curRecord { jobP with records := [(0, 0x120000063)] }) = true ∧
    (¬({ now := 64 } : Mod).now < (halfSt { now := 64 } 7).switchFrom + 64 ∧ ({ now := 63 } : Mod).now < (halfSt { now := 63 } 7).switchFrom + 64) ∧
    (({ jobP with closedAt := some 5, records := [(0, 0x120000063)] } : Part).closedAt = some 5 ∧ ({ now := 5 } : Mod).now < 5 + jobP.lag + 1 ∧
      5 + jobP.lag + 1 ≤ ({ now := 6 } : Mod).now ∧ (pMod jobP).power.heldResets = []) ∧
    (undecided { ev .clockOptional with tick := 26 } = true ∧ tickReached { pMod jobP with tick := 10 } jobP.base = true ∧
      tickReached { pMod jobP with tick := 10 } (26 - 16) = true ∧ tickReached { pMod jobP with tick := 9 } (26 - 16) = false ∧
      tickReached { pMod jobP with tick := 9 } ({ jobP with base := 10 } : Part).base = false) :=
  ⟨rfl, rfl, ⟨rfl, rfl, rfl⟩, by decide +kernel, by decide +kernel, by decide +kernel, by decide +kernel, by decide +kernel, by decide +kernel,
    by decide +kernel, by decide +kernel⟩
/-- A beat read already that arrives at tile 5,119 in cycle 99. -/
def beat0 : Beat :=
  { id := 0, dst := .tile 5119, tag := 15, src := .read, readAt := 0, pc := 0, data := List.replicate 16 7, arrive := 99, till := 100, late := false, lost := false
    port := 63, transfer := 0 }
/-- The receive it lands in: the last beat of the scratchpad. -/
def recv0 : Recv := { tag := 15, addr := 0xFFFC0, beats := 1, landed := 0, since := 99 }
/-- A partition in its exchange phase of 100 cycles from cycle 0. -/
def xP : Part := { jobP with xphase := .exchange, xlen := 100 }
/-- An inbound entry: VALID, superstep 0, W_START 0, to tile 5,119. -/
def inEnt : BitVec 128 := BitVec.ofNat 128 (2 ^ 96 + 50 * 2 ^ 64 + 5119)
/-- A module whose port 50 has that entry as transfer 65,535. -/
def inMod (x : Part) (held : List (Nat × Nat × List W32)) : Mod :=
  { pMod x with ports := [(50, { state := .up, assigned := true, part := 7, inbound := [(65535, inEnt)], held := held })] }
theorem witness_ExchangeBeats :
    ((tdOf { pMod { xP with beats := [beat0] } with tiles := [(5119, { d := { armed := [recv0] }, bundle := none })] } 5119).armed.find?
        (fun y => y.tag == beat0.tag && decide (y.since ≤ beat0.arrive)) = some recv0 ∧
      inPhase xP beat0.arrive = true ∧ recv0.addr % 64 = 0 ∧ ({ armed := [recv0] } : TileData).faultsDue = [] ∧ noBeatToRead 5119 (pMod { xP with beats := [beat0] }) = true ∧ beat0.data.length = 16) ∧
    ({ beat0 with till := 99 }.till ≤ beat0.arrive ∧ beat0.arrive < beat0.till ∧ spYields {} rankXI beat0.arrive 0xFFFC0 = false ∧
      (portOf (inMod xP []) 50).forwardFrom ≤ (inMod xP []).now ∧ (engineOf (inMod xP []) 50).deliverFrom ≤ (inMod xP []).now) ∧
    (beatOk beat0.data = true ∧ (portOf (pMod jobP) 0).assigned = false ∧ jobP.xphase = .compute) ∧
    (inValid (inboundEntry (pMod jobP) 50 65535) = false ∧ inValid (inboundEntry (inMod jobP []) 50 65535) = true ∧
      stepIndex jobP ≤ inboundIndex (inboundEntry (inMod jobP []) 50 65535) ∧ (portOf (inMod jobP []) 50).held.length < 256) ∧
    (inboundIndex (inboundEntry (inMod xP []) 50 65535) = stepIndex xP ∧ xP.e0 + inStart (inboundEntry (inMod xP []) 50 65535) ≤ 0 ∧
      inKind (inboundEntry (inMod xP []) 50 65535) = 0 ∧ inDest (inboundEntry (inMod xP []) 50 65535) = 5119 ∧
      (openEntries (inMod xP []) 7).all (fun y => decide (0 ≤ xP.e0 + inF y.2.2)) = true ∧
      (portOf (inMod xP [(65535, 1, beat0.data)]) 50).held = [(65535, 1, beat0.data)]) ∧
    (({ xP with xphase := .stall } : Part).stallHit = false ∧ ({ xP with stallFrom := 0 } : Part).stallFrom = 0) ∧
    (engineOf { inMod xP [] with engines := [(50, { deliver := [(15, 65535, 3, [1])] })] } 50).deliver = (15, 65535, 3, [1]) :: [] := by decide +kernel
/-- A channel packet of a kind in flight within the module, due at cycle 9. -/
def inAir (k : PktKind) : ChanPkt := { chan0 with kind := k, conn := 5, ep := 6, connModule := 7 }
/-- A module with that packet, a sending entry 5 and a receiving entry 6 with one connection. -/
def airMod (k : PktKind) : Mod :=
  { tMod {} with flight := [{ pkt := inAir k, at_ := 9 }], pool := [(5, sendEp), (6, { opqEp with conns := [(7, 5, 0, 1)] })] }
theorem arrives_air (k : PktKind) : arrives (.flight 0) [k] (airMod k) (inAir k) 9 := by
  have h : ∀ p, some 0 = some p → fabricHeld (airMod k) p = false := fun p h => by cases h; rfl
  cases k <;> exact ⟨rfl, rfl, rfl, rfl, h, rfl⟩
theorem arrives_air2 (k : PktKind) (hk : k = .close ∨ k = .closeAck) : arrives (.flight 0) [.close, .closeAck] (airMod k) (inAir k) 9 := by
  have h : ∀ p, some 0 = some p → fabricHeld (airMod k) p = false := fun p h => by cases h; rfl
  rcases hk with rfl | rfl <;> exact ⟨rfl, rfl, rfl, rfl, h, rfl⟩
/-- A packet that arrives by port 50, which carries its job. -/
theorem arrives_port : arrives (.port 50 { chan0 with kind := .ring, jobTag := 5 }) [.ring] (pMod jobP) { chan0 with kind := .ring, jobTag := 5 } 0 :=
  ⟨rfl, rfl, rfl, rfl, rfl, by decide +kernel, by decide +kernel, by decide +kernel, rfl⟩
/-- A packet of an earlier connection of pool entry 5, which has since been given out anew. -/
def oldPkt (k : PktKind) : ChanPkt := { inAir k with conn := 5 + 32768 }
def oldMod (k : PktKind) (e : Ep) : Mod := { airMod k with flight := [{ pkt := oldPkt k, at_ := 9 }], pool := [(5, { e with openings := 2 }), (6, opqEp)] }
theorem witness_ChannelPackets_old (k : PktKind) : arrives (.flight 0) [k] (oldMod k sendEp) (oldPkt k) 9 ∧ (oldPkt k).conn % 32768 = 5 ∧
    (oldPkt k).conn ≠ 5 + 32768 * (epOf (oldMod k sendEp) 5).openings ∧ isHere (oldMod k sendEp) (oldPkt k).epModule = true ∧
    (inAir k).conn = 5 + 32768 * (epOf (airMod k) 5).openings := by
  have h : ∀ p, some 0 = some p → fabricHeld (oldMod k sendEp) p = false := fun p h => by cases h; cases k <;> rfl
  cases k <;> exact ⟨⟨rfl, rfl, rfl, rfl, h, rfl⟩, by decide +kernel, by decide +kernel, by decide +kernel, by decide +kernel⟩
theorem witness_ChannelPackets_opening : (epOf { airMod .closeNotice with pool := [(5, { sendEp with state := .opening })] } 5).state = .opening ∧
    (5 : Nat) % 32768 = 5 ∧ (5 : Nat) = 5 + 32768 * sendEp.openings ∧ (epOf (airMod .closeAck) 5).openings = 0 := by decide +kernel
theorem witness_ChannelPackets :
    arrives (.flight 0) [.openReq] (airMod .openReq) (inAir .openReq) 9 ∧
    (arrives (.flight 0) [.openReply] (airMod .openReply) (inAir .openReply) 9 ∧
      ∃ x : CopenPend, [x].find? (fun y => y.conn == (inAir .openReply).conn) = some x ∧ x.rd = 31 ∧ x.handle = 63 ∧ x.awaiting = 1) ∧
    (arrives (.flight 0) [.closeNotice] (airMod .closeNotice) (inAir .closeNotice) 9 ∧ isSend (epOf (airMod .closeNotice) 5) = true ∧
      (epOf (airMod .closeNotice) 5).state = .opened) ∧
    (arrives (.flight 0) [.close, .closeAck] (airMod .closeAck) (inAir .closeAck) 9 ∧ ({ sendEp with closing := true, acks := 1 } : Ep).acks ≤ 1 ∧
      arrives (.flight 0) [.close, .closeAck] (airMod .close) (inAir .close) 9 ∧ (epOf (airMod .close) 6).conns = [(7, 5, 0, 1)]) ∧
    (arrives (.flight 0) [.credit] (airMod .credit) (inAir .credit) 9 ∧ (tdOf (airMod .credit) 0).st ≠ .waiting) ∧
    (arrives (.flight 0) [.drop] (airMod .drop) (inAir .drop) 9 ∧ (epOf (airMod .drop) 5).state ≠ .free) ∧
    arrives (.flight 0) [.opq] (airMod .opq) (inAir .opq) 9 ∧
    (∃ r : Region, r = { attach := 2, sizeLog2 := 0, base := 0x8000, mirror := 0x7FFF8 } ∧ r.base % 128 = 0 ∧ mirrorClear r.mirror r = true ∧
      128 * msgCost true 1 ≤ r.room ∧ [(1 : W32)].length + 2 ≤ 32 * msgCost true 1) :=
  ⟨arrives_air _, ⟨arrives_air _, ⟨{ handle := 63, conn := 5, rd := 31, since := 0, awaiting := 1, closed := false, full := false, lost := false, granted := [] },
    rfl, rfl, rfl, rfl⟩⟩, ⟨arrives_air _, rfl, rfl⟩, ⟨arrives_air2 _ (Or.inr rfl), by decide +kernel, arrives_air2 _ (Or.inl rfl), rfl⟩,
    ⟨arrives_air _, by decide +kernel⟩, ⟨arrives_air _, by decide +kernel⟩, arrives_air _, ⟨_, rfl, by decide +kernel⟩⟩
/-- A module on the Bridle line, whose partition 7 waits at the boundary of an event. -/
def lineMod (phase : Nat) (low released : Bool) : Mod :=
  { pMod (evP .commit) with
    bridleEnable := true, bridlePart := 7, tick := 1, now := 640 + phase, phase := phase, lineLow := low, released := released, lineOn := true }
theorem witness_BarrierAndBridleEvents :
    (({ bar0 with pending := [(0, 31, 24)] } : Bar).pending = [(0, 31, 24)] ∧ fabricHeld (bMod runT) bar0.part = false ∧ isMember (bMod runT) 4095 0 = true ∧
      isMember (bMod runT) 4095 5119 = false ∧ 0 ∉ bar0.arrived ∧ bar0.arrived.length + 1 ≠ bar0.participants ∧
      ({ bar0 with arrived := [1] } : Bar).arrived.length + 1 = bar0.participants) ∧
    (({ bar0 with arrived := [0] } : Bar).arrived ≠ [] ∧ bar0.limit ≠ 0 ∧ bar0.firstAt + bar0.limit * 65536 ≤ partNow { bMod runT with now := 65536 } bar0.part ∧
      ¬bar0.firstAt + bar0.limit * 65536 ≤ partNow { bMod runT with now := 65535 } bar0.part) ∧
    ((lineMod 0 false false).released = false ∧ (lineMod 0 false false).bridleDone = false ∧ bridleClosed (lineMod 0 false false) = true ∧
      (lineMod 0 false false).phase = 0 ∧ (lineMod 0 false false).releaseDue = false) ∧
    ((lineMod 319 false true).phase ≠ 320 ∧ (lineMod 320 false true).phase = 320 ∧ (lineMod 320 false true).lineLow = false ∧
      (lineMod 320 false true).released = true ∧ (lineMod 320 false false).released = false ∧
      (partOf (lineMod 320 false false) (lineMod 320 false false).bridlePart).jstate = .running) ∧
    tickReached { releasedAt := some 0, tick := 0x400 } (0 + BitVec.ofNat 48 0x400) = true ∧
    ((stOf (lineMod 479 true false)).pending = [] ∧ (lineMod 479 true false).phase = 479 ∧ (lineMod 479 true false).lineLow = true ∧
      (lineMod 479 true false).box.running = none) ∧
    ((lineMod 320 false true).lineOn = true ∧ ({ lineMod 320 false true with lineOn := false } : Mod).lineOn = false) := by decide +kernel
/-- A port that is UP with one beat to replay. -/
def upPort : Port := { state := .up, recvSeq := 65535, replay := [{ hdr := 0, body := beat0.data }] }
theorem witness_LinkLayer : upPort.state = .up ∧ beatOk beat0.data = true ∧ hdrSeq (BitVec.ofNat 64 (65535 * 2 ^ 45)) = upPort.recvSeq ∧
    hdrSeq 0 ≠ upPort.recvSeq ∧ hdrClass (BitVec.ofNat 64 (65535 * 2 ^ 45)) = clsCompiled ∧
    hdrClass (BitVec.ofNat 64 (2 * 2 ^ 61 + 65535 * 2 ^ 45 + 2 ^ 44)) = clsDma ∧ (BitVec.ofNat 64 (2 * 2 ^ 61 + 65535 * 2 ^ 45 + 2 ^ 44)).getLsbD 44 = true ∧
    (BitVec.ofNat 64 (2 * 2 ^ 61 + 65535 * 2 ^ 45 + 2 ^ 44)).getLsbD 43 = false ∧ upPort.replay = [] ++ { hdr := 0, body := beat0.data } :: [] ∧
    hdrSeq (0 : W64) = (0 : BitVec 16).toNat ∧ ({ upPort with replayCount := 3 } : Port).replayedSeq = (0 : BitVec 16).toNat ∧ upPort.waiting = [] ∧
    linkRoom 50 0 (upPort.sentCompiled != 1) upPort.sent = true := by decide +kernel
/-- A module whose port 50 has one beat in its second decode, which fails in this cycle. -/
def badMod : Mod := { pMod jobP with ports := [(50, { state := .up, assigned := true, part := 7, delayed := [(0, true, ⟨0, beat0.data⟩)] })] }
theorem witness_LinkLayer_delay :
    ((portOf (pMod jobP) 50).beatAt = srcNow (pMod jobP) ∧ beatDueAt 50 true { pMod jobP with now := 9 } = 33 ∧
      (portOf (pMod jobP) 50).beatAt ≠ srcNow { pMod jobP with now := 9 } ∧ beatDueAt 3 true { pMod jobP with now := 9 } = 73) ∧
    (beatDueAt 50 false { pMod jobP with now := 9 } = 9 ∧
      beatDueAt 50 false { now := 9, ports := [(50, { state := .up, beatAt := 8, beatDue := 32 })] } = 33) ∧
    (inValid (inboundEntry (inMod jobP []) 50 65535) = true ∧ stepIndex jobP ≤ inboundIndex (inboundEntry (inMod jobP []) 50 65535)) := by decide +kernel
theorem witness_LinkLayer_nak : (portOf badMod 50).delayed = [(0, true, ⟨0, beat0.data⟩)] ∧ linksQuiet 50 badMod ∧ badMod.phase < 639 := by
  refine ⟨rfl, ⟨rfl, rfl, ?_, ?_, ?_⟩, by decide⟩
  · intro x hx; cases hx with
    | head => exact ⟨rfl, rfl, rfl⟩
    | tail _ h => cases h
  · intro x hx; cases hx with
    | head => exact ⟨rfl, rfl, rfl, fun h => absurd rfl h⟩
    | tail _ h => cases h
  · exact List.pairwise_singleton _ _
/-- A symbol of the job with TAG 5. -/
def sym0 : Sym := { jobTag := 5, seq := 0, arg := 0 }
theorem witness_SymbolsAct : symPart (pMod (evP .commit)) sym0.jobTag = some 7 ∧ symOpen (pMod (evP .commit)) 50 = true ∧
    (downPorts { pMod (evP .commit) with role := 2 }).contains 50 = true ∧ (sym0.seq - (evP .commit).superstep).toNat < 2 ^ 31 ∧
    fromUp { pMod (evP .commit) with upstream := 50 } 50 = true ∧ decides (pMod (evP .commit)) 7 sym0.seq = true ∧ sym0.seq = (evP .commit).stepNum ∧
    (evP .commit).abandonDue = none ∧ (evP .commit).goSentCommit ≠ some sym0.seq ∧ (evP .commit).failSeen ≠ some sym0.seq ∧
    decides (pMod twoP) 7 sym0.seq = true ∧ twoP.goFor = some (eventSeq twoP (ev .commit)) ∧
    (symOpen { pMod jobP with role := 1, upstream := 0, ports := [(0, { state := .up }), (50, { state := .up })] } 0 = true ∧
      (downPorts { pMod jobP with role := 1, upstream := 0 }).contains 50 = true) ∧
    (({ state := .training, echoes := true } : Port).state = .training ∧ ({ state := .training, echoes := true, echoCount := 255 } : Port).echoCount < 256) := by
  decide +kernel
/-- A job that the master does not run, in the states of its step. -/
def otherMod (o : OtherJob) : Mod := { pMod jobP with role := 2, tick := 6, others := [(6, o)] }
theorem witness_SymbolsAct_other : runsJob (otherMod {}) 6 = false ∧ symOpen (otherMod {}) 50 = true ∧ (downPorts (otherMod {})).contains 50 = true ∧
    (mget {} (otherMod { commit := some (1, 3) }).others 6).failed = none ∧ (some (1, 3) : Option (W32 × BitVec 48)) = some ((1 : W32), 3) ∧
    tickReached (otherMod {}) 6 = true ∧ tickReached (otherMod {}) 7 = false ∧ (mget {} (otherMod { failed := some (0, 6) }).others 6).failed = some (0, 6) ∧
    tickReached (otherMod {}) (6 + BitVec.ofNat 48 (2 * ((reportMax (otherMod {}) + 639) / 640) + 1)) = false ∧ (otherMod {}).power.active = false ∧
    linksBusy (otherMod {}) = false ∧ (otherMod {}).syncing = none ∧ (otherMod {}).box.running = none ∧ (otherMod {}).parts.all (fun x => x.2.ending == none) = true ∧
    (otherMod { abandon := some (0, 1, 7) }).others = [(6, { abandon := some (0, 1, 7) })] ∧
    tickReached { otherMod {} with tick := (otherMod {}).tick + 1, phase := 0 } 7 = true := by decide +kernel
/-- A cause of a step fault. -/
def cause0 : Cause := { cause := 0x01, detail := 0, tile := 5119, tick := 3, phase := 639 }
theorem witness_RecoveryEvents :
    (({ jobP with causes := [cause0] } : Part).causes = cause0 :: [] ∧ jobP.rstate = .running ∧ ({ jobP with rstate := .abandoning } : Part).rstate ≠ .running ∧
      (∀ t, t ∈ tilesOfPart (pMod jobP) 7 → (bundleBase (tileOf (pMod jobP) t)).faultsDue = [])) ∧
    (({ jobP with abandonDue := some (0, 1, 2) } : Part).abandonDue = some (jobP.stepNum, 1, 2) ∧ tickReached { tick := 2 } 2 = true) ∧
    (({ jobP with lateDue := some (1, 2), goSentCommit := some 0, stepNum := 1 } : Part).stepNum = 0 + 1 ∧ tickReached { tick := 2 } (0 + 1) = true ∧
      tickReached { tick := 2 } 2 = true) ∧
    (({ jobP with failSentAt := some 0 } : Part).failSentAt = some 0 ∧ tickReached { tick := 0x800 } (0 + BitVec.ofNat 48 0x800) = true ∧ jobP.ending = none ∧
      jobP.retain = false) ∧
    (jobP.stepAttempt + 1 < jobP.attemptLimit ∧ jobP.retrained = false) ∧
    (({ jobP with rstate := .restartWait } : Part).rstate = .restartWait ∧ tickReached (pMod jobP) jobP.restartTick = true ∧ jobP.ckpt = none ∧ jobP.sched = []) ∧
    (({ jobP with rstate := .scrubbing, endAs := some (.ended, 1) } : Part).endAs = some (.ended, 1) ∧
      ({ jobP with rstate := .scrubbing, endAs := some (.ended, 1) } : Part).ending = none) := by decide +kernel
/-- The engines of the tiles of half 7 are idle. -/
theorem witness_RecoveryEvents_idle : enginesIdle 7 (pMod jobP) ∧ dmasQuiet 7 (pMod jobP) ∧
    (∀ q, q ∈ portsOf (pMod jobP) 7 → (portOf (pMod jobP) q).state = .up ∧ (portOf (pMod jobP) q).delayBad = false) ∧
    (∀ t, t ∈ tilesOfPart (pMod jobP) 7 → dmaIdle (pMod jobP) (tdOf (pMod jobP) t) = true) ∧ halvesFull (pMod jobP) 7 = true := by
  unfold enginesIdle dmasQuiet; decide +kernel
theorem witness_RecoveryEvents_last : ({ jobP with stepFailed := true, rstate := .abandoning } : Part).stepFailed = true ∧ jobP.stepAttempt < 65535 ∧
    (evP .commit).sched.all (fun e => e.kind != .clockFixed && e.kind != .clockOptional) = true ∧
    ({ jobP with causes := [cause0] } : Part).causes.isEmpty = false := by decide +kernel
/-- A module whose port 50 carries the job with TAG 0 of partition 0, tile 0 as given. -/
def dmaMod (d : TileData) : Mod := { tMod d with ports := [(50, { state := .up, assigned := true })], fwd := [(9, 0x8000 + 50)] }
/-- The last word of the scratchpad of tile 0. -/
def lastWord : BitVec 48 := BitVec.ofNat 48 (tileBase + 0xFFFFC)
/-- A window over the whole scratchpad, open for job TAG 0. -/
def winAll : TileData := { wins := [(7, { base := 0, length := 0x100000, tag := 0, write := true, read := true, opened := true })] }
/-- A descriptor of a tile's DMA engine. -/
def desc0 (put : Bool) : DmaDesc :=
  { put := put, trailing := false, signal := 0, loc := 0xFFFFC, length := 4, remote := 0, dest := 9, port := 50, sent := 4, answered := 0, denied := false }
theorem witness_RemoteAccess :
    (dmaHere true 50 { pkt0 with addr := lastWord } (dmaMod winAll) ∧ scratchTile lastWord.toNat 4 = some (0, 0xFFFFC) ∧
      winAllows (dmaMod winAll) 0 0 0xFFFFC 4 true = true ∧ winAllows (dmaMod {}) 0 0 0xFFFFC 4 true = false ∧ noBeatToRead 0 (dmaMod winAll) = true ∧
      notWaiting 0 (dmaMod winAll) ∧ (tdOf (dmaMod winAll) 0).faultsDue = [] ∧ (tdOf (dmaMod winAll) 0).spBad = [] ∧ spYields (tdOf (dmaMod winAll) 0) rankDW 0 0xFFFFC = false) ∧
    (dmaHere true 50 { pkt0 with addr := lastWord, mode := 1, last := true } (dmaMod winAll) ∧ dmaHere true 50 { pkt0 with addr := lastWord, mode := 1, last := false } (dmaMod winAll)) ∧
    (dmaHere true 50 { pkt0 with addr := BitVec.ofNat 48 (dramEnd - 4) } (dmaMod {}) ∧ scratchTile (dramEnd - 4) 4 = none) ∧
    (dmaHere false 50 { pkt0 with addr := lastWord, payload := [] } (dmaMod winAll) ∧ winAllows (dmaMod winAll) 0 0 0xFFFFC 4 false = true ∧
      forwardPort (dmaMod winAll) 9 = some 50 ∧ (portOf (dmaMod winAll) 50).part = (portOf (dmaMod winAll) 50).part) ∧
    (dmaHere true 50 pkt0 (dmaMod { dmaq := [desc0 false] }) ∧ pkt0.payload.length ≤ ((desc0 false).length - (desc0 false).answered) / 4 ∧
      dmaHere false 50 { pkt0 with payload := [] } (dmaMod { dmaq := [desc0 true] }) ∧ (desc0 true).trailing = false ∧
      (desc0 true).dest = pkt0.srcModule.toNat ∧ (desc0 true).answered < (desc0 true).length ∧ (desc0 true).signal = pkt0.signal.toNat ∧
      partOfTile (dmaMod {}) 0 = some 0) ∧
    (dmaDone { desc0 true with answered := 4 } = true ∧ dmaDone (desc0 true) = false ∧ clockRuns (dmaMod {}) 0 = true) := by
  simp only [dmaHere, notWaiting]; refine ⟨?_, ?_, ?_, ?_, ?_, ?_⟩ <;> decide +kernel
/-- A descriptor of a READ or WRITE of 256 bytes at the last burst of page 1,114,111, with its only piece in a state. -/
def strDesc (op : Nat) (st : PieceSt) : Desc :=
  { no := 0, words := [BitVec.ofNat 32 (op * 2 ^ 28 + 0xFFF00)], done := false, faulted := false, reel := false, base := none, cont := false
    pieces := [{ addr := dramEnd - 256, len := 256, off := 0, st := st, data := List.replicate 64 1, err := 0, banked := false }] }
/-- A module whose tile 0 has it in queue 11, with that page mapped for partition 0. -/
def strMod (op : Nat) (st : PieceSt) : Mod :=
  { tMod { queues := [(11, { descs := [strDesc op st] })] } with dir := [(pageCount - 1, { state := .b })] }
/-- A request at a channel. -/
def req0 (rank : Nat) (w : ReqFor) : Req :=
  { rank := rank, index := 0, what := w, burst := 8191, second := false, waiting := false, backoff := 0, presentAt := 0, arrived := 0, starved := false }
theorem witness_StreamsAndStacks :
    isMapped (pageOf (strMod 1 .unsent) ((BitVec.ofNat 48 (dramEnd - 1) : BitVec 48).toNat / 0x200000)) = true ∧
    ((chanOf (strMod 1 .unsent) 0 0).reqs.any (fun r => r.rank == 1) = false ∧
      ({ reqs := [req0 1 .gondola] } : Chan).reqs.any (fun r => r.rank == 1) = true) ∧
    (firstUnsent (strDesc 1 .unsent) 0 = true ∧ inFlight (tdT 0 (strMod 1 .unsent)) < 128 ∧ (nth? (piecesWhere (tdT 0 (strMod 1 .unsent)) (fun e x => x.st == .unsent && !e.reel)) 0).isSome = true ∧
      dOp (strDesc 1 .unsent).words = 1 ∧ dReg (strDesc 1 .unsent).words = false ∧
      partOfTile (strMod 1 .unsent) 0 = some (pageOf (strMod 1 .unsent) ((dramEnd - 256) / 0x200000)).part) ∧
    ((queueOf (tdOf (strMod 1 .sent) 0) 11).descs = [strDesc 1 .sent] ∧ nth? (strDesc 1 .sent).pieces 0 = (strDesc 1 .sent).pieces.head? ∧
      eccMarks (strMod 1 .sent) 8191 2 = [] ∧ dOp (strDesc 2 .sent).words = 2 ∧ recordShard (strMod 2 .sent) (pageCount - 1) 8191 = none ∧
      forwardTo (strMod 2 .sent) 8191 = none ∧ (dramEnd - 256) % 256 + 4 * (List.replicate 64 (1 : W32)).length ≤ 256) ∧
    (1 < (req0 2 (.winchWrite 0)).rank ∧ (req0 1 .gondola).rank = 1 ∧ (req0 1 .gondola).presentAt ≤ ({} : Chan).boundary ∧ ({} : Chan).lockLeft = 0) ∧
    (¬stackNow { now := 2048 } < Nat.max ({} : Chan).boundary ({} : Chan).maintDue ∧ lockHolds {} = false) ∧
    ((nth? (piecesWhere (tdT 0 (strMod 1 .answered)) (fun e x => x.st == .answered && dOp e.words == 1)) 0).isSome = true ∧
      dLay (strDesc 1 .answered).words = 0 ∧ (dLocal (strDesc 1 .answered).words + 0) % 4 = 0 ∧
      (nth? (piecesWhere (tdT 0 (strMod 2 .answered)) (fun e x => x.st == .answered && dOp e.words == 2)) 0).isSome = true) := by decide +kernel
/-- A remote access of 4 bytes at the last word of DRAM, by a window for job TAG 0, at port 50, which leads to module 9. -/
def acc0 (get : Bool) (st : PieceSt) : RemoteAcc :=
  { no := 0, pkt := { pkt0 with addr := BitVec.ofNat 48 (dramEnd - 4), payload := if get then [] else [5] }, get := get
    pieces := [{ addr := dramEnd - 4, len := 4, off := 0, st := st, data := [], err := 0, banked := false }] }
def remMod (get : Bool) (st : PieceSt) (open_ : Bool) : Mod :=
  { strMod 1 .sent with
    ports := [(50, { state := .up, assigned := true, remote := [acc0 get st] })], fwd := [(9, 0x8000 + 50)]
    dwins := [(63, { first := pageCount - 1, write := true, read := true, opened := open_ })] }
/-- Page 1,114,111 moves to frame 3 of the other tier, and the last burst has been copied. -/
def moveMod (op asked : Nat) : Mod :=
  { strMod op .sent with dir := [(pageCount - 1, { state := .moving, toC := true, dest := 3 })], moves := [⟨pageCount - 1, asked, [], 0, 0⟩] }
theorem witness_StreamsAndStacks_remote :
    (portHeld (remMod true .unsent true) 50 = false ∧ nth? (remoteUnsent (portOf (remMod true .unsent true) 50)) 0 =
        ((acc0 true .unsent).pieces.head?).map (fun y => (acc0 true .unsent, 0, y)) ∧
      dwinAllows (remMod true .unsent true) 0 false (dramEnd - 4) 4 = true ∧ dwinAllows (remMod true .unsent true) 0 true (dramEnd - 4) 4 = true ∧
      dwinAllows (remMod true .unsent false) 0 false (dramEnd - 4) 4 = false) ∧
    (forwardPort (remMod true .sent true) 9 = some 50 ∧ (portOf (remMod true .sent true) 50).remote = [acc0 true .sent] ∧
      (portOf (remMod false .sent true) 50).remote = [acc0 false .sent] ∧ (acc0 false .sent).pkt.mode = 0 ∧
      recordShard (remMod false .sent true) (pageCount - 1) 8191 = none ∧ forwardTo (remMod false .sent true) 8191 = none ∧
      (dramEnd - 4) % 256 + 4 = 256 ∧ (acc0 false .sent).pkt.payload.length = 1) ∧
    (pageBurst (moveMod 2 8192) (pageCount - 1) 8191 = 8191 ∧ forwardTo (moveMod 2 8192) 8191 = some (destBurst (moveMod 2 8192) (pageCount - 1) 8191) ∧
      forwardTo (moveMod 2 8192) 8191 ≠ some 8191 ∧ destBurst (moveMod 1 0) (pageCount - 1) 0 ≠ 0 ∧ engineEnds (partOf (strMod 1 .sent) 0) = false ∧
      retained (strMod 1 .sent) 0 = false ∧ (tdT 0 (strMod 1 .sent)).faultsDue = [] ∧ noBeatToRead 0 (strMod 1 .sent) = true) := by decide +kernel
/-- The only request of a channel, at its boundary. -/
theorem witness_StreamsAndStacks_turn (r : Req) (h : r = req0 3 (.stream 0 11 0 0) ∨ r = req0 3 (.remote 50 0 0) ∨ r = req0 5 (.winchRead (pageCount - 1) 0)) :
    turnDue { reqs := [r], maintDue := 2048 } (strMod 1 .sent) := by
  rcases h with rfl | rfl | rfl <;> intro t ht
  · have h : nextTurn (strMod 1 .sent) { reqs := [req0 3 (.stream 0 11 0 0)], maintDue := 2048 } = some ⟨0, 2048, 0, req0 3 (.stream 0 11 0 0), false⟩ := by rfl
    rw [h] at ht; cases ht; exact Nat.zero_le _
  · have h : nextTurn (strMod 1 .sent) { reqs := [req0 3 (.remote 50 0 0)], maintDue := 2048 } = some ⟨0, 2048, 0, req0 3 (.remote 50 0 0), false⟩ := by rfl
    rw [h] at ht; cases ht; exact Nat.zero_le _
  · have h : nextTurn (strMod 1 .sent) { reqs := [req0 5 (.winchRead (pageCount - 1) 0)], maintDue := 2048 } =
        some ⟨0, 2048, 0, req0 5 (.winchRead (pageCount - 1) 0), false⟩ := by rfl
    rw [h] at ht; cases ht; exact Nat.zero_le _
/-- Gondola's request beside one of a higher rank. -/
theorem witness_StreamsAndStacks_pair : turnDue { reqs := [req0 2 (.winchWrite 0), req0 1 .gondola], maintDue := 2048 } (strMod 1 .sent) := by
  intro t ht
  have h : nextTurn (strMod 1 .sent) { reqs := [req0 2 (.winchWrite 0), req0 1 .gondola], maintDue := 2048 } = some ⟨0, 2048, 1, req0 1 .gondola, false⟩ := by rfl
  rw [h] at ht; cases ht; exact Nat.zero_le _
/-- A Reel entry for superstep 0, tile 0, queue 11. -/
def reel0 : ReelEnt := { words := List.replicate 8 0 ++ [0, 11, 0, 0, 0, 0, 0, 0], active := 0 }
theorem witness_PagesShardsAndReel_flip : (moveMod 1 1).moves.find? (fun w => w.page == pageCount - 1) = some ⟨pageCount - 1, 1, [], 0, 0⟩ ∧
    (pageOf (moveMod 1 1) (pageCount - 1)).state = .moving ∧ mwf 0 (moveMod 1 1).dram = true ∧ (pageOf (moveMod 1 1) (pageCount - 1)).frame < framesB ∧
    (∀ i, i < 64 → mget 0 (moveMod 1 1).dram (64 * destBurst (moveMod 1 1) (pageCount - 1) 0 + i) = mget 0 (moveMod 1 1).dram (64 * 0 + i)) ∧
    isCopied ⟨pageCount - 1, 1, [], 0, 0⟩ 0 = true ∧ isCopied ⟨pageCount - 1, 1, [], 0, 0⟩ 1 = false ∧
    (chanOf (pMod jobP) (burstStack (pageBurst (pMod jobP) 0 0)) (burstChan (pageBurst (pMod jobP) 0 0))).reqs = [] := by decide +kernel
theorem witness_PagesShardsAndReel :
    ((({ pages := [(pageCount - 1, framesB - 1)], part := 7, tierC := false, seq := 1, report := true } : Fill).pages = [(pageCount - 1, framesB - 1)])) ∧
    (({ state := .moving, toC := true, dest := 1, frame := framesB - 1 } : Page).frame < framesB ∧ mwf 0 ([] : SMap W32) = true) ∧
    (anyReq (pMod jobP) (fun y => burstTierC y.burst == true && burstFrame y.burst == 3) = false) ∧
    (bits (dw reel0.words 8) 31 16 = stepIndex jobP ∧ (queueOf (tdOf (pMod jobP) (reelTile reel0)) (reelQueue reel0)).descs.length < 64 ∧ reelQueue reel0 = 11 ∧ jobP.reelDone = [] ∧ jobP.reelWait = [] ∧
      64 ≤ (queueOf { queues := [(11, { descs := List.replicate 64 (strDesc 1 .unsent) })] } 11).descs.length) ∧
    (({ valid := true, part := 7, algo := 2 } : Shard).start = stepIndex jobP ∧ eccMarks (pMod jobP) (pageBurst (pMod jobP) 0 0) 2 = []) ∧
    (shardActive { valid := true, began := true, elements := 65, unitsDone := [0, 1] } = true ∧
      shardUnits { valid := true, began := true, elements := 65, unitsDone := [0, 1] } = 2 ∧
      (∀ u, u < 2 → ([0, 1] : List Nat).contains u = true)) := by decide +kernel
/-- An engine with a valid context 15. -/
def eng0 : Engine := { ctx := [(15, { valid := true, part := 7, tag := 5, epoch := 1 })] }
/-- A module with it at port 50. -/
def redMod (e : Engine) (x : Part) : Mod := { pMod x with engines := [(50, e)] }
/-- A route of a job to its deliveries, from its local input. -/
def route0 : Route := { valid := true, job := 15, inputs := 2, first := 0, last := 9, deliver := true, transfer := 65535 }
/-- An engine whose local input holds block 9 of the job of context 15, which a route takes to its deliveries. -/
def fedEng : Engine := { eng0 with locl := [{ job := 15, num := 9, limbs := 0, beats := 1, vals := List.replicate 16 1 }], routes := [(63, route0)] }
theorem witness_ReductionFlow :
    (bits (0xF6000001 : W32).toNat 31 28 = 15 ∧ bits (0xF6000001 : W32).toNat 26 24 = 6 ∧ (List.replicate 48 (0 : W32)).length = 8 * 6 ∧
      (ctxOf (redMod eng0 jobP) 50 15).tag = (5 : BitVec 16).toNat ∧ (ctxOf (redMod eng0 jobP) 50 15).epoch = (1 : BitVec 8).toNat ∧
      portTakes (redMod eng0 jobP) 50 5 = true ∧ lastBlock (engineOf (redMod eng0 jobP) 50) inLink 15 ≤ bits (0xF6000001 : W32).toNat 23 0 ∧
      lastBlock (engineOf (redMod eng0 jobP) 50) inChain 15 ≤ 1 ∧ (ctxOf (redMod eng0 jobP) 50 15).epoch ≠ (0 : BitVec 8).toNat) ∧
    (fabricHeld (redMod eng0 jobP) (portOf (redMod eng0 jobP) 50).part = false ∧ localFill eng0 < 256 ∧ (∀ p, p < 8 → (partOf (redMod eng0 jobP) p).beats = []) ∧ lastBlock eng0 inLocal 15 ≤ (0 + 0) % 2 ^ 24) ∧
    (outputsOpen { inMod xP [] with engines := [(50, fedEng)] } 50 route0 (sumLimbs { inMod xP [] with engines := [(50, fedEng)] } 50 15 9 route0) = true ∧
      (∀ b, b ∈ fedEng.link ++ fedEng.locl ++ fedEng.chain → b.job = 15 → b.num = 9) ∧ (ctxOf { inMod xP [] with engines := [(50, fedEng)] } 50 15).stopped = false ∧ limbsOf (List.replicate 16 1) ≤ 6) := by decide +kernel
theorem witness_ReductionFlow_match : matchJob fedEng 15 = .ready 9 route0 0 ∧ ∀ i, i < 15 → matchJob fedEng i = .idle := by
  refine ⟨rfl, fun i h => ?_⟩
  rcases i with _ | _ | _ | _ | _ | _ | _ | _ | _ | _ | _ | _ | _ | _ | _ | i <;> first | rfl | omega
/-- A module in phase READY with this state of partition 0, and the key store and carrier flash of State.reset. -/
def gMod (x : Part) : Mod := { tMod {} with parts := [(0, x)], atgen := State.reset.m.atgen }
/-- Partition 0 with half 0 and no job. -/
def idleP : Part := { halves := 1 }
/-- A command in phase READY with nothing stored is accepted. -/
theorem acc (f : Frame) (o : Nat) (m : Mod)
    (h : (frameOk f && f.ftype == 1 && f.opcode.isNone && f.w.length == 16 && f.crcOk && decide (frameLength f ≤ 1048640) && m.box.kiteUp &&
      m.bringup == .ready && !m.box.halt && m.box.st == .idle && m.box.stored.isNone) = true) : accepts f o m := by
  simp only [Bool.and_eq_true, beq_iff_eq, decide_eq_true_eq, Bool.not_eq_true', Option.isNone_iff_eq_none] at h
  obtain ⟨⟨⟨⟨⟨⟨⟨⟨⟨⟨h1, ha⟩, hb⟩, h2⟩, h3⟩, h4⟩, h5⟩, h6⟩, h7⟩, h8⟩, h9⟩ := h
  exact ⟨h1, ha, hb, h2, h3, h4, h5, h6, h7, h8, fun r hr => by rw [h9] at hr; cases hr⟩
/-- A response that is stored, for SEQ 1. -/
def resp0 : Resp := { opcode := 0x0304, seq := 1, status := 0, w := [], data := [] }
theorem witness_MailboxAcceptance : commandRow (.jobStatus (frameOf [] [])) = some (frameOf [] [], 0x0304, false) ∧ frameOk (frameOf [] []) = true ∧
    served (gMod idleP) = true ∧ served { gMod idleP with bringup := .atgen } = false ∧ (gMod idleP).box.kiteUp = true ∧
    ({ frameOf [] [] with crcOk := false } : Frame).crcOk = false ∧ frameLength (frameOf [] (List.replicate 4 0)) ≤ 1048640 ∧
    (frameOf [] []).crcOk = true ∧ (gMod idleP).box.halt = false ∧ (gMod idleP).box.st = .idle ∧ (gMod idleP).box.stored = none ∧
    ({ st := .running } : Mailbox).st ≠ .idle ∧ ({ halt := true } : Mailbox).halt = true ∧ ({ stored := some resp0 } : Mailbox).stored = some resp0 ∧
    resp0.seq = (frameOf [] []).seq ∧ resp0.opcode = 0x0304 ∧ (gMod idleP).power.active = false ∧
    dmasQuiet (argPart (frameOf [] [])) (gMod idleP) ∧ commitDue (gMod idleP) (argPart (frameOf [] [])) = false ∧ idleP.ending = none ∧
    frameOk { frameOf [] [] with w := [] } = true ∧
    (gondolaRuns { gMod idleP with bringup := .atgen } = false ∧ gondolaRuns (gMod idleP) = true ∧ gondolaRuns { gMod idleP with bringup := .gondola } = true ∧
      served { gMod idleP with bringup := .gondola } = false) ∧
    (frameOk { frameOf [] [] with ftype := 7 } = true ∧ frameOk { frameOf [] [] with opcode := some 0x0109 } = true ∧
      (({ frameOf [] [] with opcode := some 0x0109 } : Frame).opcode.map (·.toNat)).getD 0x0304 = 0x0109) := by unfold dmasQuiet; decide +kernel
theorem witness_HaltAndKiteline : gondolaRuns (gMod idleP) = true ∧ (gMod idleP).box.kiteUp = true ∧ (gMod idleP).box.halt = false ∧
    (gMod idleP).box.running = none ∧ answerWaits resp0 (gMod idleP) = false ∧ ({ running := some (resp0, .none) } : Mailbox).running = some (resp0, .none) ∧
    ({ halt := true } : Mailbox).halt = true := by
  decide +kernel
/-- A module with page 0 mapped for partition 0, and a firmware image at its start. -/
def imgMod : Mod := { gMod idleP with
  dir := [(0, { state := .b })], dram := ((List.range 159).zip (bytesWords factoryImage)).filter (fun e => e.2 != 0) }
/-- A quote before its sample, and with one. -/
def quoteQ (s : Option (BitVec 48 × Lock)) : Quote := { head := List.replicate 40 0, tail := [], sample := s }
theorem witness_QueriesAnswer :
    accepts (frameOf [] []) 1 (gMod idleP) ∧ plainOk (frameOf [] []) [] = true ∧ (gMod idleP).atgen.serial.length = 16 ∧
    accepts (frameOf [] []) 0x0304 (gMod { idleP with hash := List.replicate 48 0 }) ∧
    accepts (frameOf [5] []) 0x0602 (gMod idleP) ∧ plainOk (frameOf [5] []) [(0, 15)] = true ∧ arg (frameOf [5] []) 0 = 5 ∧
    (accepts (frameOf [0, BitVec.ofNat 32 (tileEnd - 0x200000), BitVec.ofNat 32 ((tileEnd - 0x200000) / 2 ^ 32), 1] []) 0x0401 (gMod idleP) ∧
      ∃ w, (wordRun (tileEnd - 0x200000) 1).map (regWord { stepping := .c0 } (gMod idleP)) = [some w]) ∧
    (accepts (frameOf [0, 252, 0, 4] []) 0x0107 imgMod ∧ arg48 (frameOf [0, 252, 0, 4] []) 1 = 252 ∧ arg (frameOf [0, 252, 0, 4] []) 3 = 4 * 1 ∧
      isMapped (pageOf imgMod 0) = true ∧ (pageOf imgMod 0).part = 0 ∧ eccMarks imgMod (pageBurst imgMod 0 0) 2 = [] ∧ recordShard imgMod 0 0 = none ∧
      (chanOf imgMod (burstStack (pageBurst imgMod 0 0)) (burstChan (pageBurst imgMod 0 0))).reqs = []) ∧
    (plainOk (frameOf (List.replicate 12 0xFFFFFFFF) []) ((List.range 12).map (fun i => (i, all32))) = true ∧ firmwareRuns (gMod idleP) = true) ∧
    ((0x62 : BitVec 7).toNat = 0x60 + ({ gMod idleP with position := 2 } : Mod).position ∧ (0x61 : BitVec 7).toNat ≠ 0x60 + (gMod idleP).position) ∧
    (∀ x, ({ gMod idleP with box := { quote := some (quoteQ x) } } : Mod).box.quote = some (quoteQ x)) ∧
    (quoteQ (some (0xFFFFFFFFFFFF, .expired))).head.length = 40 ∧ (quoteQ none).sample = none :=
  ⟨acc _ _ _ (by decide +kernel), by decide +kernel, by decide +kernel, acc _ _ _ (by decide +kernel), acc _ _ _ (by decide +kernel),
    by decide +kernel, by decide +kernel, ⟨acc _ _ _ (by decide +kernel), ⟨_, rfl⟩⟩,
    ⟨acc _ _ _ (by decide +kernel), by decide +kernel⟩, by decide +kernel, by decide +kernel, fun _ => rfl, by decide +kernel⟩
/-- A module whose port 50 is in training or UP, with MODULE_NUM 9999. -/
def linkMod (st : LinkState) : Mod :=
  { gMod idleP with moduleNum := 9999, ports := [(50, { state := st, echoCount := 256, echoMax := 6144 })] }
theorem witness_FabricCommands :
    (accepts (frameOf [9999] []) 2 (gMod idleP) ∧ plainOk (frameOf [9999] []) [(0, 0x3FFF)] = true ∧ (∀ p, p < 8 → (partOf (gMod idleP) p).jstate = .none)) ∧
    (accepts (frameOf [] []) 3 { gMod idleP with masterStrap := true } ∧ receivesTick { gMod idleP with masterStrap := true } = false ∧
      breaksLimit { gMod idleP with masterStrap := true } 63 { gMod idleP with masterStrap := true }.children = false ∧ (gMod idleP).upstream = 63 ∧ (gMod idleP).position = 0) ∧
    (accepts (frameOf [50, 1, 0x2FFFF] []) 4 { gMod idleP with position := 2 } ∧ bit (1 + 2 ^ 32 * 0xFFFF) 50 = false ∧
      breaksLimit { gMod idleP with position := 2 } 50 (1 + 2 ^ 32 * 0xFFFF) = false ∧
      plainOk (frameOf [50, 1, 0xFFFF] []) [(0, 0x3F), (1, all32), (2, 0xFFFF)] = true ∧ (∀ p, p < 8 → jobRuns (partOf (gMod idleP) p) = false)) ∧
    (accepts (frameOf [47, 1, 0] []) 4 (gMod idleP) ∧ breaksLimit (gMod idleP) 47 1 = false ∧ plainOk (frameOf [47, 1, 0] []) [(0, 0x3F), (1, all32), (2, 0xFFFF)] = true) ∧
    (accepts (frameOf [0, 0x40000] []) 5 (linkMod .down) ∧ plainOk (frameOf [0, 0x40000] []) [(0, all32), (1, 0x7FFFF)] = true ∧
      argPorts (frameOf [0, 0x40000] []) 0 = 1 <<< 50 ∧ (portOf (linkMod .down) 50).state ≠ .training) ∧
    ((portOf (linkMod .training) 50).state = .training ∧ ((portOf (linkMod .training) 50).echoMax + 31) / 32 = 192 ∧ (portOf (linkMod .training) 50).echoCount = 256 ∧
      { linkMod .training with training := [(1 <<< 50, 1)] }.training = [(1 <<< 50, 1)] ∧ (linkMod .training).box.kiteUp = true ∧
      (portOf (linkMod .training) 50).echoes = false ∧ linksBusy (linkMod .training) = false ∧ exchanging (linkMod .training) = false ∧
      (linkMod .training).box.running = none ∧ (linkMod .training).box.quote = none ∧ (linkMod .training).parts.all (fun x => x.2.ending == none) = true ∧
      (linkMod .training).tiles.all (fun x => x.2.d.faultsDue == []) = true ∧ (linkMod .training).ports.length = 1) ∧
    (accepts (frameOf [] []) 6 { gMod idleP with role := 2 } ∧ (gMod idleP).syncing = none ∧ arg48 (frameOf [0, 7, 0xFFFF] []) 1 = 7 + 2 ^ 32 * 0xFFFF ∧
      (portOf { linkMod .up with upstream := 50 } 50).state = .up) ∧
    (reported { gMod idleP with role := 2, syncing := some (1, 0, none), reports := [(48, 1), (49, 1), (50, 6145)] } = true ∧
      reported { gMod idleP with role := 1, lock := .locked, syncing := some (1, 0, none), reports := [(48, 1), (49, 1), (50, 6145)] } = true ∧
      1600000000 ≤ srcNow { gMod idleP with now := 1600000000 } - 0 ∧ srcNow { gMod idleP with now := 1599999999 } - 0 < 1600000000 ∧
      reported { gMod idleP with role := 2, syncing := some (1, 0, none), reports := [] } = false ∧ ({ gMod idleP with lock := .unlocked } : Mod).lock ≠ .locked) :=
  ⟨⟨acc _ _ _ (by decide +kernel), by decide +kernel⟩, ⟨acc _ _ _ (by decide +kernel), by decide +kernel⟩,
    ⟨acc _ _ _ (by decide +kernel), by decide +kernel⟩, ⟨acc _ _ _ (by decide +kernel), by decide +kernel⟩,
    ⟨acc _ _ _ (by decide +kernel), by decide +kernel⟩, by decide +kernel, ⟨acc _ _ _ (by decide +kernel), by decide +kernel⟩, by decide +kernel⟩
/-- A policy for all halves at their smallest ceilings. -/
def policyF : Frame := frameOf [0, 0xFF, 1, 1000, 20, 0] []
/-- Words 1 and 2 of a frame for a tile address. -/
def tileWords (o : Nat) : List W32 := [0, BitVec.ofNat 32 (tileBase + o), BitVec.ofNat 32 ((tileBase + o) / 2 ^ 32)]
theorem witness_PlacementCommands :
    (accepts (frameOf [0, 0xFE] []) 0x0101 (gMod idleP) ∧ plainOk (frameOf [0, 0xFE] []) [(0, 7), (1, 0xFF)] = true ∧ idleP.rstate = .idle ∧
      (∀ r, r < 8 → r ≠ 0 → (partOf (gMod idleP) r).halves &&& 0xFE = 0)) ∧
    (accepts (frameOf [0, 1, 0x40000] []) 0x0102 (linkMod .up) ∧ jobRuns idleP = false ∧ bit (argPorts (frameOf [0, 1, 0x40000] []) 1) 50 = true) ∧
    (accepts (frameOf [0, BitVec.ofNat 32 framesB, BitVec.ofNat 32 framesC] []) 0x0103 (gMod idleP) ∧ tierUse (gMod idleP) 0 false ≤ framesB ∧
      tierUse imgMod 0 false = 1) ∧
    (plainOk (frameOf [0x100, BitVec.ofNat 32 (pageCount - 1), 1] []) [(0, 0x107), (1, all32), (2, all32)] = true ∧ pageCount - 1 + 1 ≤ pageCount ∧
      accepts (frameOf [0x100, BitVec.ofNat 32 (pageCount - 1), 1] []) 0x0104 (gMod { idleP with quotaC := 1 }) ∧
      tierUse (gMod idleP) 0 true + 1 ≤ quotaOf (gMod { idleP with quotaC := 1 }) 0 true ∧ 1 ≤ freeFrames (gMod idleP) true ∧
      inFill (gMod idleP) (pageCount - 1) = false ∧ (pageOf (gMod idleP) (pageCount - 1)).state = .unmapped) ∧
    (accepts (frameOf [0x100, 0, 1] []) 0x0105 { imgMod with parts := [(0, { idleP with quotaC := 1 })] } ∧ isMapped (pageOf imgMod 0) = true ∧
      inFill imgMod 0 = false ∧ pageTierC (pageOf imgMod 0) ≠ true) ∧
    (accepts (frameOf [0, 0, 1] []) 0x0106 imgMod ∧ jobLive (partOf imgMod 0) = false ∧ (pageOf imgMod 0).part = 0 ∧ (pageOf imgMod 0).state ≠ .moving) ∧
    (accepts (frameOf [0, 252, 0, 4] (wordsBytes [7])) 0x0108 imgMod ∧ rsvOk (frameOf [0, 252, 0, 4] []) [(0, 7), (1, all32), (2, 0xFFFF), (3, all32)] = true ∧
      forwardTo imgMod 0 = none ∧ recordShard imgMod 0 0 = none ∧ (chanOf imgMod (burstStack 0) (burstChan 0)).reqs = [] ∧ mwf {} imgMod.dir = true ∧
      (usedFrames imgMod true).Nodup) ∧
    (accepts (frameOf [0, 0x70000, 0, 0x100000, 0x7FFFF] []) 0x0201 (gMod idleP) ∧ partOfTile (gMod idleP) 0 = some 0 ∧
      plainOk (frameOf [0, 0x70000, 0, 0x100000, 0x7FFFF] []) [(0, 7), (1, 0x71FFF), (2, 0xFFFFF), (3, 0x1FFFFF), (4, 0x7FFFF)] = true) ∧
    (accepts (frameOf [0, 63, 0, 1, 0x7FFFF] []) 0x0202 imgMod ∧
      plainOk (frameOf [0, 63, 0, 1, 0x7FFFF] []) [(0, 7), (1, 0x3F), (2, all32), (3, all32), (4, 0x7FFFF)] = true) ∧
    (accepts policyF 0x0501 (gMod idleP) ∧ plainOk policyF [(1, 0xFF), (2, 1), (3, all32), (4, all32), (5, all32)] = true ∧
      policyConflict (withPolicy {} 0xFF true 1000 20 0) = false) ∧
    (accepts (frameOf (tileWords 0xFFFF8 ++ [1]) (leBytes 8 5)) 0x0402 (gMod idleP) ∧ tileStopped (tdOf (gMod idleP) 0) = true ∧ (tileOf (gMod idleP) 0).bundle = none ∧
      arg48 (frameOf (tileWords 0xFFFF8 ++ [1]) (leBytes 8 5)) 1 = tileBase + 0x200000 * 0 + 0xFFFF8 ∧ (partOf (gMod idleP) 0).jstate ≠ .killedRetained) ∧
    hostMayWrite 0 = false :=
  ⟨⟨acc _ _ _ (by decide +kernel), by decide +kernel⟩, ⟨acc _ _ _ (by decide +kernel), by decide +kernel⟩,
    ⟨acc _ _ _ (by decide +kernel), by decide +kernel⟩, ⟨by decide +kernel, by decide +kernel, acc _ _ _ (by decide +kernel), by decide +kernel⟩,
    ⟨acc _ _ _ (by decide +kernel), by decide +kernel⟩, ⟨acc _ _ _ (by decide +kernel), by decide +kernel⟩,
    ⟨acc _ _ _ (by decide +kernel), by decide +kernel⟩, ⟨acc _ _ _ (by decide +kernel), by decide +kernel⟩,
    ⟨acc _ _ _ (by decide +kernel), by decide +kernel⟩, ⟨acc _ _ _ (by decide +kernel), by decide +kernel⟩,
    ⟨acc _ _ _ (by decide +kernel), by decide +kernel⟩, by decide +kernel⟩
/-- The header of a LOF of partition 0 with half 0 and no section: PROFILE 1, READY_LEAD 4, RESTART_LEAD 64, ATTEMPT_LIMIT 1. -/
def lof0 : List Byte :=
  leBytes 4 0x37464F4C ++ leBytes 2 1 ++ [1, 1] ++ leBytes 4 0 ++ [4, 0, 64, 0, 64, 0, 1, 0, 0, 0, 1, 0] ++ List.replicate 40 0
/-- A module with it at the start of page 0, and its rank table in the next burst. -/
def lofMod : Mod :=
  { gMod idleP with dir := [(0, { state := .b })], dram := ((List.range 16).zip (bytesWords lof0)).filter (fun e => e.2 != 0) ++ [(64, 7)] }
/-- LOAD of it. -/
def loadF : Frame := frameOf [0, 0, 0, 64, 9, 5, 256, 0, 1, 0] []
/-- Does the loader take an image? -/
def isOk {α β : Type} : Except α β → Bool
  | .ok _ => true
  | .error _ => false
theorem isOk_some {α β : Type} (e : Except α β) (h : isOk e = true) : ∃ b, e = .ok b := by
  cases e with
  | ok b => exact ⟨b, rfl⟩
  | error a => cases h
/-- The module as LOAD finds it. -/
def lofRun : Mod := taken loadF 0x0301 lofMod
theorem witness_JobCommands_load : accepts loadF 0x0301 lofMod ∧
    plainOk loadF [(0, 7), (1, all32), (2, 0xFFFF), (3, all32), (4, all32), (5, 0xFFFF), (6, all32), (7, 0xFFFF), (8, 0x3FFF), (9, 0x3FFF)] = true ∧
    (partOf lofMod 0).rstate = .idle ∧ (∀ t, t ∈ tilesOfPart lofMod 0 → tileStopped (tdOf lofMod t) = true) ∧
    firstStatus (readChecks lofRun 0 (arg48 loadF 1) (arg loadF 3) ++ readChecks lofRun 0 (arg48 loadF 6) (2 * arg loadF 8)) = none ∧
    (readDram lofRun 0 64).1 = false ∧ (readDram (readDram lofRun 0 64).2.2 256 2).1 = false ∧
    headFail { stepping := .b1 } (readDram (readDram lofRun 0 64).2.2 256 2).2.2 0 1 0 (readDram lofRun 0 64).2.1
      (readDram (readDram lofRun 0 64).2.2 256 2).2.1 = none :=
  ⟨acc _ _ _ (by decide +kernel), by decide +kernel⟩
theorem witness_JobCommands_steps :
    ∃ m1, loadSteps 0 (readDram lofRun 0 64).2.1 (readDram (readDram lofRun 0 64).2.2 256 2).2.1 0 9 5
      (unloadOld { stepping := .b1 } 0 (readDram (readDram lofRun 0 64).2.2 256 2).2.2) = .ok m1 := isOk_some _ (by decide +kernel)
/-- An armed checkpoint of partition 0. -/
def ck0 : CkptArm :=
  { step := 3, resume := 2000, dest := 9999, port := 50, addr := tileBase, capacity := 4096, tag := 5, seq := 1, opcode := 0x0306, running := false
    due := true }
/-- CKPT_SAVE and CKPT_RESTORE operands for module 9999 through port 50. -/
def ckF : Frame := frameOf [0, 3, 2000, 0, 0x32270F, 0, 0, 1, 5] []
/-- A module with partition 0 as given, port 50 UP and its own. -/
def ckMod (x : Part) : Mod := { gMod x with ports := [(50, { state := .up, assigned := true, part := 0 })] }
/-- A loaded job without objects. -/
def loadedP : Part := { idleP with jstate := .loaded, hash := List.replicate 48 0 }
/-- The image of that job: a header with its digest. -/
def img0 : List Byte := let h := ckHeader { loadedP with stepNum := 3, superstep := 9 } 0 304; h ++ sha384 h
theorem witness_JobCommands_quiet : dmasQuiet 0 (gMod { idleP with jstate := .halted }) := by unfold dmasQuiet; decide +kernel
theorem witness_JobCommands :
    (accepts (frameOf [0x100, 1024, 0] []) 0x0302 (gMod loadedP) ∧ plainOk (frameOf [0x100, 1024, 0] []) [(0, 0x107), (1, all32), (2, 0xFFFF)] = true ∧
      0 < (BitVec.ofNat 48 1024 - (gMod loadedP).tick).toNat ∧ (BitVec.ofNat 48 1024 - (gMod loadedP).tick).toNat ≤ 2 ^ 46 ∧ loadedP.sched = []) ∧
    (tickReached (gMod loadedP) { idleP with jstate := .armed }.startTick = true ∧ clockEvents { idleP with jstate := .armed } = []) ∧
    (accepts (frameOf [0] []) 0x0303 (gMod { idleP with jstate := .halted }) ∧ killable { idleP with jstate := .halted } = true ∧
      killable { idleP with jstate := .armed } = true ∧ commitDue (gMod { idleP with jstate := .armed }) 0 = false ∧ idleP.retain = false ∧ idleP.ending = none) ∧
    (accepts (frameOf [0] []) 0x0305 (gMod { idleP with rstate := .killedRetained })) ∧
    (accepts ckF 0x0306 (gMod loadedP) ∧ jobLive loadedP = true ∧ badRemote ckF = false ∧ plainOk ckF [(0, 7), (1, all32), (2, all32), (3, 0xFFFF),
      (4, 0x3F3FFF), (5, all32), (6, 0xFFFF), (7, all32), (8, 0xFFFF)] = true ∧ arg48 ckF 2 = 2000) ∧
    (({ loadedP with jstate := .running, ckpt := some ck0, heldForCkpt := true } : Part).ckpt = some ck0 ∧ 304 ≤ ck0.capacity ∧
      tickReached { ckMod loadedP with tick := 1, now := 640 } (boundaryTick { ckMod loadedP with tick := 1, now := 640 } 0 (loadedP.commitTick + 1)).1 = true ∧ portIn (ckMod loadedP) 0 50 = true ∧
      (portOf (ckMod loadedP) 50).state = .up) ∧
    (accepts (frameOf [0, 0, 0, 0, 0x32270F, 0, 0, 1, 5] []) 0x0307 (ckMod loadedP) ∧ imageOk (img0.take 4096) = true ∧
      matchEntries (ckMod loadedP) 0 (img0.take 4096) = some [] ∧ imageOk (img0.take 300) = false ∧
      plainOk (frameOf [0, 0, 0, 0, 0x32270F, 0, 0, 1, 5] []) [(0, 7), (4, 0x3F3FFF), (5, all32), (6, 0xFFFF), (7, all32), (8, 0xFFFF)] = true) :=
  ⟨⟨acc _ _ _ (by decide +kernel), by decide +kernel⟩, by decide +kernel, ⟨acc _ _ _ (by decide +kernel), by decide +kernel⟩,
    acc _ _ _ (by decide +kernel), ⟨acc _ _ _ (by decide +kernel), by decide +kernel⟩, by decide +kernel,
    ⟨acc _ _ _ (by decide +kernel), by decide +kernel⟩⟩
/-- FW_INSTALL of the image at the start of page 0. -/
def fwF (n : Nat) : Frame := frameOf [0, 0, 0, BitVec.ofNat 32 n] []
theorem image_in_dram : (readDram (taken (fwF 633) 0x0603 imgMod) 0 633).2.1 = factoryImage := by decide +kernel
theorem image_accepted : imgAccepted { stepping := .c0 } imgMod.atgen factoryImage = true := by decide +kernel
theorem witness_FirmwareAndPower_install (n : Nat) (h : n = 633 ∨ n = 0) : accepts (fwF n) 0x0603 imgMod ∧
    plainOk (fwF n) [(1, all32), (2, 0xFFFF), (3, all32)] = true ∧ (∀ p, p < 8 → jobRuns (partOf imgMod p) = false) ∧
    arg48 (fwF n) 1 + arg (fwF n) 3 ≤ dramEnd ∧ (∀ k, k ∈ pagesOfBytes 0 n → isMapped (pageOf imgMod k) = true) ∧
    (readDram (taken (fwF n) 0x0603 imgMod) (arg48 (fwF n) 1) (arg (fwF n) 3)).1 = false ∧
    imgAccepted { stepping := .c0 } imgMod.atgen (readDram (taken (fwF n) 0x0603 imgMod) 0 n).2.1 = decide (n = 633) := by
  rcases h with rfl | rfl
  · exact ⟨acc _ _ _ (by decide +kernel), by decide +kernel, by decide +kernel, by decide +kernel, by decide +kernel, by decide +kernel,
      by rw [image_in_dram]; exact image_accepted⟩
  · exact ⟨acc _ _ _ (by decide +kernel), by decide +kernel, by decide +kernel, by decide +kernel, by decide +kernel, by decide +kernel, by decide +kernel⟩
/-- The sums of two samples of period 3, in which each half draws 640 W. -/
def period0 : PeriodAcc := { no := 3, count := 2, vMin := 3700, sumW := 12002, outside := 2000, halves := List.replicate 8 1280 }
/-- A sample within the limits, and one above 18.0 times 10 A. -/
def sample0 (i : Nat) : PowerTelemetry := { tenMilliVolt := 6000, deciAmp := i, watt := 6000, outsideW := 1000, halfW := List.replicate 8 625 }
theorem witness_FirmwareAndPower :
    (firmwareRuns (gMod idleP) = true ∧ tickReached { gMod idleP with tick := 1024 } 1024 = true ∧ tickReached { gMod idleP with tick := 1023 } 1024 = false) ∧
    (period0.no + 1 = (4096 : BitVec 48).toNat / 1024 ∧ 0 < period0.count ∧ (4096 : BitVec 48).toNat % 1024 = 0 ∧
      ({} : PeriodAcc).no + 1 ≠ (4096 : BitVec 48).toNat / 1024 ∧ (gMod idleP).tick.toNat % 1024 = 0 ∧ (gMod idleP).phase = 0 ∧ { gMod idleP with phase := 639 }.phase ≠ 0 ∧ (gMod idleP).power.pending = none ∧
      (gMod idleP).power.policy.floors = []) ∧
    ((sample0 1801).halfW.length = 8 ∧ 1800 < (sample0 1801).deciAmp ∧ (sample0 1500).watt ≤ 6000 ∧ (sample0 1500).tenMilliVolt ≤ 6000 ∧ (gMod idleP).power.samples = [] ∧
      (gMod idleP).powered = true ∧ ({ overI := 3 } : Power).overI = 3 ∧ (gMod idleP).power.active = false) ∧
    (({ dieHalf := List.replicate 8 96, stackMax := 96, inlet := 0, outlet := 0 } : ThermalTelemetry).dieHalf.length = 8) ∧
    (({ active := true, met := 8, dieMax := 94, stackMax := 84 } : Power).dieMax < 95 ∧ (gMod idleP).stopped = [] ∧ (gMod idleP).power.heldSyms = [] ∧
      (gMod idleP).power.heldKills = [] ∧ (gMod idleP).power.heldResets = [] ∧ (gMod idleP).phase = 0 ∧ (∀ p, p < 8 → (partOf (gMod idleP) p).jstate ≠ .running) ∧
      95 ≤ ({ dieMax := 95 } : Power).dieMax) := by decide +kernel
theorem witness_ResetsAndCollection :
    ((gMod idleP).powered = true ∧ State.reset.m.powered = false) ∧
    (∀ p, p < 8 → (partOf (gMod idleP) p).jstate = .none) ∧ (partOf (gMod loadedP) 0).jstate ≠ .none ∧
    ({ gMod idleP with heldAtRails := true }.heldAtRails = true ∧ (gMod idleP).heldAtRails = false ∧ (gMod idleP).box.running = none) ∧
    (({ warmFrom := some 5 } : Mailbox).warmFrom = some 5 ∧ 5 + 80000 ≤ srcNow { gMod idleP with now := 80005 } ∧
      srcNow { gMod idleP with now := 80004 } < 5 + 80000 ∧ (gMod idleP).warmPending = false) ∧
    ((gMod idleP).passRunning = false ∧ (gMod idleP).tick.toNat % 1024 = 0 ∧ (gMod idleP).phase = 0 ∧ firmwareRuns (gMod idleP) = true ∧
      (tdOf (tMod { nfResults := 1 }) 0).nfResults ≠ 0 ∧ partOfTile (tMod { nfResults := 1 }) 0 = some 0) ∧
    mget 0 ({ gMod idleP with passRunning := true, passVals := [(64, (5, 8))] }.lasts) 64 ≤ 5 := by decide +kernel
/-- A module with a tile, a partition, a queue and a page in its tables, in canonical form, and a step from it that completes. -/
theorem witness_TablesStayCanonical : modCanonical (strMod 1 .sent) ∧ modCanonical State.reset.m ∧
    ∃ t, step { State.reset with m := strMod 1 .sent, pending := [.kitelineUp] } = .next t := by
  have hr : (strMod 1 .sent).box.running = none := by decide +kernel
  have h0 : State.reset.m.box.running = none := by decide +kernel
  refine ⟨⟨?_, ?_, ?_, ?_, fun r p b h => by rw [hr] at h; cases h⟩, ⟨?_, ?_, ?_, ?_, fun r p b h => by rw [h0] at h; cases h⟩, _, rfl⟩ <;>
    first | decide +kernel | (simp only [tablesCanonical]; decide +kernel)
theorem witness_QueueRuns : [Instr.add j0 (body 3 1 2 0), .kitelineUp].all wellFormed = true := by decide +kernel

end Sys2Proof.Tests
end

section
/-! Proofs. Commands of Gondola that pass their checks, and what the commands of partitions, ports, quotas, pages, windows and registers
leave: first the shared operations, each once, then the statement PlacementCommands. -/

namespace Sys2Proof.Machine

/-! ## Commands that pass their checks -/

theorem Gives.mono {c : Instr} {s : State} {P Q : Mod → Prop} (h : Gives c s P) (hpq : ∀ m', P m' → Q m') : Gives c s Q := by
  obtain ⟨m', he, hp⟩ := h
  exact ⟨m', he, hpq m' hp⟩

/-- Where no check refuses, the command is carried out. -/
theorem checked_pass {l : List (Bool × Nat)} {m : Mod} {go : Answer} (h : ∀ e ∈ l, e.1 = false) : checked l m go = go := by
  have hf : firstStatus l = none := by simpa [firstStatus] using h
  simp only [checked, hf]

/-- What holds of the module a command leaves, whatever its mailbox and what it sends, holds when it is answered. -/
theorem Carries.gives {c : Instr} {f : Frame} {o : Nat} {s : State} {w : List W32} {data : List Byte} {goal : Mod} {P : Mod → Prop}
    (h : Carries c f o s w data goal) (hP : ∀ b u, P { goal with box := b, out := u }) :
    Gives c s (fun m' => answered f o 0 w data m' ∧ P m') :=
  Gives.mono h (fun m' ⟨ha, hm⟩ => ⟨ha, by rw [hm]; exact hP _ _⟩)

/-- The mailbox and what is sent are no part of the module that a command is said to leave. -/
theorem Carries.rest {c : Instr} {f : Frame} {o : Nat} {s : State} {w : List W32} {data : List Byte} {goal goal' : Mod}
    (h : Carries c f o s w data goal) (hg : ∃ b u, goal = { goal' with box := b, out := u }) : Carries c f o s w data goal' := by
  obtain ⟨b, u, rfl⟩ := hg
  exact h

/-- A command whose checks all pass and whose action answers OK with nothing to return leaves what its action makes of the module. -/
theorem carries_of_checks {c : Instr} {f : Frame} {o : Nat} {long : Bool} {run : Mod → Answer} {s : State} {l : List (Bool × Nat)} {a : Answer}
    (hc : exec c s = execCommand f o long run s) (h : accepts f o s.m) (hr : run (taken f o s.m) = checked l (taken f o s.m) a)
    (hl : ∀ e ∈ l, e.1 = false) (hst : a.status = 0) (hw : a.w = []) (hd : a.data = []) (ha : a.after = id) :
    Carries c f o s [] [] a.m := by
  rw [checked_pass hl] at hr
  refine execCommand_carries hc h ?_ ?_ ?_ ?_ ?_ <;> rw [hr]
  exacts [hst, hw, hd, ha, ⟨_, _, rfl⟩]

/-- The same for a command that is done, with nothing to return. -/
theorem carries_done {c : Instr} {f : Frame} {o : Nat} {long : Bool} {run : Mod → Answer} {s : State} {l : List (Bool × Nat)} {goal : Mod}
    (hc : exec c s = execCommand f o long run s) (h : accepts f o s.m) (hr : run (taken f o s.m) = checked l (taken f o s.m) (done goal))
    (hl : ∀ e ∈ l, e.1 = false) : Carries c f o s [] [] goal :=
  carries_of_checks hc h hr hl rfl rfl rfl rfl

@[simp] theorem partOf_taken (f : Frame) (o : Nat) (m : Mod) (p : Nat) : partOf (taken f o m) p = partOf m p := rfl
@[simp] theorem portOf_taken (f : Frame) (o : Nat) (m : Mod) (q : Nat) : portOf (taken f o m) q = portOf m q := rfl
@[simp] theorem pageOf_taken (f : Frame) (o : Nat) (m : Mod) (k : Nat) : pageOf (taken f o m) k = pageOf m k := rfl
@[simp] theorem tierUse_taken (f : Frame) (o : Nat) (m : Mod) (p : Nat) (tc : Bool) : tierUse (taken f o m) p tc = tierUse m p tc := rfl
@[simp] theorem freeFrames_taken (f : Frame) (o : Nat) (m : Mod) (tc : Bool) : freeFrames (taken f o m) tc = freeFrames m tc := rfl
@[simp] theorem quotaOf_taken (f : Frame) (o : Nat) (m : Mod) (p : Nat) (tc : Bool) : quotaOf (taken f o m) p tc = quotaOf m p tc := rfl
@[simp] theorem inFill_taken (f : Frame) (o : Nat) (m : Mod) (k : Nat) : inFill (taken f o m) k = inFill m k := rfl
@[simp] theorem partOfTile_taken (f : Frame) (o : Nat) (m : Mod) (t : Nat) : partOfTile (taken f o m) t = partOfTile m t := rfl

/-! ## Partitions and ports -/

/-- Rebasing sources writes the last values and the values of a running pass alone (R534). -/
theorem rebaseSources_rest (g : Nat → Bool) (m : Mod) : ∃ x y, rebaseSources g m = { m with lasts := x, passVals := y } := by
  unfold rebaseSources
  generalize (liveSources m).filter g = l
  induction l using List.reverseRecOn with
  | nil => exact ⟨m.lasts, m.passVals, rfl⟩
  | append_singleton l k ih =>
    obtain ⟨x, y, h⟩ := ih
    rw [List.foldl_append, h]
    exact ⟨_, _, rfl⟩

/-- A change of one partition, whatever else of the module changes beside its partitions. -/
theorem partOf_of_parts {m m' : Mod} {p : Nat} {g : Part → Part} (h : m'.parts = (modPart p g m).parts) :
    partOf m' p = g (partOf m p) ∧ otherParts p m m' := by
  have he : ∀ r, partOf m' r = partOf (modPart p g m) r := fun r => by unfold partOf; rw [h]
  refine ⟨(he p).trans (partOf_modPart_self ..), fun r hr => ?_⟩
  rw [he r, partOf_modPart, if_neg hr.symm]

theorem partSet_carries {f : Frame} {s : State} (ha : accepts f 0x0101 s.m) (hf : plainOk f [(0, 7), (1, 0xFF)] = true) (hh : arg f 1 ≠ 0)
    (hr : (partOf s.m (argPart f)).rstate = .idle) (ho : ∀ r, r < 8 → r ≠ argPart f → (partOf s.m r).halves &&& arg f 1 = 0) :
    ∃ x y, Carries (.partSet f) f 0x0101 s [] []
      { s.m with parts := (modPart (argPart f) (fun x => { x with halves := arg f 1 }) s.m).parts, lasts := x, passVals := y } := by
  have hc : Carries (.partSet f) f 0x0101 s [] [] (rebaseSources (halfSources (arg f 1 &&& (0xFF ^^^ (partOf s.m (argPart f)).halves)))
      (modPart (argPart f) (fun x => { x with halves := arg f 1 }) (taken f 0x0101 s.m))) := by
    refine carries_done rfl ha (by dsimp only; rw [if_neg hh]; rfl) ?_
    simpa [hf, hr, hh] using fun r hr8 hne => ho r hr8 hne
  obtain ⟨x, y, hb⟩ := rebaseSources_rest (halfSources (arg f 1 &&& (0xFF ^^^ (partOf s.m (argPart f)).halves)))
    (modPart (argPart f) (fun x => { x with halves := arg f 1 }) (taken f 0x0101 s.m))
  exact ⟨x, y, hc.rest ⟨_, s.m.out, hb⟩⟩

theorem setQuota_carries {f : Frame} {s : State} (ha : accepts f 0x0103 s.m) (hf : plainOk f [(0, 7), (1, all32), (2, all32)] = true)
    (hb : tierUse s.m (argPart f) false ≤ arg f 1) (hc : tierUse s.m (argPart f) true ≤ arg f 2) (hb' : arg f 1 ≤ framesB) (hc' : arg f 2 ≤ framesC) :
    Carries (.setQuota f) f 0x0103 s [] []
      { s.m with parts := (modPart (argPart f) (fun x => { x with quotaB := arg f 1, quotaC := arg f 2 }) s.m).parts } := by
  refine (carries_done rfl ha rfl ?_).rest ⟨_, s.m.out, rfl⟩
  simp [hf, Nat.not_lt.mpr hb, Nat.not_lt.mpr hc, Nat.not_lt.mpr hb', Nat.not_lt.mpr hc']

/-- PART_PORTS at one port: what becomes of it (R432). -/
def assignedPort (p mask q : Nat) (x : Port) : Port :=
  if bit mask q then { x with part := p, assigned := true }
  else if x.assigned && x.part == p then { x with part := 0, assigned := false } else x

/-- PART_PORTS at one port of the module. -/
def assignPort (p mask : Nat) (m : Mod) (q : Nat) : Mod :=
  if bit mask q then modPort q (fun x => { x with part := p, assigned := true }) m
  else if (portOf m q).assigned && (portOf m q).part == p then modPort q (fun x => { x with part := 0, assigned := false }) m
  else m

theorem portOf_assignPort (p mask q j : Nat) (m : Mod) :
    portOf (assignPort p mask m q) j = if q = j then assignedPort p mask q (portOf m q) else portOf m j := by
  unfold assignPort assignedPort
  by_cases hj : q = j
  · subst hj
    rw [if_pos rfl]
    split_ifs <;> simp
  · rw [if_neg hj]
    split_ifs <;> simp [portOf_modPort, hj]

theorem portOf_assignPorts (p mask n q : Nat) (m : Mod) :
    portOf ((List.range n).foldl (assignPort p mask) m) q = if q < n then assignedPort p mask q (portOf m q) else portOf m q := by
  induction n with
  | zero => simp
  | succ n ih =>
    rw [List.range_succ, List.foldl_append, List.foldl_cons, List.foldl_nil, portOf_assignPort]
    by_cases hq : n = q
    · subst hq; simp [ih]
    · rw [if_neg hq, ih]
      exact if_congr (by omega) rfl rfl

theorem partPorts_carries {f : Frame} {s : State} (ha : accepts f 0x0102 s.m) (hf : plainOk f [(0, 7), (1, all32), (2, 0x7FFFF)] = true)
    (hj : jobRuns (partOf s.m (argPart f)) = false)
    (ho : ∀ q, q < 51 → bit (argPorts f 1) q = true → (portOf s.m q).assigned = true → (portOf s.m q).part = argPart f) :
    Carries (.partPorts f) f 0x0102 s [] [] ((List.range 51).foldl (assignPort (argPart f) (argPorts f 1)) (taken f 0x0102 s.m)) := by
  refine carries_done rfl ha rfl ?_
  simpa [hf, hj, portsWhere, maskBits, indices] using ho

/-! ## Windows -/

/-- What a frame whose reserved bits are zero has in a word with these named bits. -/
theorem arg_and_of_rsvOk {f : Frame} {named : List (Nat × Nat)} (h : rsvOk f named = true) {i mask : Nat} (hi : i < 16)
    (hm : named.find? (fun e => e.1 == i) = some (i, mask)) : arg f i &&& mask = arg f i := by
  have := List.all_eq_true.mp h i (List.mem_range.mpr hi)
  simpa [hm] using this

theorem arg_le_of_rsvOk {f : Frame} {named : List (Nat × Nat)} (h : rsvOk f named = true) {i mask : Nat} (hi : i < 16)
    (hm : named.find? (fun e => e.1 == i) = some (i, mask)) : arg f i ≤ mask := by
  rw [← arg_and_of_rsvOk h hi hm]; exact Nat.and_le_right

theorem rsvOk_of_plainOk {f : Frame} {named : List (Nat × Nat)} (h : plainOk f named = true) : rsvOk f named = true := by
  unfold plainOk at h; exact (Bool.and_eq_true _ _ ▸ h).1

theorem winTile_carries {f : Frame} {s : State} {t w : Nat} (ha : accepts f 0x0201 s.m)
    (hf : plainOk f [(0, 7), (1, 0x71FFF), (2, 0xFFFFF), (3, 0x1FFFFF), (4, 0x7FFFF)] = true) (ht : t = arg f 1 % 8192) (hw : w = arg f 1 / 65536)
    (ht' : t < 5120) (hp : partOfTile s.m t = some (argPart f)) (hb : arg f 2 % 128 = 0) (hl : arg f 3 % 128 = 0) (he : arg f 2 + arg f 3 ≤ 0x100000) :
    Carries (.winTile f) f 0x0201 s [] [] (modTd t (fun d => { d with wins := mset {} d.wins w {
      base := arg f 2, length := arg f 3, tag := arg f 4 % 65536, read := bit (arg f 4) 16, write := bit (arg f 4) 17, opened := bit (arg f 4) 18 } })
      (taken f 0x0201 s.m)) := by
  have htile : bits (arg f 1) 12 0 = t := ht ▸ rfl
  have hwin : bits (arg f 1) 18 16 = w := by
    have := arg_le_of_rsvOk (rsvOk_of_plainOk hf) (i := 1) (mask := 0x71FFF) (by decide) rfl
    rw [hw, bits, Nat.shiftRight_eq_div_pow]
    omega
  refine carries_done rfl ha (by dsimp only; rw [htile, hwin]; rfl) ?_
  simp [hf, hp, hb, hl, Nat.not_le.mpr ht', Nat.not_lt.mpr he]

theorem mem_pageRun {first n k : Nat} : k ∈ pageRun first n ↔ first ≤ k ∧ k < first + n := by
  simp only [pageRun, List.mem_map, List.mem_range]
  constructor
  · rintro ⟨i, hi, rfl⟩; omega
  · rintro ⟨h1, h2⟩; exact ⟨k - first, by omega, by omega⟩

/-- A test that no page of a run meets. -/
theorem any_pageRun_false {first n : Nat} {P : Nat → Bool} (h : ∀ k, first ≤ k → k < first + n → P k = false) : (pageRun first n).any P = false :=
  List.any_eq_false.mpr (fun k hk => by simp [h k (mem_pageRun.mp hk).1 (mem_pageRun.mp hk).2])

theorem badRun_false {first n : Nat} (h1 : 1 ≤ n) (h2 : first + n ≤ pageCount) : badRun first n = false := by
  simp only [badRun, Bool.or_eq_false_iff, beq_eq_false_iff_ne, decide_eq_false_iff_not]
  omega

theorem winDram_carries {f : Frame} {s : State} (ha : accepts f 0x0202 s.m)
    (hf : plainOk f [(0, 7), (1, 0x3F), (2, all32), (3, all32), (4, 0x7FFFF)] = true) (h1 : 1 ≤ arg f 3) (h2 : arg f 3 ≤ 524288)
    (h3 : arg f 2 + arg f 3 ≤ pageCount)
    (hk : ∀ k, arg f 2 ≤ k → k < arg f 2 + arg f 3 → isMapped (pageOf s.m k) = true ∧ (pageOf s.m k).part = argPart f) :
    Carries (.winDram f) f 0x0202 s [] [] { taken f 0x0202 s.m with dwins := mset {} s.m.dwins (arg f 1) {
      tag := arg f 4 % 65536, part := argPart f, first := arg f 2, countM1 := arg f 3 - 1
      read := bit (arg f 4) 16, write := bit (arg f 4) 17, opened := bit (arg f 4) 18 } } := by
  refine carries_done rfl ha rfl ?_
  have hrun : (pageRun (arg f 2) (arg f 3)).any (fun k => !isMapped (pageOf s.m k) || (pageOf s.m k).part != argPart f) = false :=
    any_pageRun_false (fun k h h' => by simp [hk k h h'])
  simp only [pageOf_taken, hrun, hf, badRun_false h1 h3]
  simp [Nat.not_lt.mpr h2]

/-! ## The power policy -/

theorem mem_maskBits {n v i : Nat} : i ∈ maskBits n v ↔ i < n ∧ bit v i = true := by simp [maskBits, indices]

theorem bit_foldl_or (l : List Nat) (a i : Nat) : bit (l.foldl (fun a i => a ||| (1 <<< i)) a) i = (bit a i || decide (i ∈ l)) := by
  induction l generalizing a with
  | nil => simp
  | cons j l ih =>
    rw [List.foldl_cons, ih]
    simp only [bit, Nat.testBit_or, Nat.one_shiftLeft, Nat.testBit_two_pow, Bool.or_assoc, List.mem_cons, Bool.decide_or, eq_comm]

theorem bit_maskOf (l : List Nat) (i : Nat) : bit (maskOf l) i = decide (i ∈ l) := by
  rw [maskOf, bit_foldl_or]; simp [bit]

/-- Writing one value at every key of a list. -/
theorem mget_foldl_mset {α : Type} [DecidableEq α] (d v : α) (l : List Nat) (m : SMap α) (k : Nat) :
    mget d (l.foldl (fun a h => mset d a h v) m) k = if k ∈ l then v else mget d m k := by
  induction l generalizing m with
  | nil => simp
  | cons j l ih =>
    rw [List.foldl_cons, ih, mget_mset]
    by_cases hl : k ∈ l
    · simp [hl]
    · simp [hl, eq_comm]

/-- The halves of the mask take the clock ceiling and the floor that POWER_SET names (R472). -/
theorem withPolicy_half (q : Policy) (mask : Nat) (slow : Bool) (pc ic fl : Nat) {h : Nat} (hh : h < 8) (hb : bit mask h = true) :
    bit (withPolicy q mask slow pc ic fl).clockCeil h = slow ∧ mget 0 (withPolicy q mask slow pc ic fl).floors h = fl / 4 := by
  constructor
  · simp [withPolicy, bit_maskOf, indices, hh, hb]
  · simp [withPolicy, mget_foldl_mset, mem_maskBits, hh, hb]

theorem powerSet_carries {f : Frame} {s : State} {q : Policy} (ha : accepts f 0x0501 s.m)
    (hf : plainOk f [(1, 0xFF), (2, 1), (3, all32), (4, all32), (5, all32)] = true) (h1 : arg f 1 ≠ 0)
    (h3 : 1000 ≤ arg f 3) (h3' : arg f 3 ≤ 6000) (h4 : 20 ≤ arg f 4) (h4' : arg f 4 ≤ 150) (h5 : arg f 5 ≤ 640) (h5' : arg f 5 % 4 = 0)
    (hq : q = withPolicy s.m.power.policy (arg f 1) (bit (arg f 2) 0) (arg f 3) (arg f 4) (arg f 5)) (hc : policyConflict q = false) :
    Carries (.powerSet f) f 0x0501 s [] [] { taken f 0x0501 s.m with power := { s.m.power with pending := some q, policyTick := policyStart s.m.tick } } := by
  subst hq
  refine carries_done rfl ha rfl ?_
  have hpol : (taken f 0x0501 s.m).power.policy = s.m.power.policy := rfl
  simp [hpol, hf, hc, h1, h5', Nat.not_lt.mpr h3, Nat.not_lt.mpr h3', Nat.not_lt.mpr h4, Nat.not_lt.mpr h4', Nat.not_lt.mpr h5]

/-! ## Unmapping -/

theorem pageOf_unmapPages (l : List Nat) (m : Mod) (k : Nat) : pageOf (unmapPages l m) k = if k ∈ l then {} else pageOf m k := by
  unfold unmapPages
  induction l generalizing m with
  | nil => simp
  | cons j l ih =>
    rw [List.foldl_cons, ih, pageOf_modPage]
    by_cases hl : k ∈ l
    · simp [hl]
    · simp [hl, eq_comm]

theorem unmapPages_dram (l : List Nat) (m : Mod) : (unmapPages l m).dram = m.dram := by
  unfold unmapPages
  induction l generalizing m with
  | nil => rfl
  | cons k l ih => exact ih (modPage k (fun _ => {}) m)

theorem unmap_carries {f : Frame} {s : State} (ha : accepts f 0x0106 s.m) (hf : plainOk f [(0, 7), (1, all32), (2, all32)] = true)
    (h1 : 1 ≤ arg f 2) (h2 : arg f 1 + arg f 2 ≤ pageCount) (hj : jobLive (partOf s.m (argPart f)) = false)
    (hk : ∀ k, arg f 1 ≤ k → k < arg f 1 + arg f 2 → inFill s.m k = false ∧ (pageOf s.m k).state ≠ .moving ∧ isMapped (pageOf s.m k) = true ∧
      (pageOf s.m k).part = argPart f) :
    Carries (.unmap f) f 0x0106 s [] [] (unmapPages (pageRun (arg f 1) (arg f 2)) (taken f 0x0106 s.m)) := by
  refine carries_done rfl ha rfl ?_
  have hbusy : (pageRun (arg f 1) (arg f 2)).any (pageBusy (taken f 0x0106 s.m)) = false :=
    any_pageRun_false (fun k h h' => by
      obtain ⟨hfill, hmove, -⟩ := hk k h h'
      simpa [pageBusy, hmove] using hfill)
  have hlive : (pageRun (arg f 1) (arg f 2)).any (fun k => isMapped (pageOf s.m k) && jobLive (partOf s.m (pageOf s.m k).part)) = false :=
    any_pageRun_false (fun k h h' => by simp [hk k h h', hj])
  have hown : (pageRun (arg f 1) (arg f 2)).any (fun k => !isMapped (pageOf s.m k) || (pageOf s.m k).part != argPart f) = false :=
    any_pageRun_false (fun k h h' => by simp [hk k h h'])
  simp only [pageOf_taken, partOf_taken, hbusy, hlive, hown, hf, badRun_false h1 h2]
  simp

/-! ## Free frames -/

theorem insertUp_eq (x : Nat) (l : List Nat) : insertUp x l = l.orderedInsert (· ≤ ·) x := by
  induction l with
  | nil => rfl
  | cons y r ih => simp only [insertUp, List.orderedInsert_cons, ih]

theorem sortUp_eq (l : List Nat) : sortUp l = l.insertionSort (· ≤ ·) := by
  induction l with
  | nil => rfl
  | cons x r ih => rw [List.insertionSort_cons, ← ih, ← insertUp_eq]; rfl

theorem sortUp_perm (l : List Nat) : (sortUp l).Perm l := by rw [sortUp_eq]; exact List.perm_insertionSort _ l
theorem sortUp_rising (l : List Nat) : (sortUp l).Pairwise (· ≤ ·) := by rw [sortUp_eq]; exact List.pairwise_insertionSort _ l
theorem insertUp_perm (x : Nat) (l : List Nat) : (insertUp x l).Perm (x :: l) := by rw [insertUp_eq]; exact List.perm_orderedInsert _ x l
theorem insertUp_rising (x : Nat) {l : List Nat} (h : l.Pairwise (· ≤ ·)) : (insertUp x l).Pairwise (· ≤ ·) := by
  rw [insertUp_eq]; exact h.orderedInsert x l

theorem le_kthFree (l : List Nat) (k : Nat) : k ≤ kthFree l k := by
  induction l generalizing k with
  | nil => exact Nat.le_refl k
  | cons u us ih =>
    unfold kthFree
    split
    · exact Nat.le_of_succ_le (ih (k + 1))
    · exact Nat.le_refl k

theorem kthFree_le (l : List Nat) (k : Nat) : kthFree l k ≤ k + l.length := by
  induction l generalizing k with
  | nil => exact Nat.le_refl k
  | cons u us ih =>
    have := ih (k + 1)
    simp only [kthFree, List.length_cons]
    split <;> omega

/-- The number that `kthFree` finds is not listed: it lies above each listed number it has passed, and below those it has not reached. -/
theorem kthFree_notMem {l : List Nat} (h : l.Pairwise (· ≤ ·)) (k : Nat) : kthFree l k ∉ l := by
  induction l generalizing k with
  | nil => exact List.not_mem_nil
  | cons u us ih =>
    obtain ⟨hu, hus⟩ := List.pairwise_cons.mp h
    unfold kthFree
    split
    next hk =>
      have := le_kthFree us (k + 1)
      exact List.not_mem_cons_of_ne_of_not_mem (by omega) (ih hus (k + 1))
    next hk =>
      refine List.not_mem_cons_of_ne_of_not_mem (by omega) (fun hm => ?_)
      have := hu k hm
      omega

/-- Taking frames changes the count of free values alone. -/
theorem takeFrames_rest (tc : Bool) (n : Nat) (used : List Nat) (m : Mod) : ∃ x, (takeFrames tc n used m).2 = { m with free := x } := by
  induction n generalizing used m with
  | zero => exact ⟨m.free, rfl⟩
  | succ n ih =>
    obtain ⟨x, hx⟩ := ih (insertUp (kthFree used (Config.frameChoice m.free % (framesOf tc - used.length))) used) (takeFree m).2
    exact ⟨x, hx⟩

/-- The frames taken are as many as asked for, distinct, of the tier, and none of those in use. -/
structure FreshFrames (tc : Bool) (n : Nat) (used fr : List Nat) : Prop where
  count : fr.length = n
  nodup : fr.Nodup
  inTier : ∀ x ∈ fr, x < framesOf tc
  unused : ∀ x ∈ fr, x ∉ used

theorem takeFrames_fresh {tc : Bool} {n : Nat} {used : List Nat} (m : Mod) (hs : used.Pairwise (· ≤ ·)) (hn : used.length + n ≤ framesOf tc) :
    FreshFrames tc n used (takeFrames tc n used m).1 := by
  induction n generalizing used m with
  | zero => exact ⟨rfl, List.nodup_nil, by simp [takeFrames], by simp [takeFrames]⟩
  | succ n ih =>
    let k := Config.frameChoice m.free % (framesOf tc - used.length)
    let x := kthFree used k
    have hp := insertUp_perm x used
    have hlen : (insertUp x used).length = used.length + 1 := hp.length_eq
    obtain ⟨hc, hd, ht, hu⟩ := ih (takeFree m).2 (insertUp_rising x hs) (by omega)
    have heq : (takeFrames tc (n + 1) used m).1 = x :: (takeFrames tc n (insertUp x used) (takeFree m).2).1 := rfl
    have hk : k < framesOf tc - used.length := Nat.mod_lt _ (by omega)
    have hx : x ≤ k + used.length := kthFree_le used k
    rw [heq]
    refine ⟨by simp [hc], List.nodup_cons.mpr ⟨fun hm => hu x hm (hp.mem_iff.mpr List.mem_cons_self), hd⟩, ?_, ?_⟩
    · exact List.forall_mem_cons.mpr ⟨by omega, ht⟩
    · exact List.forall_mem_cons.mpr ⟨kthFree_notMem hs k, fun y hy hmem => hu y hy (hp.mem_iff.mpr (List.mem_cons_of_mem _ hmem))⟩

/-- The frames that a placement command takes of a tier are free before. -/
theorem takeFrames_free {tc : Bool} {n : Nat} (m : Mod) (hn : n ≤ freeFrames m tc) (h0 : freeFrames m tc ≠ 0) :
    FreshFrames tc n (usedFrames m tc) (takeFrames tc n (sortUp (usedFrames m tc)) m).1 := by
  have hp := sortUp_perm (usedFrames m tc)
  have hlen := hp.length_eq
  unfold freeFrames at hn h0
  obtain ⟨hc, hd, ht, hu⟩ := takeFrames_fresh (tc := tc) (n := n) m (sortUp_rising (usedFrames m tc)) (by omega)
  exact ⟨hc, hd, ht, fun x hx hm => hu x hx (hp.mem_iff.mpr hm)⟩

/-- With fresh frames the frames in use stay distinct. -/
theorem FreshFrames.nodup_append {tc : Bool} {n : Nat} {used fr : List Nat} (h : FreshFrames tc n used fr) (hu : used.Nodup) : (fr ++ used).Nodup :=
  List.nodup_append.mpr ⟨h.nodup, hu, fun a ha _ hb hab => h.unused a ha (hab ▸ hb)⟩

/-! ## Mapping -/

theorem usedFrames_addFill (m : Mod) (x : Fill) : (usedFrames { m with fills := m.fills ++ [x] } x.tierC).Perm
    (x.pages.map (·.2) ++ usedFrames m x.tierC) := by
  simp only [usedFrames, List.flatMap_append, List.flatMap_cons, List.flatMap_nil, List.append_nil, beq_self_eq_true, if_true]
  refine List.perm_iff_count.mpr (fun y => ?_)
  simp only [List.count_append]
  omega

theorem tierUse_addFill (m : Mod) (x : Fill) : tierUse { m with fills := m.fills ++ [x] } x.part x.tierC = tierUse m x.part x.tierC + x.pages.length := by
  simp [tierUse, List.filter_append, List.foldl_append, Nat.add_assoc]

/-- The zero fill that an accepted MAP begins for its pages, with their frames (R276). -/
def mapFill (f : Frame) (fr : List Nat) : Fill :=
  { pages := (pageRun (arg f 1) (arg f 2)).zip fr, part := argPart f, tierC := bit (arg f 0) 8, seq := f.seq, report := true }

theorem map_carries {f : Frame} {s : State} (ha : accepts f 0x0104 s.m) (hf : plainOk f [(0, 0x107), (1, all32), (2, all32)] = true)
    (h1 : 1 ≤ arg f 2) (h2 : arg f 1 + arg f 2 ≤ pageCount)
    (hk : ∀ k, arg f 1 ≤ k → k < arg f 1 + arg f 2 → inFill s.m k = false ∧ (pageOf s.m k).state = .unmapped)
    (hq : tierUse s.m (argPart f) (bit (arg f 0) 8) + arg f 2 ≤ quotaOf s.m (argPart f) (bit (arg f 0) 8))
    (hn : arg f 2 ≤ freeFrames s.m (bit (arg f 0) 8)) :
    ∃ fr x, FreshFrames (bit (arg f 0) 8) (arg f 2) (usedFrames s.m (bit (arg f 0) 8)) fr ∧
      Carries (.map f) f 0x0104 s [] [] { s.m with free := x, fills := s.m.fills ++ [mapFill f fr] } := by
  have hfree := takeFrames_free (taken f 0x0104 s.m) hn (by rw [freeFrames_taken]; omega)
  obtain ⟨x, hx⟩ := takeFrames_rest (bit (arg f 0) 8) (arg f 2) (sortUp (usedFrames (taken f 0x0104 s.m) (bit (arg f 0) 8))) (taken f 0x0104 s.m)
  have hbusy : (pageRun (arg f 1) (arg f 2)).any (pageBusy (taken f 0x0104 s.m)) = false :=
    any_pageRun_false (fun k h h' => by simp [pageBusy, hk k h h'])
  have hmap : (pageRun (arg f 1) (arg f 2)).any (fun k => isMapped (pageOf s.m k)) = false :=
    any_pageRun_false (fun k h h' => by simp [isMapped, hk k h h'])
  refine ⟨_, x, hfree, ?_⟩
  refine Gives.mono (carries_done (l := _) rfl ha rfl ?_) ?_
  · simp only [hbusy, hmap, hf, badRun_false h1 h2, pageOf_taken, tierUse_taken, quotaOf_taken, freeFrames_taken]
    simp [Nat.not_lt.mpr hq, Nat.not_lt.mpr hn]
  · rintro m' ⟨hans, hm⟩
    rw [hx] at hm
    exact ⟨hans, hm⟩

theorem map_gives {f : Frame} {s : State} {tc : Bool} (htc : tc = bit (arg f 0) 8) (ha : accepts f 0x0104 s.m)
    (hf : plainOk f [(0, 0x107), (1, all32), (2, all32)] = true) (h1 : 1 ≤ arg f 2) (h2 : arg f 1 + arg f 2 ≤ pageCount)
    (hk : ∀ k, arg f 1 ≤ k → k < arg f 1 + arg f 2 → inFill s.m k = false ∧ (pageOf s.m k).state = .unmapped)
    (hq : tierUse s.m (argPart f) tc + arg f 2 ≤ quotaOf s.m (argPart f) tc) (hn : arg f 2 ≤ freeFrames s.m tc) :
    Gives (.map f) s (fun m' => answered f 0x0104 0 [] [] m' ∧ m'.dir = s.m.dir ∧ ∃ fr : List Nat, fr.length = arg f 2 ∧ fr.Nodup ∧
      (∀ x, x ∈ fr → x < framesOf tc ∧ x ∉ usedFrames s.m tc) ∧
      ((usedFrames s.m tc).Nodup → (usedFrames m' tc).Nodup) ∧ tierUse m' (argPart f) tc = tierUse s.m (argPart f) tc + arg f 2 ∧
      m'.fills = s.m.fills ++ [{ pages := (pageRun (arg f 1) (arg f 2)).zip fr, part := argPart f, tierC := tc, seq := f.seq, report := true }]) := by
  subst htc
  obtain ⟨fr, x, hfr, hc⟩ := map_carries ha hf h1 h2 hk hq hn
  have hlen : (pageRun (arg f 1) (arg f 2)).length = fr.length := by rw [hfr.count]; simp [pageRun]
  have hframes : (mapFill f fr).pages.map (·.2) = fr := List.map_snd_zip (Nat.le_of_eq hlen.symm)
  have hpages : (mapFill f fr).pages.length = arg f 2 := by
    rw [← hfr.count, ← congrArg List.length hframes, List.length_map]
  refine hc.gives (fun b u => ⟨rfl, fr, hfr.count, hfr.nodup, fun y hy => ⟨hfr.inTier y hy, hfr.unused y hy⟩, fun hu => ?_, ?_, rfl⟩)
  · have hp := usedFrames_addFill s.m (mapFill f fr)
    rw [hframes] at hp
    exact hp.nodup_iff.mpr (hfr.nodup_append hu)
  · exact (tierUse_addFill s.m (mapFill f fr)).trans (congrArg (tierUse s.m (argPart f) (bit (arg f 0) 8) + ·) hpages)

/-! ## Moving -/

/-- Below its lowest key a canonical map reads as the default. -/
theorem mget_of_lt_mwfFrom {α : Type} [DecidableEq α] {d : α} {lo k : Nat} {m : SMap α} (h : mwfFrom d lo m = true) (hk : k < lo) : mget d m k = d := by
  induction m generalizing lo with
  | nil => rfl
  | cons e r ih =>
    obtain ⟨j, v⟩ := e
    simp only [mwfFrom, Bool.and_eq_true, decide_eq_true_eq] at h
    obtain ⟨⟨hj, -⟩, hr⟩ := h
    rw [mget, if_neg (by omega), ih hr (by omega)]

/-- Replacing the value of a listed key of a canonical map: the one entry changes in its place. -/
theorem mput_split {α : Type} [DecidableEq α] {d : α} (v : α) {lo k : Nat} {m : SMap α} (h : mwfFrom d lo m = true) (hk : mget d m k ≠ d) :
    ∃ l r, m = l ++ (k, mget d m k) :: r ∧ mput k v m = l ++ (k, v) :: r := by
  induction m generalizing lo with
  | nil => exact absurd rfl hk
  | cons e t ih =>
    obtain ⟨j, w⟩ := e
    simp only [mwfFrom, Bool.and_eq_true, decide_eq_true_eq] at h
    obtain ⟨-, ht⟩ := h
    by_cases hj : j = k
    · subst hj
      exact ⟨[], t, by simp [mget], by simp [mput]⟩
    · have hkt : mget d ((j, w) :: t) k = mget d t k := by rw [mget, if_neg hj]
      rw [hkt] at hk ⊢
      have hjk : j < k := by
        by_contra hle
        exact hk (mget_of_lt_mwfFrom ht (by omega))
      obtain ⟨l, r, hm, hp⟩ := ih ht hk
      refine ⟨(j, w) :: l, r, by rw [List.cons_append, ← hm], ?_⟩
      rw [mput, if_neg (by omega), if_neg (by omega), hp]; rfl

/-- MOVE of one page to a frame of a tier (R278). -/
def moveTo (tc : Bool) (m : Mod) (x : Nat × Nat) : Mod := modPage x.1 (fun y => { y with state := .moving, toC := tc, dest := x.2 }) m

/-- A page that MOVE takes to a tier: mapped in the other one, and not moving. -/
structure Movable (tc : Bool) (x : Page) : Prop where
  mapped : isMapped x = true
  still : x.state ≠ .moving
  other : pageTierC x ≠ tc

theorem pageOf_moveTo (tc : Bool) (m : Mod) (x : Nat × Nat) (k : Nat) :
    pageOf (moveTo tc m x) k = if x.1 = k then { pageOf m k with state := .moving, toC := tc, dest := x.2 } else pageOf m k := by
  rw [moveTo, pageOf_modPage]
  split
  next h => rw [h]
  next => rfl

/-- The entry of a page that begins to move is replaced in its place. -/
theorem moveTo_split {tc : Bool} {m : Mod} {x : Nat × Nat} (hw : mwf {} m.dir = true) (hp : Movable tc (pageOf m x.1)) :
    ∃ l r, m.dir = l ++ (x.1, pageOf m x.1) :: r ∧
      (moveTo tc m x).dir = l ++ (x.1, { pageOf m x.1 with state := .moving, toC := tc, dest := x.2 }) :: r := by
  have hlisted : pageOf m x.1 ≠ {} := by
    intro he
    have := hp.mapped
    rw [he] at this
    exact absurd this (by decide)
  have hnew : ({ pageOf m x.1 with state := .moving, toC := tc, dest := x.2 } : Page) ≠ {} := by
    intro he
    exact absurd (congrArg Page.state he) (by simp)
  obtain ⟨l, r, hm, hput⟩ := mput_split { pageOf m x.1 with state := .moving, toC := tc, dest := x.2 } hw hlisted
  refine ⟨l, r, hm, ?_⟩
  rw [moveTo, modPage_dir, mmod, mset]
  exact (if_neg hnew).trans hput

/-- A page that begins to move keeps its frame in the tier it leaves, and takes its destination frame in the other. -/
theorem usedFrames_moveTo {tc : Bool} {m : Mod} {x : Nat × Nat} (hw : mwf {} m.dir = true) (hp : Movable tc (pageOf m x.1)) :
    (usedFrames (moveTo tc m x) tc).Perm (x.2 :: usedFrames m tc) := by
  obtain ⟨l, r, hm, hn⟩ := moveTo_split hw hp
  obtain ⟨hmap, hst, hot⟩ := hp
  have hbefore : (pageTierC (pageOf m x.1) == tc) = false := by simpa using hot
  have hfills : (moveTo tc m x).fills = m.fills := rfl
  have hrel : (moveTo tc m x).relFrames = m.relFrames := rfl
  refine List.perm_iff_count.mpr (fun y => ?_)
  simp only [usedFrames, hn, hm, hfills, hrel, List.filterMap_append, List.filterMap_cons, hbefore, Bool.and_false]
  simp [pageTierC, hst, isMapped, List.count_cons]
  omega

/-- It counts once more, in the tier it moves to, for the partition it belongs to. -/
theorem tierUse_moveTo {tc : Bool} {m : Mod} {x : Nat × Nat} (p : Nat) (hw : mwf {} m.dir = true) (hp : Movable tc (pageOf m x.1)) :
    tierUse (moveTo tc m x) p tc ≤ tierUse m p tc + 1 := by
  obtain ⟨l, r, hm, hn⟩ := moveTo_split hw hp
  have hfills : (moveTo tc m x).fills = m.fills := rfl
  simp only [tierUse, hn, hm, hfills, List.filter_append, List.length_append, List.filter_cons]
  simp only [apply_ite List.length, List.length_cons]
  split_ifs <;> omega

theorem mwf_moveTo {tc : Bool} {m : Mod} {x : Nat × Nat} (hw : mwf {} m.dir = true) : mwf {} (moveTo tc m x).dir = true := by
  rw [moveTo, modPage_dir]; exact mwf_mmod _ _ hw

theorem pageOf_moveAll_ne (tc : Bool) (l : List (Nat × Nat)) (m : Mod) {k : Nat} (hk : ∀ x ∈ l, x.1 ≠ k) : pageOf (l.foldl (moveTo tc) m) k = pageOf m k := by
  induction l generalizing m with
  | nil => rfl
  | cons x l ih =>
    obtain ⟨hx, hl⟩ := List.forall_mem_cons.mp hk
    rw [List.foldl_cons, ih _ hl, pageOf_moveTo, if_neg hx]

/-- Each page of a list without repetition moves to the frame beside it. -/
theorem pageOf_moveAll (tc : Bool) {l : List (Nat × Nat)} (m : Mod) (hl : (l.map (·.1)).Nodup) {x : Nat × Nat} (hx : x ∈ l) :
    pageOf (l.foldl (moveTo tc) m) x.1 = { pageOf m x.1 with state := .moving, toC := tc, dest := x.2 } := by
  induction l generalizing m with
  | nil => exact absurd hx List.not_mem_nil
  | cons y l ih =>
    obtain ⟨hy, hd⟩ := List.nodup_cons.mp hl
    have hyl : ∀ z ∈ l, z.1 ≠ y.1 := fun z hz he => hy (List.mem_map.mpr ⟨z, hz, he⟩)
    rw [List.foldl_cons]
    rcases List.mem_cons.mp hx with rfl | hx
    · rw [pageOf_moveAll_ne tc l _ hyl, pageOf_moveTo, if_pos rfl]
    · rw [ih _ hd hx, pageOf_moveTo, if_neg (hyl x hx).symm]

/-- Moving pages takes their destination frames, and counts no page more than once. -/
theorem moveAll_use {tc : Bool} {l : List (Nat × Nat)} {m : Mod} (p : Nat) (hw : mwf {} m.dir = true) (hl : (l.map (·.1)).Nodup)
    (hp : ∀ x ∈ l, Movable tc (pageOf m x.1)) :
    (usedFrames (l.foldl (moveTo tc) m) tc).Perm (l.map (·.2) ++ usedFrames m tc) ∧
      tierUse (l.foldl (moveTo tc) m) p tc ≤ tierUse m p tc + l.length := by
  induction l generalizing m with
  | nil => exact ⟨List.Perm.refl _, Nat.le_refl _⟩
  | cons x l ih =>
    obtain ⟨hx, hd⟩ := List.nodup_cons.mp hl
    obtain ⟨hpx, hpl⟩ := List.forall_mem_cons.mp hp
    have hpl' : ∀ y ∈ l, Movable tc (pageOf (moveTo tc m x) y.1) := fun y hy => by
      have hne : x.1 ≠ y.1 := fun he => hx (List.mem_map.mpr ⟨y, hy, he.symm⟩)
      rw [pageOf_moveTo, if_neg hne]; exact hpl y hy
    obtain ⟨hu, ht⟩ := ih (mwf_moveTo hw) hd hpl'
    have ht1 := tierUse_moveTo p hw hpx
    rw [List.foldl_cons]
    refine ⟨hu.trans ?_, by rw [List.length_cons]; omega⟩
    exact ((usedFrames_moveTo hw hpx).append_left _).trans List.perm_middle

/-! ## What a MOVE does after its answer -/

/-- The answer of the mailbox lies in the command that runs and the stored response. -/
theorem answerOf_congr {m n : Mod} (hr : n.box.running = m.box.running) (hs : n.box.stored = m.box.stored) : answerOf n = answerOf m := by
  unfold answerOf; rw [hr, hs]

/-- A host event changes the mailbox and what is sent; what the mailbox answers stands. -/
theorem hostEvent_rest (cl p sr d a : Nat) (m : Mod) :
    ∃ b u, hostEvent cl p sr d a m = { m with box := b, out := u } ∧ b.running = m.box.running ∧ b.stored = m.box.stored := by
  unfold hostEvent
  dsimp only
  split_ifs
  · exact ⟨m.box, _, rfl, rfl, rfl⟩
  · exact ⟨_, m.out, rfl, rfl, rfl⟩
  · exact ⟨_, m.out, rfl, rfl, rfl⟩

theorem moveGroupDone_rest (g : Nat) (m : Mod) :
    ∃ x b u, moveGroupDone g m = { m with mvGroups := x, box := b, out := u } ∧ b.running = m.box.running ∧ b.stored = m.box.stored := by
  unfold moveGroupDone
  split
  · exact ⟨m.mvGroups, m.box, m.out, rfl, rfl, rfl⟩
  · split
    · exact ⟨m.mvGroups, m.box, m.out, rfl, rfl, rfl⟩
    next x _ =>
      obtain ⟨b, u, he, hr, hs⟩ := hostEvent_rest 0x03 x.part 0x0105 x.seq.toNat 0 { m with mvGroups := m.mvGroups.filter (fun x => x.group != g) }
      exact ⟨_, b, u, he, hr, hs⟩

/-- The end of the group of a MOVE leaves the response that was handed over. -/
theorem respond_moveGroupDone {g : Nat} {r : Resp} {n m' : Mod} (h : m' = moveGroupDone g (respond r n)) :
    answerOf m' = some r ∧ ∃ w b u, m' = { n with mvGroups := w, box := b, out := u } := by
  obtain ⟨w, b, u, he, hr, hs⟩ := moveGroupDone_rest g (respond r n)
  rw [h, he]
  refine ⟨(answerOf_congr (m := respond r n) hr hs).trans (answerOf_respond r n), w, b, u, ?_⟩
  rw [respond_rest]

/-- A command of class B whose checks pass answers OK, and does then what is left of it. -/
theorem gives_of_checks_after {c : Instr} {f : Frame} {o : Nat} {run : Mod → Answer} {s : State} {l : List (Bool × Nat)} {m1 : Mod} {after : Mod → Mod}
    (hc : exec c s = execCommand f o false run s) (h : accepts f o s.m)
    (hr : run (taken f o s.m) = checked l (taken f o s.m) { done m1 with after := after }) (hl : ∀ e ∈ l, e.1 = false) :
    Gives c s (fun m' => m' = after (respond { opcode := o, seq := f.seq, status := 0, w := resultBlock [], data := [] } m1)) := by
  rw [checked_pass hl] at hr
  refine ⟨command f o false run s.m, ?_, ?_⟩
  · rw [hc]; unfold execCommand onModIf; rw [h.1]; rfl
  · rw [command_accepts h, hr]; rfl

theorem pageRun_nodup (first n : Nat) : (pageRun first n).Nodup :=
  List.nodup_range.map (fun _ _ h => Nat.add_left_cancel h)

theorem moveAll_dram (tc : Bool) (l : List (Nat × Nat)) (m : Mod) : (l.foldl (moveTo tc) m).dram = m.dram := by
  induction l generalizing m with
  | nil => rfl
  | cons x l ih => exact ih (moveTo tc m x)

/-- The pages of a MOVE that lie outside the named tier. -/
def movingPages (f : Frame) (m : Mod) : List Nat :=
  (pageRun (arg f 1) (arg f 2)).filter (fun k => pageTierC (pageOf m k) != bit (arg f 0) 8)

theorem mem_movingPages {f : Frame} {m : Mod} {k : Nat} :
    k ∈ movingPages f m ↔ (arg f 1 ≤ k ∧ k < arg f 1 + arg f 2) ∧ pageTierC (pageOf m k) ≠ bit (arg f 0) 8 := by
  rw [movingPages, List.mem_filter, mem_pageRun, bne_iff_ne]

theorem movingPages_length_le (f : Frame) (m : Mod) : (movingPages f m).length ≤ arg f 2 := by
  have h : (pageRun (arg f 1) (arg f 2)).length = arg f 2 := by simp [pageRun]
  exact h ▸ List.length_filter_le _ _

theorem movingPages_nodup (f : Frame) (m : Mod) : (movingPages f m).Nodup := (pageRun_nodup _ _).filter _

theorem move_gives {f : Frame} {s : State} (ha : accepts f 0x0105 s.m) (hf : plainOk f [(0, 0x107), (1, all32), (2, all32)] = true)
    (h1 : 1 ≤ arg f 2) (h2 : arg f 1 + arg f 2 ≤ pageCount)
    (hk : ∀ k, arg f 1 ≤ k → k < arg f 1 + arg f 2 → inFill s.m k = false ∧ (pageOf s.m k).state ≠ .moving)
    (ho : ∀ k, arg f 1 ≤ k → k < arg f 1 + arg f 2 → isMapped (pageOf s.m k) = true ∧ (pageOf s.m k).part = argPart f)
    (hq : tierUse s.m (argPart f) (bit (arg f 0) 8) + arg f 2 ≤ quotaOf s.m (argPart f) (bit (arg f 0) 8))
    (hn : arg f 2 ≤ freeFrames s.m (bit (arg f 0) 8)) :
    ∃ (fr : List Nat) (m0 : Mod), FreshFrames (bit (arg f 0) 8) (movingPages f s.m).length (usedFrames s.m (bit (arg f 0) 8)) fr ∧
      (∃ x b, m0 = { s.m with free := x, box := b }) ∧
      Gives (.move f) s (fun m' => answered f 0x0105 0 [] [] m' ∧ ∃ n v w b u,
        m' = { ((movingPages f s.m).zip fr).foldl (moveTo (bit (arg f 0) 8)) m0 with groupNo := n, moves := v, mvGroups := w, box := b, out := u }) := by
  have hlen := movingPages_length_le f s.m
  have hfree := takeFrames_free (taken f 0x0105 s.m) (Nat.le_trans hlen hn) (by rw [freeFrames_taken]; omega)
  obtain ⟨x, hx⟩ := takeFrames_rest (bit (arg f 0) 8) (movingPages f s.m).length (sortUp (usedFrames (taken f 0x0105 s.m) (bit (arg f 0) 8))) (taken f 0x0105 s.m)
  have hbusy : (pageRun (arg f 1) (arg f 2)).any (pageBusy (taken f 0x0105 s.m)) = false :=
    any_pageRun_false (fun k h h' => by simp [pageBusy, hk k h h'])
  have hown : (pageRun (arg f 1) (arg f 2)).any (fun k => !isMapped (pageOf s.m k) || (pageOf s.m k).part != argPart f) = false :=
    any_pageRun_false (fun k h h' => by simp [ho k h h'])
  refine ⟨_, _, hfree, ⟨x, _, hx⟩, ?_⟩
  refine Gives.mono (gives_of_checks_after (l := _) rfl ha rfl ?_) ?_
  · have hgo : (pageRun (arg f 1) (arg f 2)).filter (fun k => pageTierC (pageOf s.m k) != bit (arg f 0) 8) = movingPages f s.m := rfl
    simp only [hbusy, hown, hf, badRun_false h1 h2, pageOf_taken, tierUse_taken, quotaOf_taken, freeFrames_taken, hgo]
    simp
    omega
  · intro m' hm
    obtain ⟨hans, w, b, u, he⟩ := respond_moveGroupDone hm
    exact ⟨hans, _, _, w, b, u, he⟩

theorem move_keeps {f : Frame} {s : State} {tc : Bool} (htc : tc = bit (arg f 0) 8) (ha : accepts f 0x0105 s.m)
    (hf : plainOk f [(0, 0x107), (1, all32), (2, all32)] = true) (h1 : 1 ≤ arg f 2) (h2 : arg f 1 + arg f 2 ≤ pageCount)
    (hk : ∀ k, arg f 1 ≤ k → k < arg f 1 + arg f 2 → inFill s.m k = false ∧ (pageOf s.m k).state ≠ .moving)
    (ho : ∀ k, arg f 1 ≤ k → k < arg f 1 + arg f 2 → isMapped (pageOf s.m k) = true ∧ (pageOf s.m k).part = argPart f)
    (hq : tierUse s.m (argPart f) tc + arg f 2 ≤ quotaOf s.m (argPart f) tc) (hn : arg f 2 ≤ freeFrames s.m tc) :
    Gives (.move f) s (fun m' => answered f 0x0105 0 [] [] m' ∧ m'.dram = s.m.dram ∧
      (mwf {} s.m.dir = true → ((usedFrames s.m tc).Nodup → (usedFrames m' tc).Nodup) ∧ tierUse m' (argPart f) tc ≤ quotaOf s.m (argPart f) tc) ∧ ∀ k,
      if arg f 1 ≤ k ∧ k < arg f 1 + arg f 2 ∧ pageTierC (pageOf s.m k) ≠ tc then
        ∃ d, d < framesOf tc ∧ d ∉ usedFrames s.m tc ∧ pageOf m' k = { pageOf s.m k with state := .moving, toC := tc, dest := d }
      else pageOf m' k = pageOf s.m k) := by
  subst htc
  obtain ⟨fr, m0, hfr, ⟨x, bx, rfl⟩, hg⟩ := move_gives ha hf h1 h2 hk ho hq hn
  have hlen : (movingPages f s.m).length = fr.length := hfr.count.symm
  have hkeys : ((movingPages f s.m).zip fr).map (·.1) = movingPages f s.m := List.map_fst_zip (Nat.le_of_eq hlen)
  have hframes : ((movingPages f s.m).zip fr).map (·.2) = fr := List.map_snd_zip (Nat.le_of_eq hlen.symm)
  have hnodup : (((movingPages f s.m).zip fr).map (·.1)).Nodup := by
    rw [hkeys]; exact movingPages_nodup f s.m
  refine hg.mono ?_
  rintro m' ⟨hans, n, v, w, b, u, rfl⟩
  refine ⟨hans, moveAll_dram .., fun hw => ?_, fun k => ?_⟩
  · have hmov : ∀ y ∈ (movingPages f s.m).zip fr, Movable (bit (arg f 0) 8) (pageOf { s.m with free := x, box := bx } y.1) := fun y hy => by
      obtain ⟨⟨hlo, hhi⟩, hot⟩ := mem_movingPages.mp (List.of_mem_zip hy).1
      exact ⟨(ho y.1 hlo hhi).1, (hk y.1 hlo hhi).2, hot⟩
    obtain ⟨hused, huse⟩ := moveAll_use (m := { s.m with free := x, box := bx }) (argPart f) hw hnodup hmov
    rw [hframes] at hused
    refine ⟨fun hu => hused.nodup_iff.mpr (hfr.nodup_append hu), Nat.le_trans huse (Nat.le_trans (Nat.add_le_add_left ?_ _) hq)⟩
    rw [List.length_zip, ← hlen, Nat.min_self]
    exact movingPages_length_le f s.m
  · split
    next hin =>
      have hmem : k ∈ movingPages f s.m := mem_movingPages.mpr ⟨⟨hin.1, hin.2.1⟩, hin.2.2⟩
      obtain ⟨y, hy, rfl⟩ := List.mem_map.mp (hkeys.symm ▸ hmem)
      have hd : y.2 ∈ fr := (List.of_mem_zip hy).2
      exact ⟨y.2, hfr.inTier _ hd, hfr.unused _ hd, pageOf_moveAll _ _ hnodup hy⟩
    next hout =>
      refine pageOf_moveAll_ne _ _ _ (fun y hy hyk => hout ?_)
      obtain ⟨⟨hlo, hhi⟩, hot⟩ := mem_movingPages.mp (List.of_mem_zip hy).1
      rw [hyk] at hlo hhi hot
      exact ⟨hlo, hhi, hot⟩

/-! ## Gondola's turn at a channel -/

/-- Only stacks, free values, the mailbox and what is sent differ. -/
def BusOnly (m n : Mod) : Prop := ∃ k x b u, n = { m with stk := k, free := x, box := b, out := u }

theorem BusOnly.refl (m : Mod) : BusOnly m m := ⟨m.stk, m.free, m.box, m.out, rfl⟩
theorem BusOnly.trans {m n k : Mod} (h : BusOnly m n) (g : BusOnly n k) : BusOnly m k := by
  obtain ⟨_, _, _, _, rfl⟩ := h
  obtain ⟨_, _, _, _, rfl⟩ := g
  exact ⟨_, _, _, _, rfl⟩
theorem BusOnly.foldl {α : Type} {f : Mod → α → Mod} (hf : ∀ m a, BusOnly m (f m a)) (l : List α) (m : Mod) : BusOnly m (l.foldl f m) := by
  induction l generalizing m with
  | nil => exact BusOnly.refl m
  | cons a l ih => exact (hf m a).trans (ih (f m a))

theorem modStack_bus (n : Nat) (f : Stack → Stack) (m : Mod) : BusOnly m (modStack n f m) := ⟨_, m.free, m.box, m.out, rfl⟩
theorem modChan_bus (n ch : Nat) (f : Chan → Chan) (m : Mod) : BusOnly m (modChan n ch f m) := modStack_bus ..
theorem hostEvent_bus (c p q d a : Nat) (m : Mod) : BusOnly m (hostEvent c p q d a m) := by
  obtain ⟨b, u, he, -, -⟩ := hostEvent_rest c p q d a m
  exact ⟨m.stk, m.free, b, u, he⟩
theorem noteStarved_bus (n at_ limit : Nat) (l : List Req) (m : Mod) : BusOnly m (noteStarved n at_ limit l m) :=
  BusOnly.foldl (fun _ _ => (modStack_bus ..).trans (hostEvent_bus ..)) _ m
theorem lockAfter_bus (c : Chan) (rank : Nat) (locked : Bool) (m : Mod) : BusOnly m (lockAfter c rank locked m).2 := by
  unfold lockAfter
  split_ifs
  · exact BusOnly.refl m
  · exact ⟨m.stk, _, m.box, m.out, rfl⟩
  · exact BusOnly.refl m
theorem grantBurst_bus (n ch at_ due rank index arrived : Nat) (locked : Bool) (rest : List Req) (m : Mod) :
    BusOnly m (grantBurst n ch at_ due rank index arrived locked rest m) :=
  (noteStarved_bus ..).trans ((modStack_bus ..).trans ((lockAfter_bus ..).trans (modChan_bus ..)))

theorem chanOf_modChan (n ch : Nat) (f : Chan → Chan) (m : Mod) : chanOf (modChan n ch f m) n ch = f (chanOf m n ch) := by
  simp [chanOf, modChan, mget_mmod]

/-- What a request is for does not change as it loses a turn. -/
theorem loseReq_what (at_ : Nat) (r : Req) : (loseReq at_ r).what = r.what := by unfold loseReq; split <;> rfl

/-- After a grant the channel holds the requests that were left, each for what it was. -/
theorem grantBurst_reqs {n ch at_ due rank index arrived : Nat} {locked : Bool} {rest : List Req} {m : Mod} {y : Req}
    (h : y ∈ (chanOf (grantBurst n ch at_ due rank index arrived locked rest m) n ch).reqs) : ∃ x ∈ rest, y.what = x.what := by
  unfold grantBurst at h
  dsimp only at h
  rw [chanOf_modChan] at h
  obtain ⟨x, hx, rfl⟩ := List.mem_map.mp h
  refine ⟨x, hx, ?_⟩
  split_ifs
  · rfl
  · exact loseReq_what ..
  · rfl

theorem mem_of_nth? {α : Type} {l : List α} {k : Nat} {a : α} (h : nth? l k = some a) : a ∈ l := by
  induction l generalizing k with
  | nil => cases h
  | cons b l ih =>
    cases k with
    | zero => cases h; exact List.mem_cons_self
    | succ k => exact List.mem_cons_of_mem _ (ih h)

theorem mem_of_dropNth {α : Type} {l : List α} {k : Nat} {a : α} (h : a ∈ dropNth l k) : a ∈ l := by
  induction l generalizing k with
  | nil => exact h
  | cons b l ih =>
    cases k with
    | zero => exact List.mem_cons_of_mem _ h
    | succ k =>
      rcases List.mem_cons.mp h with rfl | h
      · exact List.mem_cons_self
      · exact List.mem_cons_of_mem _ (ih h)

/-- One step of the choice among the requests of a channel (R293). -/
def pickStep (a : Option (Nat × Req)) (x : Nat × Req) : Option (Nat × Req) :=
  match a with
  | none => some x
  | some y => if reqBefore x.2 y.2 then some x else some y

theorem pickReq_eq (l : List (Nat × Req)) : pickReq l = l.foldl pickStep none := rfl

theorem pickStep_eq {a : Option (Nat × Req)} {x z : Nat × Req} (h : pickStep a x = some z) : a = some z ∨ x = z := by
  unfold pickStep at h
  split at h
  · exact Or.inr (Option.some.inj h)
  · split at h
    · exact Or.inr (Option.some.inj h)
    · exact Or.inl h

theorem mem_of_pickReq {l : List (Nat × Req)} {x : Nat × Req} (h : pickReq l = some x) : x ∈ l := by
  have hfold : ∀ a, l.foldl pickStep a = some x → a = some x ∨ x ∈ l := by
    clear h
    induction l with
    | nil => exact fun a ha => Or.inl ha
    | cons z l ih =>
      intro a ha
      rcases ih _ ha with hz | hl
      · exact (pickStep_eq hz).imp_right (by rintro rfl; exact List.mem_cons_self)
      · exact Or.inr (List.mem_cons_of_mem _ hl)
  exact (hfold none h).resolve_left (fun hn => by cases hn)

/-- The requests of a channel that take part in its arbitration, each with its place (R293, R301). -/
def runningReqs (m : Mod) (c : Chan) : List (Nat × Req) :=
  (List.range c.reqs.length).filterMap (fun k => match nth? c.reqs k with
    | some r => if reqRuns m c r then some (k, r) else none
    | none => none)

theorem mem_runningReqs {m : Mod} {c : Chan} {x : Nat × Req} (hx : x ∈ runningReqs m c) : x.2 ∈ c.reqs := by
  obtain ⟨k, -, hk⟩ := List.mem_filterMap.mp hx
  split at hk
  next r hr =>
    split at hk
    · cases hk; exact mem_of_nth? hr
    · cases hk
  next => cases hk

/-- The request granted next is one of the channel. -/
theorem nextTurn_mem {m : Mod} {c : Chan} {t : Turn} (h : nextTurn m c = some t) : t.req ∈ c.reqs := by
  unfold nextTurn at h
  dsimp only at h
  split at h
  next k r hp =>
    cases h
    exact mem_runningReqs (m := m) (List.mem_of_mem_filter (mem_of_pickReq hp))
  next =>
    split at h
    · cases h
    · obtain ⟨y, hy, rfl⟩ := Option.map_eq_some_iff.mp h
      exact mem_runningReqs (m := m) (List.mem_of_mem_filter (mem_of_pickReq hy))

/-- Where a channel has only Gondola's own bursts, which the command itself reads or writes, its turns change nothing beside the stacks. -/
theorem giveTurns_bus (n ch : Nat) (p : Req → Bool) (fuel : Nat) (m : Mod) (h : ∀ r ∈ (chanOf m n ch).reqs, r.what = .gondolaData) :
    BusOnly m (giveTurns n ch p fuel m) := by
  induction fuel generalizing m with
  | zero => exact BusOnly.refl m
  | succ fuel ih =>
    unfold giveTurns
    dsimp only
    split
    · exact BusOnly.refl m
    · split
      · exact BusOnly.refl m
      next t ht =>
        have hg : giveTurn n ch t m =
            grantBurst n ch t.at_ t.due t.req.rank t.req.index t.req.arrived t.locked (dropNth (chanOf m n ch).reqs t.k) m := by
          unfold giveTurn serveReq
          rw [h t.req (nextTurn_mem ht)]
        rw [hg]
        refine (grantBurst_bus ..).trans (ih _ (fun y hy => ?_))
        obtain ⟨x, hx, hyx⟩ := grantBurst_reqs hy
        rw [hyx]
        exact h x (mem_of_dropNth hx)

theorem giveTurns_idle {n ch : Nat} {m : Mod} (h : (chanOf m n ch).reqs = []) (p : Req → Bool) (fuel : Nat) : giveTurns n ch p fuel m = m := by
  cases fuel with
  | zero => rfl
  | succ fuel => simp [giveTurns, h]

/-- At an idle channel a burst of Gondola's takes its turn at once. -/
theorem gondolaTurn_bus {b : Nat} {m : Mod} (h : (chanOf m (burstStack b) (burstChan b)).reqs = []) : BusOnly m (gondolaTurn b m) := by
  unfold gondolaTurn
  dsimp only
  rw [giveTurns_idle h]
  refine BusOnly.trans (modChan_bus ..) (giveTurns_bus _ _ _ _ _ (fun r hr => ?_))
  simp only [chanOf_modChan, h, List.nil_append] at hr
  rw [List.mem_singleton.mp hr]

/-! ## Words of a burst -/

theorem nth_eq_getD {α : Type} (d : α) (l : List α) (i : Nat) : nth d l i = l.getD i d := by
  induction l generalizing i with
  | nil => rfl
  | cons a l ih =>
    cases i with
    | zero => rfl
    | succ i => exact ih i

theorem leBytes_length (n v : Nat) : (leBytes n v).length = n := by
  induction n generalizing v with
  | zero => rfl
  | succ n ih => simp [leBytes, ih]

theorem leNat_leBytes (n v : Nat) : leNat (leBytes n v) = v % 256 ^ n := by
  induction n generalizing v with
  | zero => simp [leBytes, leNat, Nat.mod_one]
  | succ n ih =>
    have hp : 256 ^ (n + 1) = 256 * 256 ^ n := Nat.pow_succ'
    rw [leBytes, leNat, ih, BitVec.toNat_ofNat, hp, Nat.mod_mul]

theorem wordsBytes_length (ws : List W32) : (wordsBytes ws).length = 4 * ws.length := by
  induction ws with
  | nil => rfl
  | cons w ws ih => rw [wordsBytes, List.length_append, leBytes_length, ih, List.length_cons]; omega

/-- Byte k of word i of the bytes of words. -/
theorem nth_wordsBytes (ws : List W32) (i : Nat) {k : Nat} (hi : i < ws.length) (hk : k < 4) :
    nth 0 (wordsBytes ws) (4 * i + k) = nth 0 (leBytes 4 (nth 0 ws i).toNat) k := by
  simp only [nth_eq_getD]
  induction ws generalizing i with
  | nil => simp at hi
  | cons w ws ih =>
    have hl := leBytes_length 4 w.toNat
    cases i with
    | zero => rw [wordsBytes, List.getD_append _ _ _ _ (by omega), Nat.mul_zero, Nat.zero_add]; rfl
    | succ i =>
      rw [wordsBytes, List.getD_append_right _ _ _ _ (by omega), List.getD_cons_succ, hl, ← ih i (by simpa using hi)]
      congr 1
      omega

/-- A word covered whole is replaced. -/
theorem mergeWord_wordsBytes (old : W32) (ws : List W32) {off i : Nat} (ho : off % 4 = 0) (hi : i < ws.length) :
    mergeWord old (i + off / 4) off (wordsBytes ws) = nth 0 ws i := by
  have hbyte : ∀ k < 4, (if (decide (off ≤ 4 * (i + off / 4) + k) && decide (4 * (i + off / 4) + k < off + (wordsBytes ws).length)) = true then
      nth 0 (wordsBytes ws) (4 * (i + off / 4) + k - off) else nth 0 (leBytes 4 old.toNat) k) = nth 0 (leBytes 4 (nth 0 ws i).toNat) k := by
    intro k hk
    have hlen := wordsBytes_length ws
    rw [if_pos (by simp only [Bool.and_eq_true, decide_eq_true_eq]; omega), ← nth_wordsBytes ws i hi hk]
    congr 1
    omega
  have hrange : (List.range 4).map (fun k => nth 0 (leBytes 4 (nth 0 ws i).toNat) k) = leBytes 4 (nth 0 ws i).toNat := rfl
  unfold mergeWord
  dsimp only
  rw [List.map_congr_left (fun k hk => hbyte k (List.mem_range.mp hk)), hrange, leNat_leBytes]
  apply BitVec.eq_of_toNat_eq
  rw [BitVec.toNat_ofNat]
  have := (nth 0 ws i).isLt
  omega

/-- Writing whole words to a burst writes those words of DRAM and no other. -/
theorem writeBurst_words {b off : Nat} {ws : List W32} (m : Mod) (hw : ws ≠ []) (ho : off % 4 = 0) (w : Nat) :
    mget 0 (writeBurst b off (wordsBytes ws) m).2.dram w =
      if 64 * b + off / 4 ≤ w ∧ w < 64 * b + off / 4 + ws.length then nth 0 ws (w - (64 * b + off / 4)) else mget 0 m.dram w := by
  have hlen := wordsBytes_length ws
  have hpos : 0 < ws.length := List.length_pos_iff.mpr hw
  have hcount : (off + (wordsBytes ws).length - 1) / 4 + 1 - off / 4 = ws.length := by omega
  have hne : (wordsBytes ws).isEmpty = false := by
    rw [List.isEmpty_eq_false_iff, ← List.length_pos_iff]; omega
  unfold writeBurst
  rw [hne]
  simp only [Bool.false_eq_true, if_false, noteUEs_dram, countFix_dram, hcount, mget_msets]
  simp only [List.length_map, List.length_zip, List.length_range, mgets, Nat.min_self]
  split
  next h =>
    have hi : w - (64 * b + off / 4) < ws.length := by omega
    rw [List.getD_eq_getElem _ _ (by simpa [mgets] using hi)]
    simp only [List.getElem_map, List.getElem_zip, List.getElem_range]
    exact mergeWord_wordsBytes _ ws ho hi
  next => rfl

/-! ## MEM_WRITE -/

/-- The one piece of an access that stays within a burst. -/
def hostPiece (a n : Nat) : Piece := { addr := a, len := n, off := 0, st := .unsent, data := [], err := 0, banked := false }

/-- An access within one burst is one piece. -/
theorem memPieces_single {a n : Nat} (hn : n ≠ 0) (hb : a % 256 + n ≤ 256) :
    memPieces a n = [hostPiece a n] := by
  have hmin : Nat.min (256 - a % 256) n = n := Nat.min_eq_right (by omega)
  have hrest : ∀ f x y, splitPieces f x 0 y = [] := fun f x y => by cases f <;> rfl
  unfold memPieces
  rw [splitPieces, if_neg hn, hmin]
  dsimp only
  rw [Nat.sub_self, hrest]
  rfl

/-- An access within one burst lies in one page. -/
theorem pagesOfBytes_single {a n : Nat} (hn : n ≠ 0) (hb : a % 256 + n ≤ 256) : pagesOfBytes a n = [a / 0x200000] := by
  have hlast : (a + n - 1) / 0x200000 = a / 0x200000 := by omega
  have hone : a / 0x200000 + 1 - a / 0x200000 = 1 := by omega
  rw [pagesOfBytes, hlast, hone]
  rfl

/-- Words that the host writes within one burst, at a channel that is idle, to a page that is no step record and not forwarded, are the words
of DRAM then, and no other changes (R433). -/
theorem memWritePiece_words {m : Mod} {a b : Nat} {ws : List W32} (hw : ws ≠ []) (ha : a % 4 = 0)
    (hb : b = pageBurst m (a / 0x200000) (a % 0x200000 / 256)) (hc : (chanOf m (burstStack b) (burstChan b)).reqs = []) (hf : forwardTo m b = none)
    (hr : recordShard m (a / 0x200000) (a % 0x200000 / 256) = none) (w : Nat) :
    mget 0 (memWritePiece (wordsBytes ws) m (hostPiece a (4 * ws.length))).dram w =
      if 64 * b + a % 256 / 4 ≤ w ∧ w < 64 * b + a % 256 / 4 + ws.length then nth 0 ws (w - (64 * b + a % 256 / 4)) else mget 0 m.dram w := by
  obtain ⟨k, y, bx, u, hg⟩ := gondolaTurn_bus hc
  have hbytes : ((wordsBytes ws).drop 0).take (4 * ws.length) = wordsBytes ws := by
    rw [List.drop_zero, ← wordsBytes_length, List.take_length]
  have hrec : recordShard (gondolaTurn b m) (a / 0x200000) (a % 0x200000 / 256) = none := by rw [hg]; exact hr
  have hfwd : ∀ off, forwardTo (gondolaTurn b m) b = none → writeBoth b off (wordsBytes ws) (gondolaTurn b m) = writeBurst b off (wordsBytes ws) (gondolaTurn b m) :=
    fun off h => by rw [writeBoth, h]
  have hdram : (gondolaTurn b m).dram = m.dram := by rw [hg]
  unfold memWritePiece hostPiece
  dsimp only
  rw [← hb, hbytes, serveWrite, hrec]
  dsimp only
  rw [hfwd _ (by rw [hg]; exact hf), writeBurst_words _ hw (by omega), hdram]

theorem memWrite_carries {f : Frame} {s : State} {a : Nat} {ws : List W32} (ha : accepts f 0x0108 s.m)
    (hf : rsvOk f [(0, 7), (1, all32), (2, 0xFFFF), (3, all32)] = true) (haddr : a = arg48 f 1) (hlen : arg f 3 = 4 * ws.length) (hw : ws ≠ [])
    (hd : f.data = wordsBytes ws) (ha4 : a % 4 = 0) (hb : a % 256 + 4 * ws.length ≤ 256) (he : a + 4 * ws.length ≤ dramEnd)
    (hmap : isMapped (pageOf s.m (a / 0x200000)) = true) (hpart : (pageOf s.m (a / 0x200000)).part = argPart f) :
    Carries (.memWrite f) f 0x0108 s [] [] (memWritePiece (wordsBytes ws) (taken f 0x0108 s.m) (hostPiece a (4 * ws.length))) := by
  have hpos : 0 < ws.length := List.length_pos_iff.mpr hw
  have hpages := pagesOfBytes_single (a := a) (n := 4 * ws.length) (by omega) hb
  have hpieces := memPieces_single (a := a) (n := 4 * ws.length) (by omega) hb
  have hbytes : f.data.length = 4 * ws.length := by rw [hd, wordsBytes_length]
  rw [← hd]
  have hgo := carries_of_checks (c := .memWrite f) (s := s) (l := _) (a := _) rfl ha rfl ?_ rfl rfl rfl rfl
  · simp only [← haddr, hlen, hpieces, List.foldl_cons, List.foldl_nil] at hgo
    exact hgo
  · simp only [memChecks, ← haddr, hlen, hpages, hbytes, hf, List.any_cons, List.any_nil, pageOf_taken, hmap, hpart, ha4]
    simp
    exact ⟨⟨hw, by omega⟩, he⟩

/-! ## What reading due beats leaves of the tiles -/

/-- Two tile data agree on the scratchpad and on the writes last seen of its words. -/
structure PadSame (d e : TileData) : Prop where
  scratch : e.scratch = d.scratch
  last : e.spLast = d.spLast

theorem PadSame.refl (d : TileData) : PadSame d d := ⟨rfl, rfl⟩
theorem PadSame.trans {d e f : TileData} (h : PadSame d e) (g : PadSame e f) : PadSame d f := ⟨g.1.trans h.1, g.2.trans h.2⟩

theorem PadSame.foldl {α : Type} {f : TileData → α → TileData} (hf : ∀ d a, PadSame d (f d a)) (l : List α) (d : TileData) :
    PadSame d (l.foldl f d) := by
  induction l generalizing d with
  | nil => exact PadSame.refl d
  | cons a l ih => exact (hf d a).trans (ih (f d a))

theorem addCtr_pad (k n : Nat) (d : TileData) : PadSame d (addCtr k n d) := by constructor <;> simp
theorem countWait_pad (c : Nat) (d : TileData) : PadSame d (countWait c d) := by
  unfold countWait
  split
  · exact (addCtr_pad _ _ d).trans ((addCtr_pad _ _ _).trans ⟨rfl, rfl⟩)
  · exact PadSame.refl d
theorem countIdle_pad (c : Nat) (d : TileData) : PadSame d (countIdle c d) := by
  unfold countIdle
  split
  · exact addCtr_pad ..
  · exact PadSame.refl d
theorem recordTrap_pad (pc sl ca i cy : Nat) (a : BitVec 48 × Nat) (d : TileData) : PadSame d (recordTrap pc sl ca i cy a d) := by
  unfold recordTrap
  split
  · exact ⟨rfl, rfl⟩
  · exact (countIdle_pad cy d).trans ((countWait_pad cy _).trans ⟨rfl, rfl⟩)
theorem spRecord_pad (c port : Nat) (l : List Nat) (d : TileData) : PadSame d (spRecord c port l d) := by
  unfold spRecord
  refine PadSame.foldl ?_ l d
  intro d a
  exact ⟨rfl, rfl⟩
theorem wgbExport_pad (b : Nat) (d : TileData) : PadSame d (wgbExport b d).2 := by
  unfold wgbExport
  constructor <;> (dsimp only; split_ifs <;> rfl)
theorem readBeat_pad (s : BeatSrc) (c : Nat) (b d : TileData) : PadSame d (readBeat s c b d).2.2 := by
  unfold readBeat
  split
  · exact PadSame.refl d
  · exact wgbExport_pad ..
  · exact PadSame.refl d

/-- Beside one tile no tile has changed, that tile holds the scratchpad it held, and no bundle has begun there. -/
structure PadKept (t : Nat) (m n : Mod) : Prop where
  others : ∀ u, u ≠ t → tileOf n u = tileOf m u
  pad : PadSame (tdOf m t) (tdOf n t)
  idle : (tileOf m t).bundle = none → (tileOf n t).bundle = none

theorem PadKept.of_tiles {t : Nat} {m n : Mod} (h : n.tiles = m.tiles) : PadKept t m n := by
  have he : ∀ u, tileOf n u = tileOf m u := fun u => by unfold tileOf; rw [h]
  refine ⟨fun u _ => he u, ?_, fun hb => (he t).symm ▸ hb⟩
  unfold tdOf
  rw [he t]
  exact PadSame.refl _
theorem PadKept.refl (t : Nat) (m : Mod) : PadKept t m m := PadKept.of_tiles rfl
theorem PadKept.trans {t : Nat} {m n k : Mod} (h : PadKept t m n) (g : PadKept t n k) : PadKept t m k :=
  ⟨fun u hu => (g.others u hu).trans (h.others u hu), h.pad.trans g.pad, fun hb => g.idle (h.idle hb)⟩
theorem PadKept.foldl {α : Type} {t : Nat} {f : Mod → α → Mod} (hf : ∀ m a, PadKept t m (f m a)) (l : List α) (m : Mod) :
    PadKept t m (l.foldl f m) := by
  induction l generalizing m with
  | nil => exact PadKept.refl t m
  | cons a l ih => exact (hf m a).trans (ih (f m a))
theorem PadKept.ite {t : Nat} {c : Prop} [Decidable c] {m a b : Mod} (ha : PadKept t m a) (hb : PadKept t m b) : PadKept t m (if c then a else b) := by
  split
  · exact ha
  · exact hb
theorem PadKept.modTd {t : Nat} {f : TileData → TileData} (hf : ∀ d, PadSame d (f d)) (m : Mod) : PadKept t m (modTd t f m) := by
  refine ⟨fun u hu => ?_, ?_, fun hb => ?_⟩
  · rw [tileOf_modTd, if_neg hu.symm]
  · rw [tdOf_modTd_self]; exact hf _
  · rw [tileOf_modTd, if_pos rfl, hb]; rfl
theorem signalTile_padKept (t u c d : Nat) (a : BitVec 48 × Nat) (m : Mod) : PadKept t m (signalTile u c d a m) := by
  unfold signalTile
  split
  · exact PadKept.of_tiles rfl
  · exact PadKept.refl t m

theorem leaveWait_tiles (t c : Nat) (m : Mod) : (leaveWait t c m).tiles = m.tiles := by
  unfold leaveWait
  dsimp only
  split
  · split <;> rfl
  · split <;> rfl
  · rfl
  · rfl
theorem trapTile_padKept (t pc sl ca i cy : Nat) (bk q : Bool) (m : Mod) : PadKept t m (trapTile t pc sl ca i cy bk q m) := by
  have htile : ∀ (n : Mod) (a : BitVec 48 × Nat) (c : Bool), PadKept t n (modTile t (fun x =>
      { d := recordTrap pc sl ca i cy a x.d, bundle := if c then x.bundle else none }) n) := fun n a c => by
    refine ⟨fun u hu => ?_, ?_, fun hb => ?_⟩
    · rw [tileOf_modTile, if_neg hu.symm]
    · rw [tdOf_modTile_self]; exact recordTrap_pad ..
    · rw [tileOf_modTile_self, hb]; split <;> rfl
  unfold trapTile
  dsimp only
  split
  · exact PadKept.refl t m
  · split
    · exact (PadKept.of_tiles (leaveWait_tiles ..)).trans (htile ..)
    · exact (PadKept.of_tiles (leaveWait_tiles ..)).trans ((htile ..).trans (signalTile_padKept ..))
theorem takeDue_padKept (t : Nat) (m : Mod) (x : DueTrap) : PadKept t m (takeDue t m x) :=
  (PadKept.modTd (fun _ => spRecord_pad ..) m).trans (trapTile_padKept ..)
theorem dueTraps_padKept (t c : Nat) (m : Mod) : PadKept t m (dueTraps t c m) := by
  unfold dueTraps
  refine PadKept.trans ?_ (PadKept.foldl (fun n x => takeDue_padKept t n x) _ _)
  refine PadKept.modTd (fun d => ?_) m
  exact ⟨rfl, rfl⟩
/-- On a tile without a bundle the traps that are due keep the scratchpad. -/
theorem interrupt_padKept {t : Nat} {m : Mod} (hb : (tileOf m t).bundle = none) (c : Nat) : PadKept t m (interrupt t c m) := by
  unfold interrupt
  split
  · exact PadKept.refl t m
  next x hx =>
    have hcut : cutBundle t x.cycle m = m := by simp only [cutBundle, hb]
    rw [hcut]
    exact dueTraps_padKept t c m

theorem countQuant_pad (c job src addr size : Nat) (l : List QElem) (d : TileData) : PadSame d (countQuant c job src addr size l d) := ⟨rfl, rfl⟩
theorem noteRead_padKept (p t id : Nat) (src : BeatSrc) (c : Nat) (base : TileData) (m : Mod) : PadKept t m (noteRead p t id src c base m) := by
  refine PadKept.trans (n := modTd t (fun d => { (readBeat src c base d).2.2 with beatsOut := ((readBeat src c base d).2.2.beatsOut + 1) % 2 ^ 64 }) m)
    (PadKept.modTd (fun d => (readBeat_pad src c base d).trans ?_) m) (PadKept.of_tiles rfl)
  exact ⟨rfl, rfl⟩
theorem forwardCopy_padKept (p t : Nat) (ws : List W32) (b : Beat) (m : Mod) : PadKept t m (forwardCopy p t ws b m) := by
  unfold forwardCopy
  split
  · refine PadKept.trans ?_ (PadKept.ite (PadKept.refl t _) (PadKept.of_tiles rfl))
    refine PadKept.ite (PadKept.trans ?_ (signalTile_padKept ..)) ?_ <;> exact PadKept.modTd (fun d => countQuant_pad ..) m
  · exact PadKept.ite (PadKept.refl t m) (PadKept.of_tiles rfl)
theorem readNext_padKept (p t c : Nat) (base : TileData) (m : Mod) : PadKept t m (readNext p t c base m) := by
  unfold readNext
  dsimp only
  split
  · exact PadKept.refl t m
  next b hb =>
    have hread : ∀ ws l, PadKept t m (forwardAll p t ws l (noteRead p t b.id b.src b.readAt base m)) := fun ws l =>
      (noteRead_padKept ..).trans (PadKept.foldl (fun n x => forwardCopy_padKept p t ws x n) l _)
    split
    · exact hread _ _
    · refine (hread _ _).trans (PadKept.modTd (fun d => ?_) _)
      exact ⟨rfl, rfl⟩
theorem readBeats_padKept (t c : Nat) (base : TileData) (m : Mod) : PadKept t m (readBeats t c base m) := by
  unfold readBeats
  split
  · exact PadKept.refl t m
  · exact PadKept.foldl (fun n _ => readNext_padKept ..) _ m
/-- Reading the beats that are due, with the traps that come of it, keeps the scratchpad and every other tile. -/
theorem readBeatsNow_padKept {t : Nat} {m : Mod} (hb : (tileOf m t).bundle = none) (c : Nat) : PadKept t m (readBeatsNow t c m) := by
  have hr := readBeats_padKept t c (tdOf m t) m
  exact hr.trans (interrupt_padKept (hr.idle hb) _)

/-! ## Words that land -/

theorem spWord_spLand (c a x : Nat) (v : W32) (d : TileData) :
    spWord (spLand rankDW c a v d) x = if x / 4 = a / 4 ∧ spYields d rankDW c x = false then v else spWord d x := by
  have hy : x / 4 = a / 4 → spYields d rankDW c x = spYields d rankDW c a := fun h => by unfold spYields; rw [h]
  by_cases hx : x / 4 = a / 4
  · unfold spLand
    cases h : spYields d rankDW c a with
    | true => rw [if_pos rfl, if_neg (by rw [hy hx, h]; simp)]
    | false => 
      rw [if_neg (by simp), if_pos ⟨hx, by rw [hy hx, h]⟩]
      simp [spWord, spPut, hx]
  · rw [if_neg (fun h => hx h.1)]
    unfold spLand
    split
    · rfl
    · simp [spWord, spPut, mget_mset, Ne.symm hx]

theorem spYields_spLand_ne {c a x rank : Nat} {v : W32} {d : TileData} (h : x / 4 ≠ a / 4) :
    spYields (spLand rank c a v d) rank c x = spYields d rank c x := by
  unfold spLand
  split
  · rfl
  · simp [spYields, mget_mset, Ne.symm h]

/-- What the words of a scratchpad are after words have landed through DW. -/
theorem spWord_spLands (c a w : Nat) (l : List W32) (d : TileData) (ha : a % 4 = 0) :
    spWord (spLands rankDW c a l d) (4 * w) =
      if a / 4 ≤ w ∧ w < a / 4 + l.length ∧ spYields d rankDW c (4 * w) = false then nth 0 l (w - a / 4) else spWord d (4 * w) := by
  induction l generalizing a d with
  | nil => rw [if_neg (by simp; omega)]; rfl
  | cons v l ih =>
    have hdiv : 4 * w / 4 = w := by omega
    have hnext : (a + 4) / 4 = a / 4 + 1 := by omega
    rw [spLands, ih _ _ (by omega), spWord_spLand, hdiv, hnext, List.length_cons]
    by_cases hw : w = a / 4
    · rw [if_neg (by omega), hw, Nat.sub_self]
      simp [nth]
    · rw [spYields_spLand_ne (by rw [hdiv]; exact hw), if_neg (c := w = a / 4 ∧ _) (fun h => hw h.1)]
      by_cases hin : a / 4 + 1 ≤ w
      · have hsub : w - a / 4 = (w - (a / 4 + 1)) + 1 := by omega
        rw [hsub]
        refine if_congr ⟨?_, ?_⟩ rfl rfl <;> exact fun ⟨_, h2, h3⟩ => ⟨by omega, by omega, h3⟩
      · rw [if_neg (by omega), if_neg (by omega)]

/-! ## Writes of the host to tiles and registers -/

section
variable {t o : Nat} (ht : t < 5120) (ho : o < 0x200000)
include ht ho

theorem inTileSpace_tile : inTileSpace (tileBase + 0x200000 * t + o) = true := by
  simp only [inTileSpace, tileBase, tileEnd, Bool.and_eq_true, decide_eq_true_eq]
  omega
theorem addrTile_tile : addrTile (tileBase + 0x200000 * t + o) = t := by
  simp only [addrTile, tileBase]
  omega
theorem addrOffset_tile : addrOffset (tileBase + 0x200000 * t + o) = o := by
  simp only [addrOffset, tileBase]
  omega
theorem regWord_tile (ch : Chip) (m : Mod) : regWord ch m (tileBase + 0x200000 * t + o) = tileWord m t o := by
  have hin := inTileSpace_tile ht ho
  simp only [inTileSpace, Bool.and_eq_true, decide_eq_true_eq] at hin
  rw [regWord, if_pos hin]
  exact congrArg₂ (tileWord m) (addrTile_tile ht ho) (addrOffset_tile ht ho)
theorem wordWritable_tile (ch : Chip) (m : Mod) : wordWritable ch m (tileBase + 0x200000 * t + o) = (tileWord m t o).isSome := by
  rw [wordWritable, regWord_tile ht ho, inTileSpace_tile ht ho, Bool.true_or, Bool.and_true]
theorem retainedOwner_tile {m : Mod} (h : ∀ r, partOfTile m t = some r → (partOf m r).jstate ≠ .killedRetained) :
    retainedOwner m (tileBase + 0x200000 * t + o) = none := by
  rw [retainedOwner, if_pos (inTileSpace_tile ht ho), addrTile_tile ht ho]
  cases hp : partOfTile m t with
  | none => rfl
  | some r => exact if_neg (h r hp)

end

theorem chunks_single {α : Type} {n f : Nat} {l : List α} (hl : l.length = n) (hn : n ≠ 0) : chunks n (f + 2) l = [l] := by
  cases l with
  | nil => exact absurd hl.symm hn
  | cons a l =>
    have htake : (a :: l).take n = a :: l := by rw [← hl, List.take_length]
    have hdrop : (a :: l).drop n = [] := by rw [← hl, List.drop_length]
    rw [chunks, htake, hdrop]
    · rfl
    · simp

theorem dataWords_single (v : W64) : dataWords (leBytes 8 v.toNat) = [v] := by
  have hl := leBytes_length 8 v.toNat
  rw [dataWords, hl, chunks_single hl (by decide), List.map_singleton, leNat_leBytes]
  congr 1
  apply BitVec.eq_of_toNat_eq
  rw [BitVec.toNat_ofNat]
  have := v.isLt
  omega

/-- A word of a scratchpad that the host writes lands through DW after the beats that are due have been read (R184, R185, R526). -/
theorem writeWord_scratch {t o : Nat} (ch : Chip) (m : Mod) (v : W64) (ht : t < 5120) (ho : o < 0x100000) :
    writeWord ch (tileBase + 0x200000 * t + o) v m =
      modTd t (spLands rankDW (nowOf m t) o [v.extractLsb' 0 32, v.extractLsb' 32 32]) (readBeatsNow t (nowOf m t) m) := by
  have hmem : isTileMem o = true := decide_eq_true (by omega)
  have hland : landTileMem (nowOf m t) o v = spLands rankDW (nowOf m t) o [v.extractLsb' 0 32, v.extractLsb' 32 32] := by
    funext d
    rw [landTileMem, if_pos ho]
  rw [writeWord, if_pos (inTileSpace_tile ht (by omega)), addrTile_tile ht (by omega), addrOffset_tile ht (by omega), if_pos hmem]
  dsimp only
  rw [hland]

theorem writeWord_scratch_lands {t o : Nat} (ch : Chip) (m : Mod) (v : W64) (ht : t < 5120) (ho : o < 0x100000) (h4 : o % 4 = 0)
    (hb : (tileOf m t).bundle = none) :
    wordsLand t o [v.extractLsb' 0 32, v.extractLsb' 32 32] m (writeWord ch (tileBase + 0x200000 * t + o) v m) ∧
      ∀ u, u ≠ t → tileOf (writeWord ch (tileBase + 0x200000 * t + o) v m) u = tileOf m u := by
  obtain ⟨hothers, ⟨hscratch, hlast⟩, -⟩ := readBeatsNow_padKept hb (nowOf m t)
  rw [writeWord_scratch ch m v ht ho]
  refine ⟨fun w => ?_, fun u hu => ?_⟩
  · have hy : spYields (tdOf (readBeatsNow t (nowOf m t) m) t) rankDW (nowOf m t) (4 * w) = spYields (tdOf m t) rankDW (nowOf m t) (4 * w) := by
      unfold spYields; rw [hlast]
    have hsp : spWord (tdOf (readBeatsNow t (nowOf m t) m) t) (4 * w) = spWord (tdOf m t) (4 * w) := by unfold spWord; rw [hscratch]
    rw [tdOf_modTd_self, spWord_spLands _ _ _ _ _ h4, hy, hsp]
  · rw [tileOf_modTd, if_neg hu.symm]
    exact hothers u hu

theorem regWrite_carries {f : Frame} {s : State} {t o : Nat} {v : W64} (ha : accepts f 0x0402 s.m)
    (hf : rsvOk f [(1, all32), (2, 0xFFFF), (3, all32)] = true) (hd : f.data = leBytes 8 v.toNat) (hn : arg f 3 = 1) (ht : t < 5120)
    (ho : o < 0x100000) (h8 : o % 8 = 0) (haddr : arg48 f 1 = tileBase + 0x200000 * t + o) (hst : tileStopped (tdOf s.m t) = true)
    (hr : ∀ r, partOfTile s.m t = some r → (partOf s.m r).jstate ≠ .killedRetained) :
    Carries (.regWrite f) f 0x0402 s [] [] (writeWord s.chip (tileBase + 0x200000 * t + o) v (taken f 0x0402 s.m)) := by
  have hrun : (wordRun (arg48 f 1) (arg f 3)).zip (dataWords f.data) = [(tileBase + 0x200000 * t + o, v)] := by
    rw [haddr, hn, hd, dataWords_single]; rfl
  have hbad : badWords (arg48 f 1) (arg f 3) = false := by
    rw [haddr, hn]
    simp only [badWords, tileBase]
    simp
    omega
  have hbytes : f.data.length = 8 * arg f 3 := by rw [hd, leBytes_length, hn]
  have hwrite : wordWritable s.chip (taken f 0x0402 s.m) (tileBase + 0x200000 * t + o) = true := by
    rw [wordWritable_tile ht (by omega), tileWord, if_pos ho]; rfl
  have hret : retainedOwner (taken f 0x0402 s.m) (tileBase + 0x200000 * t + o) = none := retainedOwner_tile ht (by omega) hr
  have hbusy : writeBusy (taken f 0x0402 s.m) (tileBase + 0x200000 * t + o) v = false := by
    rw [writeBusy, if_pos (inTileSpace_tile ht (by omega)), addrTile_tile ht (by omega)]
    show (_ && !tileStopped (tdOf s.m t)) = false
    rw [hst]; simp
  have hwarm : warmBusy (taken f 0x0402 s.m) (tileBase + 0x200000 * t + o) v = false := by
    have hne : tileBase + 0x200000 * t + o ≠ ctlBase + 0x100 := by simp only [tileBase, ctlBase]; omega
    rw [warmBusy, beq_false_of_ne hne]; rfl
  have hgo := carries_of_checks (c := .regWrite f) (s := s) (l := _) (a := _) rfl ha rfl ?_ rfl rfl rfl rfl
  · simp only [hrun, List.foldl_cons, List.foldl_nil] at hgo
    exact hgo
  · simp [hrun, hbad, hbytes, hf, hwrite, hret, hbusy, hwarm]

/-- The registers TILE_SCRATCH0 to 3 hold what is written to them (R95). -/
theorem writeTileData_scratch (c v : Nat) {k : Nat} (hk : k < 4) (d : TileData) :
    writeTileData c (0x0E0 + 8 * k) v d = { d with scr := mset 0 d.scr k (BitVec.ofNat 64 v) } := by
  interval_cases k <;> rfl

theorem writeTileReg_scratch (t v : Nat) {k : Nat} (hk : k < 4) (m : Mod) :
    writeTileReg t (0x0E0 + 8 * k) v m =
      modTd t (fun d => { countWait (nowOf m t) d with scr := mset 0 (countWait (nowOf m t) d).scr k (BitVec.ofNat 64 v) }) m := by
  have hne : ∀ c, c < 0x0E0 ∨ 0x100 ≤ c → (decide (0x0E0 + 8 * k = c)) = false := fun c hc => decide_eq_false (by omega)
  unfold writeTileReg
  rw [if_neg (by omega), if_neg (by omega)]
  dsimp only
  simp only [hne 0x800 (by omega), hne 0x830 (by omega), Bool.false_and, Bool.false_eq_true, if_false, writeTileData_scratch _ _ hk]

theorem tileWord_scratch (m : Mod) (t : Nat) {k : Nat} (hk : k < 4) : (tileWord m t (0x1F00E0 + 8 * k)).isSome = true := by
  interval_cases k <;> rfl

/-- TILE_SCRATCH k of a tile takes the word written (R12, R95). -/
theorem registerWrite_scratch {s : State} {t k : Nat} (v : W64) (ht : t < 5120) (hk : k < 4)
    (hr : ∀ r, partOfTile s.m t = some r → (partOf s.m r).jstate ≠ .killedRetained) :
    Gives (.registerWrite (BitVec.ofNat 48 (tileBase + 0x200000 * t + 0x1F00E0 + 8 * k)) v) s (fun m' =>
      mget 0 (tdOf m' t).scr k = v ∧ ∀ u, u ≠ t → tileOf m' u = tileOf s.m u) := by
  have ho : 0x1F00E0 + 8 * k < 0x200000 := by omega
  have haddr : (BitVec.ofNat 48 (tileBase + 0x200000 * t + 0x1F00E0 + 8 * k)).toNat = tileBase + 0x200000 * t + (0x1F00E0 + 8 * k) := by
    rw [BitVec.toNat_ofNat]
    simp only [tileBase]
    omega
  have hmem : isTileMem (0x1F00E0 + 8 * k) = false := decide_eq_false (by omega)
  have h8 : (tileBase + 0x200000 * t + (0x1F00E0 + 8 * k)) % 8 = 0 := by
    simp only [tileBase]
    omega
  have hword : wordWritable s.chip s.m (tileBase + 0x200000 * t + (0x1F00E0 + 8 * k)) = true := by
    rw [wordWritable_tile ht ho, tileWord_scratch _ _ hk]
  have hwrite : writeWord s.chip (tileBase + 0x200000 * t + (0x1F00E0 + 8 * k)) v s.m = writeTileReg t (0x0E0 + 8 * k) v.toNat s.m := by
    have hoff : 0x1F00E0 + 8 * k - 0x1F0000 = 0x0E0 + 8 * k := by omega
    rw [writeWord, if_pos (inTileSpace_tile ht ho), addrTile_tile ht ho, addrOffset_tile ht ho, hmem, if_neg (by simp), hoff]
  refine ⟨writeTileReg t (0x0E0 + 8 * k) v.toNat s.m, ?_, ?_, fun u hu => ?_⟩
  · show execRegisterWrite _ v s = _
    unfold execRegisterWrite onChip
    dsimp only
    rw [haddr, ← hwrite, if_neg]
    simp [h8, hword, inTileSpace_tile ht ho, addrOffset_tile ht ho, hmem, retainedOwner_tile ht ho hr]
  · rw [writeTileReg_scratch _ _ hk, tdOf_modTd_self]
    simp
  · rw [writeTileReg_scratch _ _ hk, tileOf_modTd, if_neg hu.symm]

/-- A write that names no writable area of the control space does nothing (R529). -/
theorem registerWrite_elsewhere {s : State} {a : BitVec 48} (v : W64) (h0 : ctlBase ≤ a.toNat) (hw : hostMayWrite (a.toNat - ctlBase) = false) :
    Gives (.registerWrite a v) s (fun m' => m' = s.m) := by
  have hin : inTileSpace a.toNat = false := by
    simp only [inTileSpace, tileEnd, ctlBase] at h0 ⊢
    simp
    omega
  have hno : wordWritable s.chip s.m a.toNat = false := by rw [wordWritable, hin, hw]; simp
  refine ⟨s.m, ?_, rfl⟩
  show execRegisterWrite a v s = _
  unfold execRegisterWrite onChip
  simp [hno]

end Sys2Proof.Machine
end

section
/-! Proofs. The placement commands. -/

open Sys2Proof Sys2Proof.Machine

/-- Settles O55: each command passes its checks under the clause's premises, and what its action leaves is read off by the laws above. -/
theorem placementCommands : Obligations.PlacementCommands := by
  intro f s p hp
  subst hp
  refine ⟨?_, ?_, ?_, ?_, ?_, ?_, ?_, ?_, ?_, ?_, ?_, ?_⟩
  -- PART_SET
  · rintro h ha hf rfl h0 hr ho
    obtain ⟨x, y, hc⟩ := partSet_carries ha hf h0 hr ho
    refine hc.gives (fun b u => ?_)
    obtain ⟨hpart, hothers⟩ := partOf_of_parts (m := s.m) (p := argPart f) (g := fun x => { x with halves := arg f 1 }) rfl
    exact ⟨hpart, hothers, rfl⟩
  -- PART_PORTS
  · intro ha hf hj ho
    refine (partPorts_carries ha hf hj ho).gives (fun b u q hq => ?_)
    exact (portOf_assignPorts _ _ 51 q (taken f 0x0102 s.m)).trans (if_pos hq)
  -- SET_QUOTA
  · intro ha hf hb hc hb' hc'
    refine (setQuota_carries ha hf hb hc hb' hc').gives (fun b u => ?_)
    obtain ⟨hpart, hothers⟩ := partOf_of_parts (m := s.m) (p := argPart f) (g := fun x => { x with quotaB := arg f 1, quotaC := arg f 2 }) rfl
    exact ⟨hpart, hothers, rfl⟩
  -- MAP and MOVE
  · rintro first n tc hf rfl rfl htc h1 h2 hk
    exact ⟨fun ha hun hq hn => map_gives htc ha hf h1 h2 (fun k h h' => ⟨(hk k h h').1, hun k h h'⟩) hq hn,
      fun ha ho hq hn => move_keeps htc ha hf h1 h2 hk ho hq hn⟩
  -- UNMAP
  · rintro first n ha hf rfl rfl h1 h2 hj hk
    refine (unmap_carries ha hf h1 h2 hj hk).gives (fun b u => ⟨?_, fun k => ?_⟩)
    · exact unmapPages_dram (pageRun (arg f 1) (arg f 2)) (taken f 0x0106 s.m)
    · exact (pageOf_unmapPages _ (taken f 0x0106 s.m) k).trans (if_congr mem_pageRun rfl rfl)
  -- MEM_WRITE
  · intro a b ws ha hf haddr hlen hw hd h4 hb he hmap hpart hburst hreqs hfwd hrec
    have hbn : b / 64 = pageBurst s.m (a / 0x200000) (a % 0x200000 / 256) := by omega
    refine (memWrite_carries ha hf haddr hlen hw hd h4 hb he hmap hpart).gives (fun bx u w => ?_)
    rw [hbn] at hreqs hfwd
    rw [hburst]
    exact memWritePiece_words (m := taken f 0x0108 s.m) hw h4 rfl hreqs hfwd hrec w
  -- WIN_TILE
  · rintro t w ha hf ht hw ht' hpt hb hl he
    exact winTile_carries ha hf ht hw ht' hpt hb hl he
  -- WIN_DRAM
  · intro ha hf h1 h2 h3 hk
    exact winDram_carries ha hf h1 h2 h3 hk
  -- POWER_SET
  · intro q ha hf h1 h3 h3' h4 h4' h5 h5' hq hc
    exact ⟨powerSet_carries ha hf h1 h3 h3' h4 h4' h5 h5' hq hc, by rw [hq]; rfl, by rw [hq]; rfl,
      fun h hh hb => hq ▸ withPolicy_half _ _ _ _ _ _ hh hb⟩
  -- REG_WRITE
  · intro t o v ha hf hd hn ht ho h8 haddr hst hbun hr
    exact (regWrite_carries ha hf hd hn ht ho h8 haddr hst hr).gives
      (fun b u => writeWord_scratch_lands s.chip (taken f 0x0402 s.m) v ht ho (by omega) hbun)
  -- a write of TILE_SCRATCH0 to 3
  · intro t k v ht hk hr
    exact registerWrite_scratch v ht hk hr
  -- a write to no writable area
  · intro a v _ h0 _ hw
    exact registerWrite_elsewhere v h0 hw
end

section
/-! Proofs. The loss of the tick, and the values right after a cold reset. -/

namespace Sys2Proof.Machine

/-- A host event is sent while Kiteline is up, and else waits while the queue has room (R425). -/
theorem hostEvent_sent (cl p sr d a : Nat) (m : Mod) :
    ∃ e : Event, e = { cls := cl, part := p, source := sr, detail := d, tick := m.tick, aux := a } ∧
      (if m.box.kiteUp then (hostEvent cl p sr d a m).out = m.out ++ [.event e]
        else m.box.events.length < 256 → (hostEvent cl p sr d a m).box.events = m.box.events ++ [e]) := by
  refine ⟨_, rfl, ?_⟩
  unfold hostEvent
  dsimp only
  split
  · exact emit_out ..
  · intro hl
    rw [if_pos hl]

/-- The receiver has lost its tick (R34). -/
def tickLoss (m : Mod) : Mod := { m with lostEvent := true, loss := satAdd 16 m.loss 1, lock := .holdover, holdFrom := srcNow m }

/-- TICK_LOST on a LOCKED module whose last accepted edge lies 8 tick periods back. -/
theorem execTickLost_lost {s : State} {l : Nat} (hrole : s.m.role ≠ roleMaster) (hlock : s.m.lock = .locked) (hedge : s.m.lastEdge = some l)
    (hq : 81920 ≤ sinceInstant (l : Int) (instant s.m)) :
    exec .tickLost s = .next { s with m := hostEvent 0x04 0xFF 0xFFFF 1 0 (noteSet 0x1008 0 [] (tickLoss s.m)) } := by
  show execTickLost s = _
  unfold execTickLost onMod tickLoss
  simp [hrole, hlock, hedge, hq]

/-- TICK_LOST on a module whose last accepted edge is nearer. -/
theorem execTickLost_near {s : State} {l : Nat} (hedge : s.m.lastEdge = some l) (hq : sinceInstant (l : Int) (instant s.m) < 81920) :
    exec .tickLost s = .next s := by
  show execTickLost s = _
  unfold execTickLost onMod
  simp [hedge, Int.not_le.mpr hq]

end Sys2Proof.Machine

open Sys2Proof Sys2Proof.Machine

/-- Settles O36: a LOCKED receiver whose last accepted edge lies 8 tick periods back takes the loss, and the event names the tick; one whose
last edge is nearer is not quiet, and the row leaves it. -/
theorem tickLossDeclared : Obligations.TickLossDeclared := by
  intro s l hrole hlock hedge
  constructor
  · intro hq
    refine ⟨_, execTickLost_lost hrole hlock hedge hq, ?_⟩
    obtain ⟨b, u, he, -, -⟩ := hostEvent_rest 0x04 0xFF 0xFFFF 1 0 (noteSet 0x1008 0 [] (tickLoss s.m))
    obtain ⟨e, hev, hsent⟩ := hostEvent_sent 0x04 0xFF 0xFFFF 1 0 (noteSet 0x1008 0 [] (tickLoss s.m))
    exact ⟨by rw [he]; rfl, by rw [he]; rfl, by rw [he]; rfl, e, by rw [hev], by rw [hev], by rw [hev]; rfl, hsent⟩
  · intro hq
    exact ⟨s.m, execTickLost_near hedge hq, rfl⟩

/-- Settles O59: every field of the reset state is a default of its structure, and an empty table is in its canonical form. -/
theorem resetValues : Obligations.ResetValues := by
  have hrun : State.reset.m.box.running = none := rfl
  refine ⟨rfl, rfl, rfl, rfl, rfl, rfl, rfl, rfl, rfl, rfl, ?_, fun p => ⟨rfl, rfl, rfl, rfl, rfl, rfl⟩, fun t => ⟨rfl, rfl, rfl, fun o => rfl⟩,
    fun q => ⟨rfl, rfl⟩, fun k => rfl, fun w => rfl⟩
  refine ⟨⟨rfl, rfl, rfl, rfl, rfl, rfl, rfl, rfl, rfl, rfl, rfl, rfl⟩, rfl, rfl, rfl, fun r p b h => ?_⟩
  rw [hrun] at h
  cases h
end

section
/-! Proofs. A commit that ends its job: a state in which the end waits although the engines were quiet. -/

namespace Sys2Proof.Machine

/-- Engine 0, at a port of partition 0, holds a whole block of job 1, whose context is partition 1's, and four summed blocks of partition 0
that wait for their delivery: the fabric takes no fifth beat, so nothing more can be summed (R353). -/
def crowdedEngine : Engine :=
  { ctx := [(1, { valid := true, part := 1 })], routes := [(0, { valid := true, job := 1, inputs := 2, outEngine := 1 })]
    locl := [{ job := 1, num := 0, limbs := 0, beats := 1, vals := [] }], deliver := List.replicate 4 (0, 0, 0, []) }

/-- Partition 0 of the system master, its commit due with its GO, its one shard begun and not staged, and that engine at its port. -/
def crowdedCommit : State :=
  { State.reset with m := { State.reset.m with
      role := roleMaster, shards := [(0, { valid := true, began := true })], ports := [(0, { assigned := true })], engines := [(0, crowdedEngine)]
      parts := [(0, { jstate := .running, rstate := .running, goFor := some 0, closedAt := some 0
                      sched := [{ kind := .commit, superstep := 0, offset := 0, tick := 0, mask := 0, chosen := none, done := false }] })] } }

theorem crowdedCommit_quiet : dmasQuiet 0 crowdedCommit.m :=
  ⟨by decide, fun _ _ => rfl⟩

/-- The commit throws away what partition 0 has to deliver (R364), so the block of job 1 can be summed, and the job does not end at once. -/
theorem crowdedCommit_runs_on : Gives (.commit 0) crowdedCommit (fun m' => (partOf m' 0).jstate = .running) := ⟨_, rfl, by decide⟩

end Sys2Proof.Machine

open Sys2Proof Sys2Proof.Machine

/-- Refutes O39, in its last clause: engines and halves of the partition are quiet before the commit, and yet the job ends later. COMMIT first
begins a new epoch of the partition's reduction engines; the deliveries that kept one of them from summing a block of another partition's
job are gone, so the engine is no longer idle when the end of the job asks. -/
theorem not_stepSequence : ¬ Obligations.StepSequence := by
  intro h
  obtain ⟨-, -, -, -, -, hcommit⟩ := h 0 crowdedCommit _ rfl ⟨rfl, rfl, rfl⟩
  obtain ⟨m', he, -, -, hs⟩ := (hcommit (by decide) (by decide) rfl rfl).2 (by decide) rfl
  obtain ⟨n, hn, hrun⟩ := crowdedCommit_runs_on
  obtain rfl : m' = n := congrArg State.m (Host.Outcome.next.inj (he.symm.trans hn))
  exact absurd ((hs crowdedCommit_quiet rfl).symm.trans hrun) (by decide)
end

section
/-! Proofs. What running work leaves alone: the frame of the transitions that end a command, move beats or pass a cycle. -/

namespace Sys2Proof.Machine

/-- What running work leaves alone in a partition: all but what an exchange phase writes, the Reel, the faults noted and what is to be decided
at the next local sync. -/
abbrev jobSide (x : Part) : Part :=
  { x with
    readySent := false, readyFrom := [], goFor := none, goNext := none, arrived := [], closedAt := none, xphase := .compute, record := 0, lag := 0
    stallFrom := 0, stallEnd := 0, stallHit := false, beats := [], paths := [], beatNo := 0, stallTotal := 0, stallLongest := 0, stallCount := 0
    exchFault := {}, exchFaults := 0, lateTransfers := 0, reel := [], reelWait := [], reelDelivered := 0
    genMismatches := 0, genFirstShard := 0, genValid := false, causes := [], restoreRequired := false }

/-- What running work leaves alone in the module: time, power, roles and registers, and that side of each partition. -/
@[irreducible] def calm (m : Mod) : Mod × (Nat → Part) :=
  ({ m with
     tiles := [], parts := [], ports := [], engines := [], contribs := [], pool := [], bars := [], flight := [], stopped := [], dram := [], ecc := []
     moves := [], stk := [], shards := [], dwins := [], routeDrops := 0, forwarded := 0, box := {}, sets := [], free := 0, out := [] },
   fun p => jobSide (partOf m p))

@[simp] theorem calm_modTile (t : Nat) (f : Tile → Tile) (m : Mod) : calm (modTile t f m) = calm m := by unfold calm; rfl
@[simp] theorem calm_modTd (t : Nat) (f : TileData → TileData) (m : Mod) : calm (modTd t f m) = calm m := by unfold calm; rfl
@[simp] theorem calm_modPort (q : Nat) (f : Port → Port) (m : Mod) : calm (modPort q f m) = calm m := by unfold calm; rfl
@[simp] theorem calm_modEngine (e : Nat) (f : Engine → Engine) (m : Mod) : calm (modEngine e f m) = calm m := by unfold calm; rfl
@[simp] theorem calm_modEp (k : Nat) (f : Ep → Ep) (m : Mod) : calm (modEp k f m) = calm m := by unfold calm; rfl
@[simp] theorem calm_modBar (b : Nat) (f : Bar → Bar) (m : Mod) : calm (modBar b f m) = calm m := by unfold calm; rfl
@[simp] theorem calm_modStack (n : Nat) (f : Stack → Stack) (m : Mod) : calm (modStack n f m) = calm m := by unfold calm; rfl
@[simp] theorem calm_modShard (i : Nat) (f : Shard → Shard) (m : Mod) : calm (modShard i f m) = calm m := by unfold calm; rfl
@[simp] theorem calm_emit (o : Out) (m : Mod) : calm (emit o m) = calm m := by unfold calm; rfl
@[simp] theorem calm_takeFree (m : Mod) : calm (takeFree m).2 = calm m := by unfold calm; rfl
@[simp] theorem calm_noteSet (o b : Nat) (l : List Nat) (m : Mod) : calm (noteSet o b l m) = calm m := by unfold calm; rfl
@[simp] theorem calm_hostEvent (cl p sr d a : Nat) (m : Mod) : calm (hostEvent cl p sr d a m) = calm m := by
  obtain ⟨b, u, he, -, -⟩ := hostEvent_rest cl p sr d a m
  rw [he]; unfold calm; rfl
@[simp] theorem calm_modPart {p : Nat} {f : Part → Part} (h : ∀ x, jobSide (f x) = jobSide x) (m : Mod) : calm (modPart p f m) = calm m := by
  unfold calm
  refine Prod.ext rfl (funext fun r => ?_)
  show jobSide (partOf (modPart p f m) r) = jobSide (partOf m r)
  rw [partOf_modPart]
  split
  · subst_vars; exact h _
  · rfl
@[simp] theorem calm_foldl {α : Type} {f : Mod → α → Mod} (h : ∀ m a, calm (f m a) = calm m) (l : List α) (m : Mod) :
    calm (l.foldl f m) = calm m := by
  induction l generalizing m with
  | nil => rfl
  | cons a l ih => exact (ih _).trans (h m a)
@[simp] theorem calm_if (c : Prop) [Decidable c] (a b : Mod) : calm (if c then a else b) = if c then calm a else calm b := apply_ite calm c a b

@[simp] theorem calm_with_stopped (m : Mod) (l : List Instr) : calm { m with stopped := l } = calm m := by unfold calm; rfl
@[simp] theorem calm_with_contribs (m : Mod) (l : List ContribBeat) : calm { m with contribs := l } = calm m := by unfold calm; rfl
@[simp] theorem calm_with_flight (m : Mod) (l : List Flight) : calm { m with flight := l } = calm m := by unfold calm; rfl
@[simp] theorem calm_with_moves (m : Mod) (l : List Mv) : calm { m with moves := l } = calm m := by unfold calm; rfl
@[simp] theorem calm_with_stk (m : Mod) (l : SMap Stack) : calm { m with stk := l } = calm m := by unfold calm; rfl
@[simp] theorem calm_with_routeDrops (m : Mod) (n : Nat) : calm { m with routeDrops := n } = calm m := by unfold calm; rfl
@[simp] theorem calm_with_forwarded (m : Mod) (n : Nat) : calm { m with forwarded := n } = calm m := by unfold calm; rfl
@[simp] theorem calm_with_memory (m : Mod) (d : SMap W32) (e : SMap Nat) : calm { m with dram := d, ecc := e } = calm m := by unfold calm; rfl
@[simp] theorem calm_signalAt (p c d t : Nat) (a : BitVec 48 × Nat) (m : Mod) : calm (signalAt p c d t a m) = calm m := by
  simp [signalAt]
@[simp] theorem calm_signalModule (p cause detail : Nat) (m : Mod) : calm (signalModule p cause detail m) = calm m := by
  unfold signalModule; simp
@[simp] theorem calm_signalTile (t cause detail : Nat) (at_ : BitVec 48 × Nat) (m : Mod) : calm (signalTile t cause detail at_ m) = calm m := by
  unfold signalTile; split <;> simp
@[simp] theorem calm_leaveWait (t c : Nat) (m : Mod) : calm (leaveWait t c m) = calm m := by
  unfold leaveWait; dsimp only; (repeat' split) <;> simp
@[simp] theorem calm_trapTile (t pc slots cause info : Nat) (cycle : Nat) (banked quiet : Bool) (m : Mod) :
    calm (trapTile t pc slots cause info cycle banked quiet m) = calm m := by
  unfold trapTile; simp
@[simp] theorem calm_dropBundle (t : Nat) (m : Mod) : calm (dropBundle t m) = calm m := by
  unfold dropBundle; simp
@[simp] theorem calm_takeDue (t : Nat) (m : Mod) (x : DueTrap) : calm (takeDue t m x) = calm m := by
  unfold takeDue; simp
@[simp] theorem calm_dueTraps (t c : Nat) (m : Mod) : calm (dueTraps t c m) = calm m := by
  unfold dueTraps; simp
@[simp] theorem calm_cutBundle (t c : Nat) (m : Mod) : calm (cutBundle t c m) = calm m := by
  unfold cutBundle; split <;> simp
@[simp] theorem calm_interrupt (t c : Nat) (m : Mod) : calm (interrupt t c m) = calm m := by
  unfold interrupt; split <;> simp
@[simp] theorem calm_dueTrapsNow (m : Mod) : calm (dueTrapsNow m) = calm m := by
  unfold dueTrapsNow; simp
@[simp] theorem calm_trapLanding (t slots cause info : Nat) (m : Mod) : calm (trapLanding t slots cause info m) = calm m := by
  unfold trapLanding; simp
@[simp] theorem calm_takeLink (q cls : Nat) (first last : Bool) (tag transfer : Nat) (body : List W32) (m : Mod) :
    calm (takeLink q cls first last tag transfer body m) = calm m := by
  unfold takeLink; simp
@[simp] theorem calm_sendWaiting (q i : Nat) (m : Mod) : calm (sendWaiting q i m) = calm m := by
  unfold sendWaiting; dsimp only; (repeat' split) <;> simp
@[simp] theorem calm_resendNext (q : Nat) (b : LinkBeat) (r : List LinkBeat) (m : Mod) : calm (resendNext q b r m) = calm m := by
  unfold resendNext; simp
@[simp] theorem calm_serveLink (own : Bool) (q : Nat) (n0 : Nat) (m : Mod) : calm (serveLink own q n0 m) = calm m := by
  induction n0 generalizing m with
  | zero => rfl
  | succ n ih => unfold serveLink; dsimp only; (repeat' split) <;> simp [ih]
@[simp] theorem calm_queueBeats (q : Nat) (l : List WaitBeat) (m : Mod) : calm (queueBeats q l m) = calm m := by
  unfold queueBeats; simp
@[simp] theorem calm_sendBeats (q cls : Nat) (l : List (List W32)) (m : Mod) : calm (sendBeats q cls l m) = calm m := by
  unfold sendBeats; simp
@[simp] theorem calm_freeBeats (n0 : Nat) (m : Mod) : calm (freeBeats n0 m).2 = calm m := by
  induction n0 generalizing m with
  | zero => rfl
  | succ n ih => exact (ih _).trans (calm_takeFree m)
@[simp] theorem calm_sendChanLink (q : Nat) (k : ChanPkt) (m : Mod) : calm (sendChanLink q k m) = calm m := by
  unfold sendChanLink; simp
@[simp] theorem calm_sendDma (q op : Nat) (p : DmaPkt) (m : Mod) : calm (sendDma q op p m) = calm m := by
  unfold sendDma; simp
@[simp] theorem calm_sendSym (q type : Nat) (tag : BitVec 16) (seq arg : W32) (m : Mod) : calm (sendSym q type tag seq arg m) = calm m := by
  unfold sendSym; simp
@[simp] theorem calm_whenClocked (i : Instr) {f : Mod → Mod} (h : ∀ m, calm (f m) = calm m) (m : Mod) : calm (whenClocked i f m) = calm m := by
  unfold whenClocked; simp [h]
@[simp] theorem calm_whenMoving (q : Nat) (i : Instr) {f : Mod → Mod} (h : ∀ m, calm (f m) = calm m) (m : Mod) :
    calm (whenMoving q i f m) = calm m := by
  unfold whenMoving; simp [h]
@[simp] theorem calm_sendNak (q seq : Nat) (m : Mod) : calm (sendNak q seq m) = calm m := by
  unfold sendNak; simp
@[simp] theorem calm_crcFail (q seq : Nat) (m : Mod) : calm (crcFail q seq m) = calm m := by
  unfold crcFail; simp
@[simp] theorem calm_routeDrop (q : Nat) (m : Mod) : calm (routeDrop q m) = calm m := by
  unfold routeDrop; simp
@[simp] theorem calm_sendChan (port at_ : Nat) (k : ChanPkt) (m : Mod) : calm (sendChan port at_ k m) = calm m := by
  unfold sendChan; simp [↓calm_with_flight]
@[simp] theorem calm_dropOutgoing (part : Option Nat) (q : Nat) (m : Mod) : calm (dropOutgoing part q m) = calm m := by
  unfold dropOutgoing; split <;> simp
@[simp] theorem calm_sendBack (at_ : Nat) (k : ChanPkt) (m : Mod) : calm (sendBack at_ k m) = calm m := by
  unfold sendBack; split
  · simp
  · split <;> simp
@[simp] theorem calm_returnCredit (ep connModule conn tgt units c : Nat) (m : Mod) :
    calm (returnCredit ep connModule conn tgt units c m) = calm m := by
  unfold returnCredit; simp
@[simp] theorem calm_passRecords (t g old new c : Nat) (m : Mod) : calm (passRecords t g old new c m) = calm m := by
  unfold passRecords; split <;> simp
@[simp] theorem calm_drParity (t : Nat) (addrs : List Nat) (m : Mod) : calm (drParity t addrs m) = calm m := by
  unfold drParity; split <;> simp
@[simp] theorem calm_badPointer (t g : Nat) (m : Mod) : calm (badPointer t g m) = calm m := by
  unfold badPointer; simp
@[simp] theorem calm_rereadMirror (t g c : Nat) (m : Mod) : calm (rereadMirror t g c m) = calm m := by
  unfold rereadMirror; dsimp only; split <;> simp
@[simp] theorem calm_seekRoom (t g c n : Nat) (m : Mod) : calm (seekRoom t g c n m) = calm m := by
  unfold seekRoom; simp
@[simp] theorem calm_noteExch (p tile port code c : Nat) (m : Mod) : calm (noteExch p tile port code c m) = calm m := by
  unfold noteExch; simp
@[simp] theorem calm_moduleXch (p code port : Nat) (m : Mod) : calm (moduleXch p code port m) = calm m := by
  unfold moduleXch; simp
@[simp] theorem calm_sendCompiled (q tag n : Nat) (ws : List W32) (m : Mod) : calm (sendCompiled q tag n ws m) = calm m := by
  unfold sendCompiled; simp
@[simp] theorem calm_addContrib (c : ContribBeat) (m : Mod) : calm (addContrib c m) = calm m := by
  unfold addContrib; simp
@[simp] theorem calm_noteRead (p t id : Nat) (src : BeatSrc) (readAt : Nat) (base : TileData) (m : Mod) :
    calm (noteRead p t id src readAt base m) = calm m := by
  unfold noteRead; simp
@[simp] theorem calm_forwardCopy (p t : Nat) (ws : List W32) (b : Beat) (m : Mod) : calm (forwardCopy p t ws b m) = calm m := by
  unfold forwardCopy; split <;> simp
@[simp] theorem calm_forwardAll (p t : Nat) (ws : List W32) (l : List Beat) (m : Mod) : calm (forwardAll p t ws l m) = calm m := by
  unfold forwardAll; simp
@[simp] theorem calm_readNext (p t upto : Nat) (base : TileData) (m : Mod) : calm (readNext p t upto base m) = calm m := by
  unfold readNext; dsimp only; (repeat' split) <;> simp
@[simp] theorem calm_readBeats (t upto : Nat) (base : TileData) (m : Mod) : calm (readBeats t upto base m) = calm m := by
  unfold readBeats; split <;> simp
@[simp] theorem calm_readBeatsNow (t upto : Nat) (m : Mod) : calm (readBeatsNow t upto m) = calm m := by
  unfold readBeatsNow; simp
@[simp] theorem calm_ensureRead (b : Beat) (m : Mod) : calm (ensureRead b m) = calm m := by
  unfold ensureRead; split <;> simp
@[simp] theorem calm_landWords (t rank c a : Nat) (ws : List W32) (m : Mod) : calm (landWords t rank c a ws m) = calm m := by
  unfold landWords; simp
@[simp] theorem calm_endWait (t cycle : Nat) (m : Mod) : calm (endWait t cycle m) = calm m := by
  unfold endWait; simp
@[simp] theorem calm_noteTileXch (t code c : Nat) (m : Mod) : calm (noteTileXch t code c m) = calm m := by
  unfold noteTileXch; dsimp only; split <;> simp
@[simp] theorem calm_tileXch (t c tag link code : Nat) (m : Mod) : calm (tileXch t c tag link code m) = calm m := by
  unfold tileXch; simp
@[simp] theorem calm_dropContribs (p : Nat) (m : Mod) : calm (dropContribs p m) = calm m := by
  unfold dropContribs; simp
@[simp] theorem calm_placeBeat (p tag : Nat) (late : Bool) (ws : List Path) (m : Mod) : calm (placeBeat p tag late ws m) = calm m := by
  unfold placeBeat; simp [dropCut]
@[simp] theorem calm_launchBeat (p sk su : Nat) (dsts : List BeatDst) (tag : Nat) (src : BeatSrc) (readAt pc enter : Nat) (data : List W32)
    (late : Bool) (port transfer : Nat) (m : Mod) :
    calm (launchBeat p sk su dsts tag src readAt pc enter data late port transfer m) = calm m := by
  unfold launchBeat; simp
@[simp] theorem calm_putStatus (t rd code value cycle : Nat) (m : Mod) : calm (putStatus t rd code value cycle m) = calm m := by
  unfold putStatus; simp
@[simp] theorem calm_dropHandle (t h : Nat) (m : Mod) : calm (dropHandle t h m) = calm m := by
  unfold dropHandle; simp
@[simp] theorem calm_sendForth (kind : PktKind) (conn : Nat) (tgt : Nat × Nat × Nat) (i amount code : Nat) (words : List W32) (c : Nat) (m : Mod) :
    calm (sendForth kind conn tgt i amount code words c m) = calm m := by
  unfold sendForth; simp
@[simp] theorem calm_sendSome (kind : PktKind) (conn amount code : Nat) (words : List W32) (c : Nat) (chosen : Nat → Bool) (m : Mod) :
    calm (sendSome kind conn amount code words c chosen m) = calm m := by
  unfold sendSome; simp
@[simp] theorem calm_sendAll (kind : PktKind) (conn amount code : Nat) (words : List W32) (c : Nat) (m : Mod) :
    calm (sendAll kind conn amount code words c m) = calm m := by
  unfold sendAll; simp
@[simp] theorem calm_countDropped (k t : Nat) (m : Mod) : calm (countDropped k t m) = calm m := by
  unfold countDropped; simp
@[simp] theorem calm_acceptSend (t k cost : Nat) (words : List W32) (len addr c : Nat) (m : Mod) :
    calm (acceptSend t k cost words len addr c m) = calm m := by
  unfold acceptSend; simp
@[simp] theorem calm_endSend (t rd code c done : Nat) (m : Mod) : calm (endSend t rd code c done m) = calm m := by
  unfold endSend; simp
@[simp] theorem calm_retrySend (t c : Nat) (m : Mod) : calm (retrySend t c m) = calm m := by
  unfold retrySend; dsimp only; (repeat' split) <;> simp
@[simp] theorem calm_takeMessage (t k rd pd : Nat) (word pop : Bool) (c : Nat) (m : Mod) : calm (takeMessage t k rd pd word pop c m) = calm m := by
  unfold takeMessage; split <;> simp
@[simp] theorem calm_withPacket (src : PktFrom) (kinds : List PktKind) {f : ChanPkt → Nat → Mod → Mod} (h : ∀ k c m, calm (f k c m) = calm m)
    (m : Mod) : calm (withPacket src kinds f m) = calm m := by
  unfold withPacket
  split
  · (repeat' split) <;> simp [h, ↓calm_with_flight]
  · split
    · rfl
    · refine calm_whenMoving _ _ (fun m => ?_) m
      (repeat' split) <;> simp [h, ↓calm_with_flight]
@[simp] theorem calm_openRequest (k : ChanPkt) (c : Nat) (m : Mod) : calm (openRequest k c m) = calm m := by
  unfold openRequest; simp
@[simp] theorem calm_lateClose (k : ChanPkt) (c : Nat) (m : Mod) : calm (lateClose k c m) = calm m := by
  unfold lateClose; dsimp only; (repeat' split) <;> simp
@[simp] theorem calm_copenReply (k : ChanPkt) (c : Nat) (m : Mod) : calm (copenReply k c m) = calm m := by
  unfold copenReply; dsimp only; split <;> simp
@[simp] theorem calm_closeNotice (k : ChanPkt) (c : Nat) (m : Mod) : calm (closeNotice k c m) = calm m := by
  unfold closeNotice; dsimp only; (repeat' split) <;> simp
@[simp] theorem calm_closeAcked (k : ChanPkt) (m : Mod) : calm (closeAcked k m) = calm m := by
  unfold closeAcked; simp
@[simp] theorem calm_closeAck (k : ChanPkt) (c : Nat) (m : Mod) : calm (closeAck k c m) = calm m := by
  unfold closeAck; dsimp only; split <;> simp
@[simp] theorem calm_creditReturn (k : ChanPkt) (c : Nat) (m : Mod) : calm (creditReturn k c m) = calm m := by
  unfold creditReturn; simp
@[simp] theorem calm_dropNotice (k : ChanPkt) (z0 : Nat) (m : Mod) : calm (dropNotice k z0 m) = calm m := by
  unfold dropNotice; simp
@[simp] theorem calm_dropMessage (k : ChanPkt) (c : Nat) (m : Mod) : calm (dropMessage k c m) = calm m := by
  unfold dropMessage; simp
@[simp] theorem calm_opqLanding (k : ChanPkt) (c : Nat) (m : Mod) : calm (opqLanding k c m) = calm m := by
  unfold opqLanding; dsimp only; (repeat' split) <;> simp
@[simp] theorem calm_ringLanding (k : ChanPkt) (c : Nat) (m : Mod) : calm (ringLanding k c m) = calm m := by
  unfold ringLanding; dsimp only; (repeat' split) <;> simp [↓calm_with_flight]
@[simp] theorem calm_addSignal (t n c : Nat) (m : Mod) : calm (addSignal t n c m) = calm m := by
  unfold addSignal; dsimp only; split <;> simp
@[simp] theorem calm_setRestore (p stack : Nat) (m : Mod) : calm (setRestore p stack m) = calm m := by
  unfold setRestore; simp
@[simp] theorem calm_countFix (b n : Nat) (m : Mod) : calm (countFix b n m) = calm m := by
  unfold countFix; simp
@[simp] theorem calm_noteUE (b page : Nat) (m : Mod) (j : Nat) : calm (noteUE b page m j) = calm m := by
  unfold noteUE; split <;> simp
@[simp] theorem calm_eccRead (b : Nat) (m : Mod) : calm (eccRead b m).2 = calm m := by
  unfold eccRead; simp
@[simp] theorem calm_writeBurst (b off : Nat) (bytes : List Byte) (m : Mod) : calm (writeBurst b off bytes m).2 = calm m := by
  unfold writeBurst; dsimp only; split
  · rfl
  · rw [calm_foldl (fun _ _ => by simp), countFix, calm_modStack]
    exact calm_with_memory ..
@[simp] theorem calm_writeBoth (b off : Nat) (bytes : List Byte) (m : Mod) : calm (writeBoth b off bytes m).2 = calm m := by
  unfold writeBoth; split <;> simp
@[simp] theorem calm_genCheck (i : Nat) (chk : Option Nat) (m : Mod) : calm (genCheck i chk m) = calm m := by
  unfold genCheck; simp
@[simp] theorem calm_serveWrite (page k b off : Nat) (bytes : List Byte) (m : Mod) : calm (serveWrite page k b off bytes m).2 = calm m := by
  unfold serveWrite; split <;> simp
@[simp] theorem calm_modChan (n ch : Nat) (f : Chan → Chan) (m : Mod) : calm (modChan n ch f m) = calm m := by
  unfold modChan; simp
@[simp] theorem calm_sendReq (rank index : Nat) (what : ReqFor) (b : Nat) (second : Bool) (at_ : Nat) (m : Mod) :
    calm (sendReq rank index what b second at_ m) = calm m := by
  unfold sendReq; simp
@[simp] theorem calm_mParity (t pc k : Nat) (reads : List (Nat × Nat × Nat)) (m : Mod) : calm (mParity t pc k reads m) = calm m := by
  unfold mParity; simp
@[simp] theorem calm_mwgbRow (t arr row blk c k : Nat) (m : Mod) (r : Nat) : calm (mwgbRow t arr row blk c k m r) = calm m := by
  unfold mwgbRow; simp
@[simp] theorem calm_placeReel (p t q : Nat) (m : Mod) : calm (placeReel p t q m) = calm m := by
  unfold placeReel; simp
@[simp] theorem calm_retireDescs (t q n : Nat) (m : Mod) : calm (retireDescs t q n m) = calm m := by
  unfold retireDescs; dsimp only; split <;> simp
@[simp] theorem calm_wakeWaitq (t c : Nat) (m : Mod) : calm (wakeWaitq t c m) = calm m := by
  unfold wakeWaitq; dsimp only; split <;> simp
@[simp] theorem calm_streamFault (t q : Nat) (e : Desc) (x : Piece) (c : Nat) (m : Mod) : calm (streamFault t q e x c m) = calm m := by
  unfold streamFault; dsimp only; split <;> simp
@[simp] theorem calm_completeNext (t q c : Nat) (m : Mod) : calm (completeNext t q c m) = calm m := by
  unfold completeNext; dsimp only; (repeat' split) <;> simp
@[simp] theorem calm_advanceQueue (t q c : Nat) (m : Mod) : calm (advanceQueue t q c m) = calm m := by
  unfold advanceQueue; simp
@[simp] theorem calm_failPiece (t c : Nat) (y : PieceAt) (err : Nat) (m : Mod) : calm (failPiece t c y err m) = calm m := by
  unfold failPiece; simp
@[simp] theorem calm_serveStream (t q no k b : Nat) (second : Bool) (m : Mod) : calm (serveStream t q no k b second m) = calm m := by
  unfold serveStream; dsimp only; (repeat' split) <;> simp
@[simp] theorem calm_modUnit (n i u : Nat) (f : NmuUnit → NmuUnit) (m : Mod) : calm (modUnit n i u f m) = calm m := by
  unfold modUnit; simp
@[simp] theorem calm_dropUnits (p : Nat → Bool) (m : Mod) : calm (dropUnits p m) = calm m := by
  unfold dropUnits; simp
@[simp] theorem calm_nmuStop (n i addr : Nat) (m : Mod) : calm (nmuStop n i addr m) = calm m := by
  unfold nmuStop; simp
@[simp] theorem calm_computeUnit (n i u : Nat) (m : Mod) : calm (computeUnit n i u m) = calm m := by
  unfold computeUnit; split <;> simp
@[simp] theorem calm_serveNmuRead (i u line b : Nat) (m : Mod) : calm (serveNmuRead i u line b m) = calm m := by
  unfold serveNmuRead; dsimp only; (repeat' split) <;> simp
@[simp] theorem calm_finishUnit (h i u : Nat) (m : Mod) : calm (finishUnit h i u m) = calm m := by
  unfold finishUnit; simp
@[simp] theorem calm_serveNmuWrite (i u line b : Nat) (second : Bool) (m : Mod) : calm (serveNmuWrite i u line b second m) = calm m := by
  unfold serveNmuWrite; dsimp only; (repeat' split) <;> simp
@[simp] theorem calm_serveRecord (i b : Nat) (m : Mod) : calm (serveRecord i b m) = calm m := by
  unfold serveRecord; dsimp only; split <;> simp
@[simp] theorem calm_forwardDma (q op : Nat) (k : DmaPkt) (m : Mod) : calm (forwardDma q op k m) = calm m := by
  unfold forwardDma; split <;> simp
@[simp] theorem calm_arriveDma (i : Instr) (q op : Nat) (k : DmaPkt) {serve : Mod → Mod} (h : ∀ m, calm (serve m) = calm m) (m : Mod) :
    calm (arriveDma i q op k serve m) = calm m := by
  unfold arriveDma; simp [h]
@[simp] theorem calm_replyDma (q op : Nat) (k : DmaPkt) (payload : List W32) (m : Mod) : calm (replyDma q op k payload m) = calm m := by
  unfold replyDma; split <;> simp
@[simp] theorem calm_denyAt (q : Nat) (k : DmaPkt) (m : Mod) : calm (denyAt q k m) = calm m := by
  unfold denyAt; simp
@[simp] theorem calm_remoteDram (q : Nat) (get : Bool) (k : DmaPkt) (m : Mod) : calm (remoteDram q get k m) = calm m := by
  unfold remoteDram; simp
@[simp] theorem calm_servePut (q : Nat) (k : DmaPkt) (m : Mod) : calm (servePut q k m) = calm m := by
  unfold servePut; dsimp only; split <;> simp
@[simp] theorem calm_putData (q : PortId) (k : DmaPkt) (m : Mod) : calm (putData q k m) = calm m := by
  unfold putData; simp
@[simp] theorem calm_serveGet (q : Nat) (k : DmaPkt) (m : Mod) : calm (serveGet q k m) = calm m := by
  unfold serveGet; dsimp only; split <;> simp
@[simp] theorem calm_getRequest (q : PortId) (k : DmaPkt) (m : Mod) : calm (getRequest q k m) = calm m := by
  unfold getRequest; simp
@[simp] theorem calm_modAnswered (t : Nat) (p : DmaDesc → Bool) (f : DmaDesc → DmaDesc) (m : Mod) : calm (modAnswered t p f m) = calm m := by
  unfold modAnswered; simp
@[simp] theorem calm_serveGetData (k : DmaPkt) (m : Mod) : calm (serveGetData k m) = calm m := by
  unfold serveGetData; dsimp only; split <;> simp
@[simp] theorem calm_getData (q : PortId) (k : DmaPkt) (m : Mod) : calm (getData q k m) = calm m := by
  unfold getData; simp
@[simp] theorem calm_serveAck (k : DmaPkt) (m : Mod) : calm (serveAck k m) = calm m := by
  unfold serveAck; simp
@[simp] theorem calm_dmaAck (q : PortId) (k : DmaPkt) (m : Mod) : calm (dmaAck q k m) = calm m := by
  unfold dmaAck; simp
@[simp] theorem calm_serveDeny (q : Nat) (k : DmaPkt) (m : Mod) : calm (serveDeny q k m) = calm m := by
  unfold serveDeny; dsimp only; split <;> simp
@[simp] theorem calm_denied (q : PortId) (k : DmaPkt) (m : Mod) : calm (denied q k m) = calm m := by
  unfold denied; simp
@[simp] theorem calm_modRemote (q no k : Nat) (f : Piece → Piece) (m : Mod) : calm (modRemote q no k f m) = calm m := by
  unfold modRemote; simp
@[simp] theorem calm_answerRemote (q : Nat) (m : Mod) : calm (answerRemote q m) = calm m := by
  unfold answerRemote; split <;> simp
@[simp] theorem calm_answerRemotes (q : Nat) (m : Mod) : calm (answerRemotes q m) = calm m := by
  unfold answerRemotes; simp
@[simp] theorem calm_serveWinchRead (page k b : Nat) (m : Mod) : calm (serveWinchRead page k b m) = calm m := by
  unfold serveWinchRead; simp
@[simp] theorem calm_serveRemote (q no k b : Nat) (second : Bool) (m : Mod) : calm (serveRemote q no k b second m) = calm m := by
  unfold serveRemote; dsimp only; (repeat' split) <;> simp
@[simp] theorem calm_serveReq (r : Req) (m : Mod) : calm (serveReq r m) = calm m := by
  unfold serveReq; split <;> simp
@[simp] theorem calm_modCtx (e j : Nat) (f : RCtx → RCtx) (m : Mod) : calm (modCtx e j f m) = calm m := by
  unfold modCtx; simp
@[simp] theorem calm_engineFault (e j input block code : Nat) (m : Mod) : calm (engineFault e j input block code m) = calm m := by
  unfold engineFault; simp
@[simp] theorem calm_takeBlk (e input : Nat) (b : Blk) (m : Mod) : calm (takeBlk e input b m) = calm m := by
  unfold takeBlk; simp
@[simp] theorem calm_takePacketBlk (e input tag epoch : Nat) (hdr : W32) (ws : List W32) (m : Mod) :
    calm (takePacketBlk e input tag epoch hdr ws m) = calm m := by
  unfold takePacketBlk; simp
@[simp] theorem calm_reductionPacket (q : PortId) (tag : BitVec 16) (epoch : BitVec 8) (payload : List W32) (m : Mod) :
    calm (reductionPacket q tag epoch payload m) = calm m := by
  unfold reductionPacket; simp
@[simp] theorem calm_takeCompiledBlk (e : Nat) (b : W32 × List W32) (m : Mod) : calm (takeCompiledBlk e b m) = calm m := by
  unfold takeCompiledBlk; simp
@[simp] theorem calm_linkForward (e transfer : Nat) (first last : Bool) (ws : List W32) (m : Mod) :
    calm (linkForward e transfer first last ws m) = calm m := by
  unfold linkForward; simp
@[simp] theorem calm_endStall (p at_ : Nat) (m : Mod) : calm (endStall p at_ m) = calm m := by
  unfold endStall; simp
@[simp] theorem calm_tryEndStall (p : Nat) (m : Mod) : calm (tryEndStall p m) = calm m := by
  unfold tryEndStall; simp
@[simp] theorem calm_checkStall (p : Nat) (m : Mod) : calm (checkStall p m) = calm m := by
  unfold checkStall; dsimp only; (repeat' split) <;> simp
@[simp] theorem calm_forwardBeat (kind q n tag c : Nat) (ws : List W32) (m : Mod) : calm (forwardBeat kind q n tag c ws m) = calm m := by
  unfold forwardBeat; dsimp only; split <;> simp
@[simp] theorem calm_inboundBeat (q : PortId) (transfer : BitVec 16) (tag : BitVec 4) (data : List W32) (m : Mod) :
    calm (inboundBeat q transfer tag data m) = calm m := by
  unfold inboundBeat; simp
@[simp] theorem calm_portBeat (p : Nat) (m : Mod) : calm (portBeat p m) = calm m := by
  unfold portBeat; dsimp only; (repeat' split) <;> simp
@[simp] theorem calm_portBeats (p : Nat) (m : Mod) : calm (portBeats p m) = calm m := by
  unfold portBeats; simp
@[simp] theorem calm_faultPort (q : Nat) (m : Mod) : calm (faultPort q m) = calm m := by
  unfold faultPort; simp
@[simp] theorem calm_takeDma (q : PortId) (hdr payload : List W32) (m : Mod) : calm (takeDma q hdr payload m) = calm m := by
  unfold takeDma; simp
@[simp] theorem calm_takePacket (q : PortId) (cls first : Nat) (beats : List (List W32)) (m : Mod) :
    calm (takePacket q cls first beats m) = calm m := by
  unfold takePacket; split <;> simp
@[simp] theorem calm_takePacketBeat (q : PortId) (cls seq : Nat) (first last : Bool) (body : List W32) (m : Mod) :
    calm (takePacketBeat q cls seq first last body m) = calm m := by
  unfold takePacketBeat; dsimp only; split <;> simp
@[simp] theorem calm_takeBeat (q : PortId) (failed : Bool) (hdr : W64) (body : List W32) (m : Mod) :
    calm (takeBeat q failed hdr body m) = calm m := by
  unfold takeBeat; simp
@[simp] theorem calm_takeDelayed (q : PortId) (n0 : Nat) (m : Mod) : calm (takeDelayed q n0 m) = calm m := by
  induction n0 generalizing m with
  | zero => rfl
  | succ n ih => unfold takeDelayed; split <;> simp [ih]
@[simp] theorem calm_nakAt (q : PortId) (seq : BitVec 16) (m : Mod) : calm (nakAt q seq m) = calm m := by
  unfold nakAt; simp
@[simp] theorem calm_deliverHeld (i : Instr) (m : Mod) : calm (deliverHeld i m) = calm m := by
  unfold deliverHeld; split <;> simp
@[simp] theorem calm_deliverAll (m : Mod) : calm (deliverAll m) = calm m := by
  unfold deliverAll; simp
@[simp] theorem calm_checkStalls (m : Mod) : calm (checkStalls m) = calm m := by
  unfold checkStalls; simp
@[simp] theorem calm_linkCycle (m : Mod) : calm (linkCycle m) = calm m := by
  unfold linkCycle
  dsimp only
  split
  · rfl
  · rw [calm_foldl (fun m x => by split <;> simp)]
    simp

/-! ### The M units and the stream engines run to their end -/

/-- The event changes only what running work may. -/
def CalmEvent (f : State → Ans) : Prop := ∀ s, ∃ m', f s = .next { s with m := m' } ∧ calm m' = calm s.m

theorem calm_viaExec {f : State → Ans} (h : CalmEvent f) (ch : Chip) (m : Mod) : calm (viaExec ch f m) = calm m := by
  obtain ⟨m', he, hm⟩ := h { chip := ch, m, pending := [] }
  unfold viaExec
  rw [he]
  exact hm

theorem execWeightBufferReady_calm (t : TileId) (b : Fin 8) : CalmEvent (execWeightBufferReady t b) := fun s => by
  refine ⟨_, rfl, ?_⟩
  dsimp only
  split <;> simp
theorem execRowCommit_calm (t : TileId) (v : Nat) : CalmEvent (execRowCommit t v) := fun s => by
  refine ⟨_, rfl, ?_⟩
  dsimp only
  split <;> simp
theorem execDrainLand_calm (t : TileId) : CalmEvent (execDrainLand t) := fun s => by
  refine ⟨_, rfl, ?_⟩
  dsimp only
  split <;> simp
theorem execMldwStart_calm (t : TileId) : CalmEvent (execMldwStart t) := fun s => by
  refine ⟨_, rfl, ?_⟩
  dsimp only
  split <;> simp
theorem execMrunStart_calm (t : TileId) : CalmEvent (execMrunStart t) := fun s => by
  refine ⟨_, rfl, ?_⟩
  dsimp only
  split <;> simp
theorem execMzeroStart_calm (t : TileId) : CalmEvent (execMzeroStart t) := fun s => by
  refine ⟨_, rfl, ?_⟩
  dsimp only
  split <;> simp
theorem execMdrainStart_calm (t : TileId) : CalmEvent (execMdrainStart t) := fun s => by
  refine ⟨_, rfl, ?_⟩
  dsimp only
  split <;> simp
theorem execMwgbStart_calm (t : TileId) : CalmEvent (execMwgbStart t) := fun s => by
  refine ⟨_, rfl, ?_⟩
  dsimp only
  split <;> simp
theorem execStreamWriteAck_calm (t : TileId) (k : Nat) : CalmEvent (execStreamWriteAck t k) := fun s => by
  refine ⟨_, rfl, ?_⟩
  dsimp only
  split
  · rfl
  · split <;> simp
theorem execStreamReadData_calm (t : TileId) (k : Nat) : CalmEvent (execStreamReadData t k) := fun s => by
  refine ⟨_, rfl, ?_⟩
  dsimp only
  split
  · rfl
  · split <;> simp

/-- A round of the M unit up to the start of what heads its queue: buffers are ready, a row is committed, a drain lands. -/
def mLanded (ch : Chip) (t : TileId) (m : Mod) : Mod :=
  let m := (tdOf m t.val).mloads.foldl (fun m x => viaExec ch (execWeightBufferReady t ⟨x.slot % 8, Nat.mod_lt _ (by decide)⟩) m) m
  let m := match (tdOf m t.val).mruns with
    | r :: _ => viaExec ch (execRowCommit t r.done) m
    | [] => m
  viaExec ch (execDrainLand t) m

theorem calm_mLanded (ch : Chip) (t : TileId) (m : Mod) : calm (mLanded ch t m) = calm m := by
  have hready := calm_foldl (fun (m : Mod) (x : MLoading) =>
    calm_viaExec (execWeightBufferReady_calm t ⟨x.slot % 8, Nat.mod_lt _ (by decide)⟩) ch m) (tdOf m t.val).mloads m
  refine (calm_viaExec (execDrainLand_calm t) ch _).trans ?_
  split
  · exact (calm_viaExec (execRowCommit_calm t _) ch _).trans hready
  · exact hready

@[simp] theorem calm_mRound (ch : Chip) (t : TileId) (m : Mod) : calm (mRound ch t m) = calm m := by
  have h := calm_mLanded ch t m
  unfold mRound
  dsimp only
  split
  · exact h
  · split
    · exact (calm_viaExec (execMldwStart_calm t) ch _).trans h
    · exact (calm_viaExec (execMrunStart_calm t) ch _).trans h
    · exact (calm_viaExec (execMzeroStart_calm t) ch _).trans h
    · exact (calm_viaExec (execMdrainStart_calm t) ch _).trans h
    · exact (calm_viaExec (execMwgbStart_calm t) ch _).trans h

@[simp] theorem calm_finishM (ch : Chip) (t : TileId) (n : Nat) (m : Mod) : calm (finishM ch t n m) = calm m := by
  induction n generalizing m with
  | zero => rfl
  | succ n ih => unfold finishM; simp [ih]

@[simp] theorem calm_finishStreams (ch : Chip) (t : TileId) (n : Nat) (m : Mod) : calm (finishStreams ch t n m) = calm m := by
  induction n generalizing m with
  | zero => rfl
  | succ n ih =>
    unfold finishStreams
    split
    · rw [ih]; simp [modChan]
    · dsimp only
      split
      · rfl
      · split
        · exact (ih _).trans (calm_viaExec (execStreamWriteAck_calm t 0) ch m)
        · split
          · exact (ih _).trans (calm_viaExec (execStreamReadData_calm t _) ch m)
          · rfl

@[simp] theorem calm_idleEngines (ch : Chip) (p : Nat) (m : Mod) : calm (idleEngines ch p m) = calm m := by
  unfold idleEngines
  exact calm_foldl (fun m t => by split <;> simp) _ m

end Sys2Proof.Machine
end

section
/-! Proofs. The tick counter. -/

namespace Sys2Proof.Machine

/-- The module without its working tables and its partitions. -/
def clock (m : Mod) : Mod := (calm m).1

theorem clock_of_calm {m n : Mod} (h : calm n = calm m) : clock n = clock m := congrArg Prod.fst h
@[simp] theorem clock_modPart (p : Nat) (f : Part → Part) (m : Mod) : clock (modPart p f m) = clock m := by unfold clock calm; rfl
theorem clock_foldl {α : Type} {f : Mod → α → Mod} (h : ∀ m a, clock (f m a) = clock m) (l : List α) (m : Mod) :
    clock (l.foldl f m) = clock m := by
  induction l generalizing m with
  | nil => rfl
  | cons a l ih => exact (ih _).trans (h m a)

theorem clock_orderScrub (p cause : Nat) (last : JobState) (m : Mod) : clock (orderScrub p cause last m) = clock m := by
  have hevent : ∀ n : Mod, clock n = clock m → clock (hostEvent 0x02 p 0xFFFF cause 0 n) = clock m :=
    fun n hn => (clock_of_calm (calm_hostEvent ..)).trans hn
  unfold orderScrub
  dsimp only
  split
  · refine (clock_of_calm (calm_foldl (fun _ _ => by simp) _ _)).trans ?_
    exact (clock_modPart ..).trans (hevent _ (clock_modPart ..))
  · exact (clock_modPart ..).trans (hevent _ (clock_modPart ..))

theorem clock_endsDue (ch : Chip) (m : Mod) : clock (endsDue ch m) = clock m := by
  refine clock_foldl (fun m p => ?_) _ m
  split
  · split
    · exact (clock_orderScrub ..).trans (clock_of_calm (calm_idleEngines ..))
    · rfl
  · rfl

theorem clock_respond (r : Resp) (m : Mod) : clock (respond r m) = clock m := by
  rw [respond_rest]; unfold clock calm; rfl
theorem clock_finishCommand (m : Mod) : clock (finishCommand m) = clock m := by
  unfold finishCommand
  split
  · split
    · rfl
    · exact clock_respond ..
  · rfl
theorem clock_answerQuote (m : Mod) : clock (answerQuote m) = clock m := by
  unfold answerQuote
  split
  · split
    · exact clock_respond ..
    · rfl
  · rfl

/-- The module also without its time, what the lines of the board carry and what waits for a tick: its role, registers and power, and what is
being aligned. -/
def settled (m : Mod) : Mod :=
  { clock m with
    now := 0, lost := 0, tick := 0, phase := 0, tickOutHigh := 0, lineLow := false, released := false, lineOn := false, releaseDue := false, others := [] }

theorem settled_of_clock {m n : Mod} (h : clock n = clock m) : settled n = settled m := by unfold settled; rw [h]

@[simp] theorem clock_tick (m : Mod) : (clock m).tick = m.tick := by unfold clock calm; rfl
@[simp] theorem clock_phase (m : Mod) : (clock m).phase = m.phase := by unfold clock calm; rfl
@[simp] theorem clock_now (m : Mod) : (clock m).now = m.now := by unfold clock calm; rfl
@[simp] theorem settled_power (m : Mod) : (settled m).power = m.power := by unfold settled clock calm; rfl
@[simp] theorem settled_syncing (m : Mod) : (settled m).syncing = m.syncing := by unfold settled clock calm; rfl

theorem tick_of_clock {m n : Mod} (h : clock n = clock m) : n.tick = m.tick ∧ n.phase = m.phase ∧ n.now = m.now :=
  ⟨by rw [← clock_tick n, h, clock_tick], by rw [← clock_phase n, h, clock_phase], by rw [← clock_now n, h, clock_now]⟩
theorem power_of_settled {m n : Mod} (h : settled n = settled m) : n.power = m.power := by
  rw [← settled_power n, h, settled_power]
theorem syncing_of_settled {m n : Mod} (h : settled n = settled m) : n.syncing = m.syncing := by
  rw [← settled_syncing n, h, settled_syncing]

/-- A module some source cycles later within its tick: the clocks of tiles and fabric pass them too unless they stand still (R23, R30). -/
structure Later (n : Nat) (m m' : Mod) : Prop where
  tick : m'.tick = m.tick
  phase : m'.phase = m.phase + n
  now : m'.now = if m.power.active then m.now else m.now + n
  settled : settled m' = settled m

theorem Later.of_clock {m m' : Mod} (h : clock m' = clock m) : Later 0 m m' := by
  obtain ⟨ht, hp, hn⟩ := tick_of_clock h
  exact ⟨ht, hp, by rw [hn, Nat.add_zero, ite_self], settled_of_clock h⟩

theorem Later.trans {a b : Nat} {m n k : Mod} (h : Later a m n) (g : Later b n k) : Later (a + b) m k := by
  refine ⟨g.tick.trans h.tick, by rw [g.phase, h.phase, Nat.add_assoc], ?_, g.settled.trans h.settled⟩
  rw [g.now, h.now, power_of_settled h.settled]
  split
  · rfl
  · exact Nat.add_assoc ..

theorem lineNow_later (m : Mod) : Later 0 m (lineNow m) := by
  unfold lineNow
  split
  · exact ⟨rfl, rfl, (ite_self _).symm, by unfold settled clock calm; rfl⟩
  · exact Later.of_clock rfl
theorem lowerTick_later (m : Mod) : Later 0 m (lowerTick m) := by
  unfold lowerTick
  split
  · exact ⟨rfl, rfl, (ite_self _).symm, by unfold settled clock calm; rfl⟩
  · exact Later.of_clock rfl

theorem advance_later (n : Nat) (m : Mod) : Later n m (advance n m) := by
  have hpass : Later n m { m with
      now := if m.power.active then m.now else m.now + n, lost := if m.power.active then m.lost + n else m.lost, phase := m.phase + n } :=
    ⟨rfl, rfl, rfl, by unfold settled clock calm; rfl⟩
  have hline : ∀ y : Mod, Later 0 y (if m.phase < 480 && decide (480 ≤ m.phase + n) then lineNow y else y) := fun y => by
    split
    · exact lineNow_later y
    · exact Later.of_clock rfl
  unfold advance
  dsimp only
  split
  · exact hpass.trans ((lowerTick_later _).trans (hline _))
  · exact hpass.trans ((hline _).trans (lowerTick_later _))

theorem passCycles_later (n : Nat) (m : Mod) : Later n m (passCycles n m) := by
  have hstalls : ∀ y : Mod, Later 0 y (checkStalls y) := fun y => Later.of_clock (clock_of_calm (calm_checkStalls y))
  induction n generalizing m with
  | zero => exact Later.of_clock rfl
  | succ n ih =>
    unfold passCycles
    split
    · have hcycle := (Later.of_clock (clock_of_calm (calm_linkCycle m))).trans ((advance_later 1 _).trans ((hstalls _).trans (ih _)))
      rwa [show 0 + (1 + (0 + n)) = n + 1 by omega] at hcycle
    · exact (advance_later (n + 1) m).trans (hstalls _)

/-! ### Cycle 0 of a tick -/

theorem clock_sendSym (q ty : Nat) (tag : BitVec 16) (seq arg : W32) (m : Mod) : clock (sendSym q ty tag seq arg m) = clock m :=
  clock_of_calm (calm_sendSym ..)
theorem clock_sendDown (ty : Nat) (tag : BitVec 16) (seq arg : W32) (m : Mod) : clock (sendDown ty tag seq arg m) = clock m :=
  clock_foldl (fun _ _ => clock_sendSym ..) _ m
theorem clock_drawOffset (q : Nat) (m : Mod) : clock (drawOffset q m) = clock m :=
  clock_of_calm ((calm_modPort ..).trans (calm_takeFree m))
theorem clock_sendTicks (m : Mod) : clock (sendTicks m) = clock m :=
  clock_foldl (fun _ _ => (clock_sendSym ..).trans (clock_drawOffset ..)) _ m
theorem clock_sendRecords (m : Mod) : clock (sendRecords m) = clock m := by
  unfold sendRecords
  split
  · rfl
  · refine clock_foldl (fun m q => ?_) _ m
    split
    · refine (clock_of_calm (calm_emit ..)).trans ?_
      split
      · rfl
      · exact clock_drawOffset ..
    · rfl
theorem clock_faultPort (q : Nat) (m : Mod) : clock (faultPort q m) = clock m := clock_of_calm (calm_faultPort q m)
theorem clock_askEcho (q : Nat) (m : Mod) : clock (askEcho q m) = clock m := by
  unfold askEcho
  exact (clock_sendSym ..).trans (clock_of_calm (by simp))
theorem clock_startEchoes (q : Nat) (m : Mod) : clock (startEchoes q m) = clock m := by
  have hpeer : ∀ g : Port → Port, clock (modPort q g (takeFree (takeFree m).2).2) = clock m := fun _ =>
    clock_of_calm ((calm_modPort ..).trans ((calm_takeFree _).trans (calm_takeFree m)))
  unfold startEchoes
  refine (apply_ite clock _ _ _).trans ?_
  rw [clock_faultPort, clock_askEcho, ite_self]
  exact hpeer _
theorem clock_trainings (m : Mod) : clock (trainings m) = clock m := by
  refine clock_foldl (fun m x => ?_) _ m
  split
  · exact clock_startEchoes ..
  · rfl
theorem clock_sampleQuote (m : Mod) : clock (sampleQuote m) = clock m := by unfold sampleQuote clock calm; rfl


theorem settled_sendAbandons (m : Mod) : Later 0 m (sendAbandons m) := by
  have hsent : ∀ (n : Mod) (e : Nat × OtherJob) seq word, Later 0 n (sendDown symAbandon (BitVec.ofNat 16 e.1) seq (wireWord word)
      { n with others := mmod {} n.others e.1 (fun o => { o with abandon := none }) }) := fun n e seq word => by
    have hkept : Later 0 n { n with others := mmod {} n.others e.1 (fun o => { o with abandon := none }) } :=
      ⟨rfl, rfl, (ite_self _).symm, by unfold settled clock calm; rfl⟩
    exact hkept.trans (Later.of_clock (clock_sendDown ..))
  unfold sendAbandons
  split
  · exact Later.of_clock rfl
  · rename_i hrole
    clear hrole
    generalize m.others = l
    induction l generalizing m with
    | nil => exact Later.of_clock rfl
    | cons e l ih =>
      refine Later.trans (a := 0) (b := 0) ?_ (ih _)
      dsimp only
      split
      · split
        · exact hsent ..
        · exact Later.of_clock rfl
      · exact Later.of_clock rfl

/-- The lines of the board at cycle 0 of a tick: the barrier line, and TICK_OUT (R370, R371, R510). -/
def tickLines (m : Mod) : Mod :=
  let m := lineNow m
  let m := if m.position = 0 && (m.lock == .locked || m.lock == .holdover) then raiseTick m else m
  if m.power.active && m.released && !m.bridleDone then emit (.barrier false) { m with released := false, releaseDue := true } else m

theorem atTick_eq {m : Mod} (hs : m.syncing = none) :
    atTick m = trainings (sampleQuote (sendAbandons (sendRecords (sendTicks (tickLines m))))) := by
  have hload : loadNumber m = m := by unfold loadNumber; rw [hs]
  unfold atTick
  rw [hload]
  rfl

theorem raiseTick_later (m : Mod) : Later 0 m (raiseTick m) :=
  ⟨rfl, rfl, (ite_self _).symm, by unfold raiseTick settled clock calm; rfl⟩
theorem tickLines_later (m : Mod) : Later 0 m (tickLines m) := by
  have hraise : ∀ (c : Bool) (y : Mod), Later 0 y (if c then raiseTick y else y) := fun c y => by
    split
    · exact raiseTick_later y
    · exact Later.of_clock rfl
  have hrelease : ∀ (c : Bool) (y : Mod), Later 0 y (if c then emit (.barrier false) { y with released := false, releaseDue := true } else y) :=
    fun c y => by
    split
    · exact ⟨rfl, rfl, (ite_self _).symm, by unfold settled clock calm; rfl⟩
    · exact Later.of_clock rfl
  unfold tickLines
  extract_lets lined raised
  exact (lineNow_later m).trans ((hraise _ lined).trans (hrelease _ raised))

/-- What happens at cycle 0 of a tick, but for a number that a TICK_SYNC loads, takes no time and changes no role. -/
theorem atTick_later {m : Mod} (hs : m.syncing = none) : Later 0 m (atTick m) := by
  rw [atTick_eq hs]
  exact (tickLines_later m).trans ((Later.of_clock (clock_sendTicks _)).trans ((Later.of_clock (clock_sendRecords _)).trans
    ((settled_sendAbandons _).trans ((Later.of_clock (clock_sampleQuote _)).trans (Later.of_clock (clock_trainings _))))))

/-- Cycle 0 of the next tick from the last cycle of this one, before what happens there. -/
def cycleZero (m : Mod) : Mod := checkStalls (dueTrapsNow { advance 1 (linkCycle m) with tick := m.tick + 1, phase := 0 })

theorem cycleZero_fields (m : Mod) : (cycleZero m).phase = 0 ∧ (cycleZero m).tick = m.tick + 1 ∧
    (cycleZero m).now = (if m.power.active then m.now else m.now + 1) ∧ settled (cycleZero m) = settled m := by
  have hlast := (Later.of_clock (clock_of_calm (calm_linkCycle m))).trans (advance_later 1 _)
  unfold cycleZero
  generalize advance 1 (linkCycle m) = n at hlast
  have hset : settled { n with tick := m.tick + 1, phase := 0 } = settled m := Eq.trans (by unfold settled clock calm; rfl) hlast.settled
  have hzero : Later 0 { n with tick := m.tick + 1, phase := 0 } (checkStalls (dueTrapsNow { n with tick := m.tick + 1, phase := 0 })) :=
    Later.of_clock (clock_of_calm ((calm_checkStalls _).trans (calm_dueTrapsNow _)))
  refine ⟨hzero.phase, hzero.tick, ?_, hzero.settled.trans hset⟩
  rw [hzero.now, Nat.add_zero, ite_self]
  exact hlast.now

/-- The next tick (R30): its cycle 0, one tick on. -/
theorem nextTick_later {m : Mod} (hs : m.syncing = none) :
    (nextTick m).phase = 0 ∧ (nextTick m).tick = m.tick + 1 ∧
      (nextTick m).now = (if m.power.active then m.now else m.now + (639 - m.phase) + 1) ∧ settled (nextTick m) = settled m := by
  have hlast := (passCycles_later (639 - m.phase) m).trans (Later.of_clock (clock_answerQuote _))
  obtain ⟨hphase, htick, hnow, hset⟩ := cycleZero_fields (answerQuote (passCycles (639 - m.phase) m))
  have hall := atTick_later ((syncing_of_settled (hset.trans hlast.settled)).trans hs)
  refine ⟨hall.phase.trans hphase, hall.tick.trans (htick.trans (by rw [hlast.tick])), hall.now.trans ?_, hall.settled.trans (hset.trans hlast.settled)⟩
  rw [Nat.add_zero, ite_self, hnow, hlast.now, power_of_settled hlast.settled]
  split <;> rfl

/-- What is due of commands leaves the time (R429). -/
theorem finishDue_later (ch : Chip) (m : Mod) : Later 0 m (finishCommand (endsDue ch m)) :=
  Later.of_clock ((clock_finishCommand _).trans (clock_endsDue ch m))

/-- A cycle before the last of its tick (R30). -/
theorem passCycle_within {ch : Chip} {m : Mod} (h : m.phase < 639) : Later 1 m (passCycle ch m) := by
  have hdue := finishDue_later ch m
  unfold passCycle
  dsimp only
  rw [if_pos (by rw [hdue.phase]; exact h)]
  exact (hdue.trans (passCycles_later 1 _)).trans (Later.of_clock (clock_of_calm (calm_dueTrapsNow _)))

/-- The last cycle of a tick leads to cycle 0 of the next (R30). -/
theorem passCycle_last {ch : Chip} {m : Mod} (hs : m.syncing = none) (h : ¬ m.phase < 639) :
    (passCycle ch m).phase = 0 ∧ (passCycle ch m).tick = m.tick + 1 := by
  have hdue := finishDue_later ch m
  have hnext := nextTick_later ((syncing_of_settled hdue.settled).trans hs)
  unfold passCycle
  dsimp only
  rw [if_neg (by rw [hdue.phase]; exact h)]
  exact ⟨hnext.1, hnext.2.1.trans (by rw [hdue.tick])⟩

/-- TICK_COUNTER_ADVANCE goes to cycle 0 of the next tick. -/
theorem gives_tickCounterAdvance {s : State} (hs : s.m.syncing = none) :
    Gives .tickCounterAdvance s (fun m' => m'.phase = 0 ∧ m'.tick = s.m.tick + 1 ∧
      m'.now = (if s.m.power.active then s.m.now else s.m.now + (639 - s.m.phase) + 1)) := by
  have hdue := finishDue_later s.chip s.m
  obtain ⟨hphase, htick, hnow, -⟩ := nextTick_later ((syncing_of_settled hdue.settled).trans hs)
  refine ⟨_, rfl, hphase, htick.trans (by rw [hdue.tick]), ?_⟩
  rw [hdue.phase, hdue.now, power_of_settled hdue.settled, Nat.add_zero, ite_self, Nat.add_zero] at hnow
  exact hnow

end Sys2Proof.Machine

open Sys2Proof Sys2Proof.Machine

/-- Settles O35: whatever else a cycle of the source does, the counter moves in `advance` and at the end of a tick alone. -/
theorem tickCounter : Obligations.TickCounter := by
  intro s _ hs
  refine ⟨fun hq => ⟨passCycle s.chip s.m, ?_, ?_⟩, gives_tickCounterAdvance hs⟩
  · unfold step
    rw [hq]
  · split
    · rename_i h
      exact ⟨(passCycle_within h).phase, (passCycle_within h).tick⟩
    · rename_i h
      exact passCycle_last hs h
end

section
/-! Proofs. The superstep boundary. -/

namespace Sys2Proof.Machine

@[simp] theorem calm_landBeat (t : Nat) (b : Beat) (m : Mod) : calm (landBeat t b m) = calm m := by
  unfold landBeat
  dsimp only
  split
  · exact calm_tileXch ..
  · split
    · exact calm_tileXch ..
    · exact (calm_modTd ..).trans (calm_readBeatsNow ..)
@[simp] theorem calm_landAt (p t id : Nat) (m : Mod) : calm (landAt p t id m) = calm m := by
  unfold landAt
  dsimp only
  split
  · rfl
  · simp
@[simp] theorem calm_landDue (p upto n : Nat) (m : Mod) : calm (landDue p upto n m) = calm m := by
  induction n generalizing m with
  | zero => rfl
  | succ n ih =>
    unfold landDue
    dsimp only
    split
    · rfl
    · exact (ih _).trans (calm_landAt ..)

theorem jobSide_of_calm {m n : Mod} (h : calm n = calm m) (p : Nat) : jobSide (partOf n p) = jobSide (partOf m p) := by
  unfold calm at h
  exact congrFun (congrArg Prod.snd h) p
theorem superstep_of_calm {m n : Mod} {p : Nat} (h : calm n = calm m) : (partOf n p).superstep = (partOf m p).superstep := by
  have hside := congrArg Part.superstep (jobSide_of_calm h p)
  exact hside

/-- Where a partition stands in its supersteps (R39). -/
def stands (m : Mod) (p : Nat) : BitVec 32 × XPhase × Nat := ((partOf m p).superstep, (partOf m p).xphase, (partOf m p).boundary)

theorem stands_modPart {p : Nat} {f : Part → Part} {m : Mod}
    (h : ∀ x, ((f x).superstep, (f x).xphase, (f x).boundary) = (x.superstep, x.xphase, x.boundary)) : stands (modPart p f m) p = stands m p := by
  unfold stands
  rw [partOf_modPart_self]
  exact h _
theorem stands_foldl {α : Type} {f : Mod → α → Mod} {p : Nat} (h : ∀ m a, stands (f m a) p = stands m p) (l : List α) (m : Mod) :
    stands (l.foldl f m) p = stands m p := by
  induction l generalizing m with
  | nil => rfl
  | cons a l ih => exact (ih _).trans (h m a)
theorem stands_of_parts {p : Nat} {m n : Mod} (h : partOf n p = partOf m p) : stands n p = stands m p := by
  unfold stands
  rw [h]

theorem stands_holdHalves (mask at_ : Nat) (m : Mod) (p : Nat) : stands (holdHalves mask at_ m) p = stands m p := by
  refine stands_foldl (fun m t => ?_) _ m
  dsimp only
  split
  · exact stands_of_parts (partOf_modTd ..)
  · rfl
theorem stands_holdForCkpt (p at_ : Nat) (m : Mod) : stands (holdForCkpt p at_ m) p = stands m p := by
  unfold holdForCkpt
  split
  · split
    · exact (stands_holdHalves ..).trans (stands_modPart fun _ => rfl)
    · rfl
  · rfl
theorem stands_holdForClock (p at_ : Nat) (m : Mod) : stands (holdForClock p at_ m) p = stands m p :=
  stands_foldl (fun _ _ => stands_holdHalves ..) _ m

theorem stands_signalAt (p cause detail tile : Nat) (at_ : BitVec 48 × Nat) (m : Mod) : stands (signalAt p cause detail tile at_ m) p = stands m p :=
  stands_modPart fun _ => rfl
theorem stands_noteExch (p tile port code c : Nat) (m : Mod) : stands (noteExch p tile port code c m) p = stands m p :=
  stands_modPart fun _ => rfl
theorem stands_moduleXch (p code port : Nat) (m : Mod) : stands (moduleXch p code port m) p = stands m p :=
  (stands_signalAt ..).trans (stands_noteExch ..)
theorem stands_sendUp (ty : Nat) (tag : BitVec 16) (seq arg : W32) (m : Mod) (p : Nat) : stands (sendUp ty tag seq arg m) p = stands m p := by
  unfold sendUp sendSym
  split
  · rfl
  · dsimp only
    split
    · exact stands_of_parts (partOf_emit ..)
    · rfl
theorem stands_tryReady (p : Nat) (m : Mod) : stands (tryReady p m) p = stands m p := by
  unfold tryReady
  dsimp only
  split
  · rfl
  · split
    · rfl
    · exact (stands_sendUp ..).trans (stands_modPart fun _ => rfl)
theorem stands_waitTick (p : Nat) (m : Mod) : stands (waitTick p m) p = stands m p := by
  refine stands_foldl (fun m t => ?_) _ m
  split
  · exact stands_of_parts (partOf_modTd ..)
  · rfl
/-- The local sync that closes begins no exchange phase yet (R212). -/
theorem stands_trySync (p : Nat) (m : Mod) : stands (trySync p m) p = stands m p := by
  have hslow : ∀ (c : Bool) (n : Mod), stands (if c then moduleXch p xClockState 0x3F n else n) p = stands n p := fun c n => by
    split
    · exact stands_moduleXch ..
    · rfl
  have hwait : ∀ (c : Bool) (n : Mod), stands (if c then waitTick p n else n) p = stands n p := fun c n => by
    split
    · exact stands_waitTick ..
    · rfl
  unfold trySync
  extract_lets x need r closed slow told due
  have hclose : stands closed p = stands m p := stands_modPart fun _ => rfl
  clear_value closed
  split
  · rfl
  · split
    · exact (stands_moduleXch ..).trans hclose
    · exact (stands_tryReady ..).trans ((hwait _ told).trans ((hslow _ closed).trans hclose))

/-- The exchange phase is over at its last cycle plus one: the beats of the streams up to there have been read and landed. -/
def phaseOver (p : Nat) (m : Mod) : Mod :=
  let at_ := (partOf m p).e0 + (partOf m p).xlen
  let m := (tilesOfPart m p).foldl (fun m t => readBeatsNow t at_ m) m
  landDue p at_ ((partOf m p).beats.length) m

theorem calm_phaseOver (p : Nat) (m : Mod) : calm (phaseOver p m) = calm m := by
  unfold phaseOver
  simp

/-- The next superstep of a partition, begun at a cycle: the first of the next step, if that was the last of its step. -/
def nextSuperstep (at_ : Nat) (x : Part) : Part :=
  let next := x.superstep + 1
  let x := { x with superstep := next, xphase := .compute, boundary := at_ }
  if x.committed then armStep (nextBase x) { x with stepFirst := next, committed := false, reelDone := [] } else x

theorem nextSuperstep_stands (at_ : Nat) (x : Part) :
    (nextSuperstep at_ x).superstep = x.superstep + 1 ∧ (nextSuperstep at_ x).xphase = .compute ∧ (nextSuperstep at_ x).boundary = at_ := by
  unfold nextSuperstep armStep
  dsimp only
  split <;> exact ⟨rfl, rfl, rfl⟩

/-- The boundary of a partition whose exchange phase is over (R39): the next superstep, and what waits for a boundary. -/
def boundaryFalls (p : Nat) (m : Mod) : Mod :=
  let at_ := (partOf m p).e0 + (partOf m p).xlen
  let n := modPart p (nextSuperstep at_) (phaseOver p m)
  trySync p (holdForClock p at_ (if (partOf m p).committed then holdForCkpt p at_ n else n))

theorem execSuperstepBoundary_falls {p : PartId} {s : State} (hrun : stepRuns p.val s.m) (hphase : (partOf s.m p.val).xphase = .exchange)
    (hopen : openEntries s.m p.val = []) : exec (.superstepBoundary p) s = .next { s with m := boundaryFalls p.val s.m } := by
  obtain ⟨hjob, hfail, hpower⟩ := hrun
  show execSuperstepBoundary p s = _
  unfold execSuperstepBoundary onMod
  dsimp only
  rw [if_neg (by simp [hpower, hjob, hfail, hphase, hopen])]
  rfl

theorem boundaryFalls_stands (p : Nat) (m : Mod) :
    stands (boundaryFalls p m) p = ((partOf m p).superstep + 1, .compute, (partOf m p).e0 + (partOf m p).xlen) := by
  have hkept : (partOf (phaseOver p m) p).superstep = (partOf m p).superstep := superstep_of_calm (calm_phaseOver p m)
  have hcommit : ∀ (c : Bool) (at_ : Nat) (n : Mod), stands (if c then holdForCkpt p at_ n else n) p = stands n p := fun c at_ n => by
    split
    · exact stands_holdForCkpt ..
    · rfl
  unfold boundaryFalls
  refine (stands_trySync ..).trans ((stands_holdForClock ..).trans ((hcommit ..).trans ?_))
  unfold stands
  rw [partOf_modPart_self]
  obtain ⟨hsup, hx, hb⟩ := nextSuperstep_stands ((partOf m p).e0 + (partOf m p).xlen) (partOf (phaseOver p m) p)
  rw [hsup, hx, hb, hkept]

end Sys2Proof.Machine

open Sys2Proof Sys2Proof.Machine

/-- Settles O37: the boundary is the one branch of its event that counts a superstep, and what lands with it leaves the count alone. -/
theorem superstepNumber : Obligations.SuperstepNumber := by
  intro p s
  constructor
  · intro hrun hphase hopen
    have hstands := boundaryFalls_stands p.val s.m
    unfold stands at hstands
    simp only [Prod.mk.injEq] at hstands
    obtain ⟨hsup, hx, hb⟩ := hstands
    exact ⟨_, execSuperstepBoundary_falls hrun hphase hopen, hsup, hx, hb⟩
  · intro hphase
    refine ⟨s.m, ?_, rfl⟩
    show execSuperstepBoundary p s = _
    unfold execSuperstepBoundary onMod
    simp [hphase]
end

section
/-! Proofs. The tick receiver. -/

namespace Sys2Proof.Machine

@[simp] theorem clock_lock (m : Mod) : (clock m).lock = m.lock := by unfold clock calm; rfl
@[simp] theorem clock_lastEdge (m : Mod) : (clock m).lastEdge = m.lastEdge := by unfold clock calm; rfl
@[simp] theorem clock_phaseErr (m : Mod) : (clock m).phaseErr = m.phaseErr := by unfold clock calm; rfl
@[simp] theorem clock_expiredEvent (m : Mod) : (clock m).expiredEvent = m.expiredEvent := by unfold clock calm; rfl

theorem lock_of_clock {m n : Mod} (h : clock n = clock m) : n.lock = m.lock := by rw [← clock_lock n, h, clock_lock]
theorem lastEdge_of_clock {m n : Mod} (h : clock n = clock m) : n.lastEdge = m.lastEdge := by rw [← clock_lastEdge n, h, clock_lastEdge]
theorem phaseErr_of_clock {m n : Mod} (h : clock n = clock m) : n.phaseErr = m.phaseErr := by rw [← clock_phaseErr n, h, clock_phaseErr]
theorem expiredEvent_of_clock {m n : Mod} (h : clock n = clock m) : n.expiredEvent = m.expiredEvent := by
  rw [← clock_expiredEvent n, h, clock_expiredEvent]

theorem clock_sendUp (ty : Nat) (tag : BitVec 16) (seq arg : W32) (m : Mod) : clock (sendUp ty tag seq arg m) = clock m := by
  unfold sendUp
  split
  · rfl
  · exact clock_sendSym ..
theorem clock_tryReady (p : Nat) (m : Mod) : clock (tryReady p m) = clock m := by
  unfold tryReady
  dsimp only
  split
  · rfl
  · split
    · rfl
    · exact (clock_sendUp ..).trans (clock_modPart ..)
theorem clock_readyAll (m : Mod) : clock (readyAll m) = clock m := by
  refine clock_foldl (fun m p => ?_) _ m
  split
  · exact clock_tryReady ..
  · rfl

/-- An edge that comes sooner than half a tick after the last accepted one (R33). -/
def chatters (at_ : Int) (m : Mod) : Bool :=
  match m.lastEdge with
  | some l => decide (sinceInstant l at_ < 5120) && decide (0 ≤ sinceInstant l at_)
  | none => false

theorem chatters_of_apart {at_ : Int} {m : Mod} (h : edgeApart at_ m) : chatters at_ m = false := by
  unfold chatters
  split
  · rename_i l hl
    have hfar := h l hl
    simp only [Bool.and_eq_false_iff, decide_eq_false_iff_not]
    omega
  · rfl

theorem aligning_none {m : Mod} (h : m.syncing = none) : aligning m = false := by
  unfold aligning
  rw [h]
  rfl

/-- The edge taken: noted, and holdover ends. -/
def takeEdge (at_ : Int) (m : Mod) : Mod :=
  { m with lastEdge := some (at_ % instantWrap).toNat, holdTicks := heldTicks m, lock := if m.lock = .holdover then .locked else m.lock }

/-- An edge that fits its tick is an accepted one (R33). -/
theorem tickEdge_fits {at_ : Int} {low : Option (BitVec 16)} {m : Mod} (hs : m.syncing = none) (h : edgeFits at_ low m) :
    tickEdge at_ low m = readyAll (takeEdge at_ m) := by
  obtain ⟨⟨n, hlo, hhi, hlow⟩, hapart⟩ := h
  have hnear : (at_ + 5120) / 10240 = n := by omega
  have hchat : ¬(chatters at_ m = true) := by rw [chatters_of_apart hapart]; exact Bool.false_ne_true
  unfold tickEdge
  dsimp only
  rw [hnear, aligning_none hs]
  refine (if_neg hchat).trans ((if_neg Bool.false_ne_true).trans ((if_pos ?_).trans ?_))
  · obtain rfl | rfl := hlow
    · simp; omega
    · simp; omega
  · rfl

theorem edgeTaken_takeEdge (at_ : Int) (m : Mod) : edgeTaken at_ m (readyAll (takeEdge at_ m)) := by
  have hkept := clock_readyAll (takeEdge at_ m)
  exact ⟨lastEdge_of_clock hkept, lock_of_clock hkept, (phaseErr_of_clock hkept).trans rfl⟩

/-- An edge that counts as a phase error. -/
def phaseError (m : Mod) : Mod :=
  hostEvent 0x04 0xFF 0xFFFF 3 0 (noteSet 0x1008 2 [] { m with phaseErr := satAdd 16 m.phaseErr 1, phaseEvent := true })

/-- An edge in the middle of a tick is a phase error (R33). -/
theorem tickEdge_off {low : Option (BitVec 16)} {m : Mod} (hs : m.syncing = none) (hlo : 16 < m.phase) (hhi : m.phase < 624)
    (hapart : edgeApart (instant m) m) : tickEdge (instant m) low m = phaseError m := by
  have hchat : ¬(chatters (instant m) m = true) := by rw [chatters_of_apart hapart]; exact Bool.false_ne_true
  have hoff : ¬(-256 ≤ instant m - (instant m + 5120) / 10240 * 10240 ∧ instant m - (instant m + 5120) / 10240 * 10240 ≤ 256) := by
    unfold instant
    omega
  unfold tickEdge
  dsimp only
  rw [aligning_none hs]
  refine (if_neg hchat).trans ((if_neg Bool.false_ne_true).trans ((if_neg ?_).trans ?_))
  · simp only [Bool.and_eq_true, decide_eq_true_eq]
    exact fun h => hoff h.1
  · rfl

theorem phaseError_keeps (m : Mod) : (phaseError m).phaseErr = satAdd 16 m.phaseErr 1 ∧ (phaseError m).phaseEvent = true ∧
    (phaseError m).lock = m.lock ∧ (phaseError m).lastEdge = m.lastEdge := by
  obtain ⟨b, u, he, -, -⟩ := hostEvent_rest 0x04 0xFF 0xFFFF 3 0
    (noteSet 0x1008 2 [] { m with phaseErr := satAdd 16 m.phaseErr 1, phaseEvent := true })
  unfold phaseError
  rw [he]
  exact ⟨rfl, rfl, rfl, rfl⟩

/-- TICK_EDGE at the tick input of a board's first module. -/
theorem execTickEdge_input {s : State} (b : BitVec 16) (hrole : s.m.role = roleBoard) :
    exec (.tickEdge (some b)) s = .next { s with m := tickEdge (instant s.m) (some b) s.m } := by
  show execTickEdge (some b) s = _
  unfold execTickEdge onMod
  simp [hrole, roleBoard, roleMaster, rolePeer]

/-- TICK_EDGE at the pin of a board's other modules: the pin repeats it, and the module looks at it a hop's delay before. -/
theorem execTickEdge_pin {s : State} (hrole : s.m.role = rolePeer) :
    exec (.tickEdge none) s = .next { s with m := tickEdge (instant (pinEdge s.m) - ((pinEdge s.m).hopDelay : Int)) none (pinEdge s.m) } := by
  have hkept : (pinEdge s.m).role = s.m.role := by
    unfold pinEdge
    dsimp only
    split <;> rfl
  show execTickEdge none s = _
  unfold execTickEdge onMod
  simp [hkept, hrole, roleMaster, rolePeer]

theorem pinEdge_keeps (m : Mod) : instant (pinEdge m) = instant m ∧ (pinEdge m).hopDelay = m.hopDelay ∧ (pinEdge m).syncing = m.syncing ∧
    (pinEdge m).lastEdge = m.lastEdge ∧ (pinEdge m).lock = m.lock ∧ (pinEdge m).phaseErr = m.phaseErr := by
  unfold pinEdge
  dsimp only
  split <;> exact ⟨rfl, rfl, rfl, rfl, rfl, rfl⟩

/-- TICK from upstream: the departure was the hop's delay and the offset it carries before. -/
theorem execTick_up {q : PortId} {arg : W32} {s : State} (hup : fromUp s.m q.val = true) (hrole : s.m.role ≠ rolePeer) :
    exec (.tick q arg) s = .next { s with
      m := tickEdge (instant s.m - ((if s.m.hopDelay = 0 then (portOf s.m q.val).tickDelay16 else s.m.hopDelay : Nat) : Int) -
        (bits arg.toNat 31 16 : Int)) (some (BitVec.ofNat 16 arg.toNat)) s.m } := by
  show execTick q arg s = _
  unfold execTick onMod
  simp [hup, hrole]

theorem ofNat_toNat_eq_extractLsb' (arg : W32) : BitVec.ofNat 16 arg.toNat = arg.extractLsb' 0 16 := by
  apply BitVec.eq_of_toNat_eq
  simp

/-! Holdover -/

/-- The module that leaves holdover EXPIRED (R37). -/
def expired (m : Mod) : Mod :=
  hostEvent 0x04 0xFF 0xFFFF 2 0 (noteSet 0x1008 1 [] { m with expiredEvent := true, lock := .expired, holdTicks := 1024 })

/-- TICK_EXPIRED is signalled to a partition that runs. -/
def signalExpired (m : Mod) (p : Nat) : Mod := if (partOf m p).jstate = .running then signalModule p 0x0F 0 m else m

theorem execHoldoverExpiry_due {s : State} (h : s.m.lock = .holdover ∧ 1024 * 640 ≤ s.m.now + s.m.lost - s.m.holdFrom) :
    exec .holdoverExpiry s = .next { s with m := (List.range 8).foldl signalExpired (expired s.m) } := by
  have hticks : ¬ heldTicks s.m < 1024 := by
    unfold heldTicks srcNow
    rw [if_pos h.1]
    simp only [Nat.min_def]
    split <;> omega
  show execHoldoverExpiry s = _
  unfold execHoldoverExpiry onMod
  dsimp only
  rw [if_neg (by simp [h.1, Nat.not_lt.mp hticks])]
  rfl

theorem execHoldoverExpiry_early {s : State} (h : ¬(s.m.lock = .holdover ∧ 1024 * 640 ≤ s.m.now + s.m.lost - s.m.holdFrom)) :
    exec .holdoverExpiry s = .next s := by
  have hticks : s.m.lock = .holdover → heldTicks s.m < 1024 := fun hl => by
    have hq : ¬ 1024 * 640 ≤ s.m.now + s.m.lost - s.m.holdFrom := fun hq => h ⟨hl, hq⟩
    unfold heldTicks srcNow
    rw [if_pos hl]
    simp only [Nat.min_def]
    split <;> omega
  show execHoldoverExpiry s = _
  unfold execHoldoverExpiry onMod
  dsimp only
  rw [if_pos]
  by_cases hl : s.m.lock = .holdover
  · simp [hticks hl]
  · simp [hl]

theorem clock_signalExpired (m : Mod) (p : Nat) : clock (signalExpired m p) = clock m := by
  unfold signalExpired
  split
  · exact clock_modPart ..
  · rfl

/-- The signal comes once to each partition that runs. -/
theorem foldl_signalExpired {l : List Nat} (hl : l.Nodup) (m : Mod) (p : Nat) :
    (partOf (l.foldl signalExpired m) p).causes.map (·.cause) = (partOf m p).causes.map (·.cause) ++
      if p ∈ l ∧ (partOf m p).jstate = .running then [0x0F] else [] := by
  induction l generalizing m with
  | nil => simp
  | cons r l ih =>
    obtain ⟨hr, hl⟩ := List.nodup_cons.mp hl
    rw [List.foldl_cons, ih hl]
    have hone : partOf (signalExpired m r) p = if r = p ∧ (partOf m p).jstate = .running then
        { partOf m p with causes := (partOf m p).causes ++ [{ cause := 0x0F, detail := 0, tile := 0x1FFF, tick := m.tick, phase := m.phase }] }
        else partOf m p := by
      unfold signalExpired signalModule signalAt
      by_cases hrp : r = p
      · subst hrp
        split <;> simp [*]
      · split <;> simp [*, partOf_modPart]
    rw [hone]
    by_cases hrp : r = p
    · subst hrp
      by_cases hj : (partOf m r).jstate = .running <;> simp [hr, hj]
    · have hpr : ¬ p = r := fun h => hrp h.symm
      simp [hrp, hpr]

theorem partOf_expired (m : Mod) (p : Nat) : partOf (expired m) p = partOf m p := by
  obtain ⟨b, u, he, -, -⟩ := hostEvent_rest 0x04 0xFF 0xFFFF 2 0
    (noteSet 0x1008 1 [] { m with expiredEvent := true, lock := .expired, holdTicks := 1024 })
  unfold expired
  rw [he]
  rfl
theorem expired_shows (m : Mod) : (expired m).lock = .expired ∧ (expired m).expiredEvent = true := by
  obtain ⟨b, u, he, -, -⟩ := hostEvent_rest 0x04 0xFF 0xFFFF 2 0
    (noteSet 0x1008 1 [] { m with expiredEvent := true, lock := .expired, holdTicks := 1024 })
  unfold expired
  rw [he]
  exact ⟨rfl, rfl⟩

/-! Alignment -/

/-- An alignment record from upstream on a module that a TICK_SYNC aligns. -/
theorem execAlignmentRecord_aligns {q : PortId} {n : BitVec 48} {off16 : Nat} {loaded : Bool} {s : State} (ha : aligning s.m = true)
    (hq : q.val = s.m.upstream) (hup : (portOf s.m q.val).state = .up) :
    exec (.alignmentRecord q n off16 loaded) s = .next { s with m :=
      if !loaded then { s.m with phase := ((portOf s.m q.val).tickDelay16 + off16) / 16 % 640 }
      else { s.m with
        tick := n + BitVec.ofNat 48 (((portOf s.m q.val).tickDelay16 + off16) / 16 / 640)
        phase := ((portOf s.m q.val).tickDelay16 + off16) / 16 % 640, lock := .locked, alignLoaded := true
        source := if s.m.role = rolePeer then 1 else 2
        lastEdge := some ((n + BitVec.ofNat 48 (((portOf s.m q.val).tickDelay16 + off16) / 16 / 640)).toNat * 640 * 16) } } := by
  show execAlignmentRecord q n off16 loaded s = _
  unfold execAlignmentRecord onMod
  dsimp only
  rw [if_neg (by simp [ha, hq.symm, hup])]

theorem execAlignmentReport_kept {q : PortId} {delay : Nat} {s : State} (hq : (downPorts s.m).contains q.val = true)
    (hup : (portOf s.m q.val).state = .up) :
    exec (.alignmentReport q delay) s = .next { s with m := { s.m with reports := mset 0 s.m.reports q.val (delay + 1) } } := by
  show execAlignmentReport q delay s = _
  unfold execAlignmentReport onMod
  dsimp only
  rw [if_pos (by rw [hq, hup]; rfl)]

end Sys2Proof.Machine

open Sys2Proof Sys2Proof.Machine

/-- Settles O38, by the one rule of an accepted edge for each of its sources; what an edge or a record sends on leaves the clock alone. -/
theorem tickReceiver : Obligations.TickReceiver := by
  intro s
  refine ⟨fun b hs hrole hfit => ?_, fun hs hrole hfit => ?_, fun q arg at_ hs hup hrole hat hfit => ?_, fun b hs hrole hlo hhi hapart => ?_,
    ?_, fun q n off16 ha hq hup => ?_, fun q n off16 ha hq hup => ?_, fun q delay hq hup => ?_⟩
  · exact ⟨_, execTickEdge_input b hrole, by rw [tickEdge_fits hs hfit]; exact edgeTaken_takeEdge ..⟩
  · obtain ⟨hinst, hhop, hsync, hedge, hlock, herr⟩ := pinEdge_keeps s.m
    refine ⟨_, execTickEdge_pin hrole, ?_⟩
    have hpin : edgeFits (instant s.m - (s.m.hopDelay : Int)) none (pinEdge s.m) := ⟨hfit.1, by unfold edgeApart; rw [hedge]; exact hfit.2⟩
    have htaken := edgeTaken_takeEdge (instant s.m - (s.m.hopDelay : Int)) (pinEdge s.m)
    rw [hinst, hhop, tickEdge_fits (hsync.trans hs) hpin]
    unfold edgeTaken at htaken ⊢
    rwa [hlock, herr] at htaken
  · refine ⟨_, execTick_up hup hrole, ?_⟩
    rw [← hat, ofNat_toNat_eq_extractLsb', tickEdge_fits hs hfit]
    exact edgeTaken_takeEdge ..
  · exact ⟨_, execTickEdge_input b hrole, by rw [tickEdge_off hs hlo hhi hapart]; exact phaseError_keeps _⟩
  · by_cases h : s.m.lock = .holdover ∧ 1024 * 640 ≤ s.m.now + s.m.lost - s.m.holdFrom
    · have hkept : clock ((List.range 8).foldl signalExpired (expired s.m)) = clock (expired s.m) := clock_foldl clock_signalExpired _ _
      refine ⟨_, execHoldoverExpiry_due h, ?_⟩
      dsimp only
      rw [if_pos h]
      refine ⟨(lock_of_clock hkept).trans (expired_shows _).1, (expiredEvent_of_clock hkept).trans (expired_shows _).2, fun p hp => ?_⟩
      rw [foldl_signalExpired List.nodup_range, partOf_expired]
      simp [hp]
    · exact ⟨_, execHoldoverExpiry_early h, by dsimp only; rw [if_neg h]⟩
  · exact ⟨_, execAlignmentRecord_aligns ha hq hup, rfl, rfl⟩
  · exact ⟨_, execAlignmentRecord_aligns ha hq hup, rfl, rfl, rfl⟩
  · exact ⟨_, execAlignmentReport_kept hq hup, by dsimp only; exact mget_mset_self ..⟩
end

section
/-! Proofs. Clock events, decisions of Ballast and clock switches. -/

namespace Sys2Proof.Machine

/-! Changes of several halves -/

theorem maskBits_nodup (n v : Nat) : (maskBits n v).Nodup := by
  unfold maskBits indices
  exact List.nodup_range.filter _

/-- The same change at several halves, once each. -/
theorem halfSt_foldl_modHalf {f : HalfSt → HalfSt} {l : List Nat} (hl : l.Nodup) (m : Mod) (k : Nat) :
    halfSt (l.foldl (fun m h => modHalf h f m) m) k = if k ∈ l then f (halfSt m k) else halfSt m k := by
  induction l generalizing m with
  | nil => simp
  | cons h l ih =>
    obtain ⟨hh, hl⟩ := List.nodup_cons.mp hl
    rw [List.foldl_cons, ih hl]
    by_cases hk : h = k
    · subst hk; simp [hh]
    · have hk' : ¬ k = h := fun e => hk e.symm
      simp [hk, hk', halfSt_modHalf]
theorem partOf_foldl_modHalf (f : Mod → HalfSt → HalfSt) (l : List Nat) (m : Mod) (p : Nat) :
    partOf (l.foldl (fun m h => modHalf h (f m) m) m) p = partOf m p := by
  induction l generalizing m with
  | nil => rfl
  | cons h l ih => rw [List.foldl_cons, ih, partOf_modHalf]

theorem power_foldl_modHalf {f : HalfSt → HalfSt} (l : List Nat) (m : Mod) : (l.foldl (fun m h => modHalf h f m) m).power = m.power := by
  induction l generalizing m with
  | nil => rfl
  | cons h l ih => rw [List.foldl_cons, ih, modHalf_power]

/-! Decisions of Ballast -/

/-- An OPTIONAL event with what Ballast chooses for it (R470). -/
def chosenBy (m : Mod) (y : SchedEv) : SchedEv := { y with chosen := some (maskOf ((maskBits 8 y.mask).filter (slowChoice m))) }

theorem slowChoice_decideOptional (p : Nat) (e : SchedEv) (m : Mod) : slowChoice (decideOptional p e m) = slowChoice m := by
  funext k
  unfold decideOptional slowChoice
  dsimp only
  rw [halfSt_modPart, modPart_power, power_foldl_modHalf, halfSt_foldl_modHalf ((maskBits_nodup ..).filter _)]
  split <;> rfl
theorem sched_decideOptional (p : Nat) (e : SchedEv) (m : Mod) :
    (partOf (decideOptional p e m) p).sched = (partOf m p).sched.map (fun y => if y = e then chosenBy m y else y) := by
  unfold decideOptional
  dsimp only
  rw [partOf_modPart_self, partOf_foldl_modHalf fun _ x => { x with slow := satAdd 16 x.slow 1 }]
  refine List.map_congr_left fun y _ => ?_
  split
  · subst_vars; rfl
  · rfl

/-- The decisions of several events: what is chosen for one does not change what is chosen for the others. -/
theorem sched_foldl_decideOptional {p : Nat} {l : List SchedEv} (hl : ∀ e ∈ l, e.chosen = none) (m : Mod) :
    (partOf (l.foldl (fun m e => decideOptional p e m) m) p).sched = (partOf m p).sched.map (fun y => if y ∈ l then chosenBy m y else y) := by
  induction l generalizing m with
  | nil => simp
  | cons e l ih =>
    have hchoice : chosenBy (decideOptional p e m) = chosenBy m := by
      unfold chosenBy
      rw [slowChoice_decideOptional]
    have hrest : ∀ f ∈ l, f.chosen = none := fun f hf => hl f (List.mem_cons_of_mem e hf)
    have hnew : chosenBy m e ∉ l := fun h => by simpa [chosenBy] using hrest _ h
    rw [List.foldl_cons, ih hrest, sched_decideOptional, hchoice, List.map_map]
    refine List.map_congr_left fun y _ => ?_
    by_cases hy : y = e
    · subst hy; simp [hnew]
    · simp [hy]

/-- OPTIONAL_DECISION of a running step. -/
theorem execOptionalDecision_runs {p : PartId} {s : State} (hj : (partOf s.m p.val).jstate = .running) (hf : (partOf s.m p.val).stepFailed = false) :
    exec (.optionalDecision p) s = .next { s with
      m := ((partOf s.m p.val).sched.filter (fun e => undecided e && tickReached s.m (partOf s.m p.val).base && tickReached s.m (e.tick - 16))).foldl
        (fun m e => decideOptional p.val e m) s.m } := by
  show execOptionalDecision p s = _
  unfold execOptionalDecision onMod
  dsimp only
  rw [if_neg (by simp [hj, hf])]

/-! Clock events -/

@[simp] theorem calm_releaseAt (next t : Nat) (m : Mod) : calm (releaseAt next t m) = calm m := by
  unfold releaseAt
  dsimp only
  split
  · split
    · simp
    · exact calm_modTd ..
  · rfl

/-- The events of a partition that are the same point of its schedule as `e`. -/
def sameEvent (e y : SchedEv) : Bool := y.kind == e.kind && y.superstep == e.superstep && y.mask == e.mask

/-- The event has happened (R40). -/
def eventDone (late : Bool) (e : SchedEv) (x : Part) : Part :=
  { x with
    lateEvents := if late then satAdd 32 x.lateEvents 1 else x.lateEvents
    sched := x.sched.map (fun y => if sameEvent e y then { y with done := true } else y) }

/-- A half at 800 MHz begins its switch to 400 MHz (R464). -/
def beginHalf (c : Nat) (y : HalfSt) : HalfSt := if y.clk = .full then { y with clk := .toHalf, switchFrom := c } else y

/-- A fixed event that takes effect, before its tiles go on. -/
def switchesOf (p : Nat) (e : SchedEv) (m : Mod) : Mod :=
  let due := boundaryTick m p e.tick
  (maskBits 8 e.mask).foldl (fun m h => modHalf h (beginHalf (cycleOfTick m due.1)) m) (modPart p (eventDone due.2 e) m)

theorem find?_eq_of_filter {α : Type} {f g : α → Bool} {l : List α} {a : α} (h : l.filter f = [a]) (hg : g a = true) :
    l.find? (fun y => f y && g y) = some a := by
  have hall : l.filter (fun y => f y && g y) = [a] := by
    rw [← List.filter_filter, ← List.filter_comm, h]
    simp [hg]
  rw [← List.head?_filter, hall]
  rfl

/-- A fixed event takes effect at every half of its mask (R467). -/
theorem calm_clockEvent_fixed {p : Nat} {e : SchedEv} {m : Mod} (hkind : e.kind = .clockFixed) (hdone : e.done = false)
    (hone : (partOf m p).sched.filter (fun y => y.kind == e.kind && y.superstep == e.superstep && y.mask == e.mask) = [e]) :
    calm (clockEvent p e m) = calm (switchesOf p e m) := by
  have hopen : undecided e = false := by unfold undecided; rw [hkind]; rfl
  have hfind : (partOf m p).sched.find? (fun y => y.kind == e.kind && y.superstep == e.superstep && y.mask == e.mask && !y.done) = some e :=
    find?_eq_of_filter (g := fun y => !y.done) hone (by rw [hdone]; rfl)
  unfold clockEvent
  rw [hopen, if_neg Bool.false_ne_true]
  dsimp only
  rw [hfind]
  dsimp only
  rw [if_pos hkind]
  refine (calm_foldl (fun n t => ?_) _ _).trans ?_
  · split
    · exact calm_releaseAt ..
    · exact calm_modTd ..
  · unfold switchesOf beginHalf eventDone sameEvent
    simp

/-- The halves of a list begin their switches, each in the cycle that is right when its turn comes. -/
theorem clk_foldl_beginHalf (c : Mod → Nat) (l : List Nat) (m : Mod) (k : Nat) :
    (halfSt (l.foldl (fun m h => modHalf h (beginHalf (c m)) m) m) k).clk =
      if k ∈ l ∧ (halfSt m k).clk = .full then .toHalf else (halfSt m k).clk := by
  induction l generalizing m with
  | nil => simp
  | cons h l ih =>
    have hone : (halfSt (modHalf h (beginHalf (c m)) m) k).clk = if h = k ∧ (halfSt m k).clk = .full then .toHalf else (halfSt m k).clk := by
      rw [halfSt_modHalf]
      unfold beginHalf
      by_cases hk : h = k
      · subst hk; by_cases hc : (halfSt m h).clk = .full <;> simp [hc]
      · simp [hk]
    rw [List.foldl_cons, ih, hone]
    by_cases hk : h = k
    · subst hk; by_cases hc : (halfSt m h).clk = .full <;> simp [hc]
    · have hk' : ¬ k = h := fun e => hk e.symm
      simp [hk, hk']

theorem partOf_switchesOf (p : Nat) (e : SchedEv) (m : Mod) :
    partOf (switchesOf p e m) p = eventDone (boundaryTick m p e.tick).2 e (partOf m p) := by
  unfold switchesOf
  dsimp only
  rw [partOf_foldl_modHalf fun n => beginHalf (cycleOfTick n (boundaryTick m p e.tick).1), partOf_modPart_self]
theorem clk_switchesOf (p : Nat) (e : SchedEv) (m : Mod) {k : Nat} (hk : k < 8) :
    (halfSt (switchesOf p e m) k).clk = if bit e.mask k = true ∧ (halfSt m k).clk = .full then .toHalf else (halfSt m k).clk := by
  unfold switchesOf
  dsimp only
  rw [clk_foldl_beginHalf fun n => cycleOfTick n (boundaryTick m p e.tick).1, halfSt_modPart]
  simp [mem_maskBits, hk]

theorem halves_of_calm {m n : Mod} (h : calm n = calm m) (k : Nat) : halfSt n k = halfSt m k := by
  unfold calm at h
  have hhalves := congrArg (fun c : Mod × (Nat → Part) => mget {} c.1.halves k) h
  exact hhalves
theorem sched_of_calm {m n : Mod} {p : Nat} (h : calm n = calm m) : (partOf n p).sched = (partOf m p).sched := by
  have hside := congrArg Part.sched (jobSide_of_calm h p)
  exact hside
theorem lateEvents_of_calm {m n : Mod} {p : Nat} (h : calm n = calm m) : (partOf n p).lateEvents = (partOf m p).lateEvents := by
  have hside := congrArg Part.lateEvents (jobSide_of_calm h p)
  exact hside

/-- CLOCK_EVENT of a partition at its boundary, with one event due. -/
theorem execClockEvent_one {p : PartId} {e : SchedEv} {s : State} (hrun : stepRuns p.val s.m) (hx : (partOf s.m p.val).xphase = .compute)
    (hdue : (clockEvents (partOf s.m p.val)).filter (fun y => tickReached s.m (boundaryTick s.m p.val y.tick).1) = [e]) :
    exec (.clockEvent p) s = .next { s with m := clockEvent p.val e s.m } := by
  obtain ⟨hjob, hfail, hpower⟩ := hrun
  show execClockEvent p s = _
  unfold execClockEvent onMod
  dsimp only
  rw [if_neg (by simp [hjob, hfail, hx, hpower]), hdue]
  rfl

/-! Clock switches -/

theorem execClockReturn_early {h : HalfId} {p z : Nat} {s : State} (hp : partOfHalf s.m h.val = some p) (hz : (partOf s.m p).closedAt = some z)
    (hnow : s.m.now < z + (partOf s.m p).lag + 1) : exec (.clockReturn h) s = .next s := by
  show execClockReturn h s = _
  unfold execClockReturn onMod
  simp [hp, hz, hnow]
theorem execClockReturn_due {h : HalfId} {p z : Nat} {s : State} (hp : partOfHalf s.m h.val = some p) (hz : (partOf s.m p).closedAt = some z)
    (hrec : recHalfReturn (curRecord (partOf s.m p)) = true) (hpower : s.m.power.active = false) (hnow : z + (partOf s.m p).lag + 1 ≤ s.m.now) :
    exec (.clockReturn h) s = .next { s with m := returnHalf h.val (z + (partOf s.m p).lag + 1) s.m } := by
  show execClockReturn h s = _
  unfold execClockReturn onMod
  simp [hp, hz, hrec, hpower, Nat.not_lt.mpr hnow]

theorem halfSt_returnHalf (h c k : Nat) (m : Mod) : halfSt (returnHalf h c m) k =
    if h = k then (if (halfSt m h).clk = .half then { halfSt m h with clk := .toFull, switchFrom := c } else halfSt m h) else halfSt m k :=
  halfSt_modHalf ..

/-- The clock a switch leads to (R464). -/
def switchEnd : Clk → Clk
  | .toHalf => .half
  | .toFull => .full
  | c => c

theorem halfSt_foldl_modTd (l : List Nat) (f : Mod → Nat → TileData → TileData) (m : Mod) (k : Nat) :
    halfSt (l.foldl (fun m t => modTd t (f m t) m) m) k = halfSt m k := by
  induction l generalizing m with
  | nil => rfl
  | cons t l ih => rw [List.foldl_cons, ih, halfSt_modTd]
theorem partOf_foldl_modTd (l : List Nat) (f : Mod → Nat → TileData → TileData) (m : Mod) (k : Nat) :
    partOf (l.foldl (fun m t => modTd t (f m t) m) m) k = partOf m k := by
  induction l generalizing m with
  | nil => rfl
  | cons t l ih => rw [List.foldl_cons, ih, partOf_modTd]
theorem power_foldl_modTd (l : List Nat) (f : Mod → Nat → TileData → TileData) (m : Mod) :
    (l.foldl (fun m t => modTd t (f m t) m) m).power = m.power := by
  induction l generalizing m with
  | nil => rfl
  | cons t l ih => rw [List.foldl_cons, ih, modTd_power]

/-- A switch that ends changes the clock of its half alone, and nothing of the partitions. -/
theorem endSwitch_halves (h : Nat) (m : Mod) :
    (∀ k, halfSt (endSwitch h m) k = if h = k then { halfSt m h with clk := switchEnd (halfSt m h).clk } else halfSt m k) ∧
      (∀ p, partOf (endSwitch h m) p = partOf m p) ∧ (endSwitch h m).power = m.power := by
  have stays : ∀ k {c : Clk}, c = (halfSt m h).clk → halfSt m k = if h = k then { halfSt m h with clk := c } else halfSt m k := fun k c hc => by
    subst hc
    split
    · subst_vars; rfl
    · rfl
  unfold endSwitch
  dsimp only
  cases hc : (halfSt m h).clk with
  | toHalf =>
    refine ⟨fun k => ?_, fun p => ?_, ?_⟩
    · rw [halfSt_foldl_modTd, halfSt_modHalf]; rfl
    · rw [partOf_foldl_modTd, partOf_modHalf]
    · rw [power_foldl_modTd, modHalf_power]
  | toFull =>
    refine ⟨fun k => ?_, fun p => ?_, ?_⟩
    · rw [halfSt_foldl_modTd, halfSt_modHalf]; rfl
    · rw [partOf_foldl_modTd, partOf_modHalf]
    · rw [power_foldl_modTd, modHalf_power]
  | full => exact ⟨fun k => stays k hc.symm, fun _ => rfl, rfl⟩
  | half => exact ⟨fun k => stays k hc.symm, fun _ => rfl, rfl⟩

theorem dueResets_none {ch : Chip} {m : Mod} (h : m.power.heldResets = []) : dueResets ch m = m := by
  unfold dueResets
  rw [h]

/-- Does a step of the partition of a half still run, so that the half stays at 400 MHz? -/
def halfServes (m : Mod) (h : Nat) : Bool :=
  match partOfHalf m h with
  | some p => !(partOf m p).stepFailed && (partOf m p).jstate == .running
  | none => false

theorem halfServes_iff (m : Mod) (h : Nat) :
    halfServes m h = true ↔ ∃ p, partOfHalf m h = some p ∧ (partOf m p).stepFailed = false ∧ (partOf m p).jstate = .running := by
  unfold halfServes
  split <;> simp [*]

/-- A switch that is complete: a half that serves no running step returns at once (log entry 154). -/
theorem execClockSwitchComplete_due {h : HalfId} {s : State} (hr : s.m.power.heldResets = [])
    (hd : ¬(s.m.power.active = true ∨ s.m.now < (halfSt s.m h.val).switchFrom + 64))
    (hc : (halfSt s.m h.val).clk = .toHalf ∨ (halfSt s.m h.val).clk = .toFull) :
    exec (.clockSwitchComplete h) s = .next { s with
      m := if halfServes s.m h.val then endSwitch h.val s.m
        else returnHalf h.val ((halfSt s.m h.val).switchFrom + 64) (endSwitch h.val s.m) } := by
  obtain ⟨-, hparts, hpower⟩ := endSwitch_halves h.val s.m
  have hof : partOfHalf (endSwitch h.val s.m) h.val = partOfHalf s.m h.val := by unfold partOfHalf; simp [hparts]
  push Not at hd
  show execClockSwitchComplete h s = _
  unfold execClockSwitchComplete onChip
  dsimp only
  rw [if_neg (by obtain hc | hc := hc <;> simp [hd.1, hd.2, hc]), dueResets_none (hpower ▸ hr), hof]
  unfold halfServes
  cases hp : partOfHalf s.m h.val with
  | some p =>
    dsimp only
    rw [hparts]
    by_cases hrun : (partOf s.m p).stepFailed = false ∧ (partOf s.m p).jstate = .running
    · simp [hrun.1, hrun.2]
    · by_cases hf : (partOf s.m p).stepFailed = false
      · have hj : (partOf s.m p).jstate ≠ .running := fun hj => hrun ⟨hf, hj⟩
        simp [hf, hj]
      · simp [hf]
  | none => rfl
theorem execClockSwitchComplete_not {h : HalfId} {s : State}
    (hd : (s.m.power.active = true ∨ s.m.now < (halfSt s.m h.val).switchFrom + 64) ∨
      ((halfSt s.m h.val).clk ≠ .toHalf ∧ (halfSt s.m h.val).clk ≠ .toFull)) :
    exec (.clockSwitchComplete h) s = .next s := by
  show execClockSwitchComplete h s = _
  unfold execClockSwitchComplete onChip
  dsimp only
  rw [if_pos]
  obtain (ha | hn) | ⟨hh, hf⟩ := hd
  · simp [ha]
  · simp [hn]
  · simp [hh, hf]

/-- CLOCK_SWITCH_COMPLETE and the clocks of the halves (R464, R477). -/
theorem gives_clockSwitchComplete {s : State} (h : HalfId) (hr : s.m.power.heldResets = []) :
    Gives (.clockSwitchComplete h) s (fun m' =>
      if s.m.power.active = true ∨ s.m.now < (halfSt s.m h.val).switchFrom + 64 then m' = s.m
      else (halfSt m' h.val).clk = (match (halfSt s.m h.val).clk with
          | .toHalf => if ∃ p, partOfHalf s.m h.val = some p ∧ (partOf s.m p).stepFailed = false ∧ (partOf s.m p).jstate = .running then .half
              else .toFull
          | .toFull => .full
          | c => c) ∧ ∀ k, k ≠ h.val → halfSt m' k = halfSt s.m k) := by
  by_cases hd : s.m.power.active = true ∨ s.m.now < (halfSt s.m h.val).switchFrom + 64
  · exact ⟨_, execClockSwitchComplete_not (.inl hd), (if_pos hd).mpr rfl⟩
  by_cases hc : (halfSt s.m h.val).clk = .toHalf ∨ (halfSt s.m h.val).clk = .toFull
  · refine ⟨_, execClockSwitchComplete_due hr hd hc, (if_neg hd).mpr ?_⟩
    obtain ⟨hhalf, -, -⟩ := endSwitch_halves h.val s.m
    simp only [← halfServes_iff]
    refine ⟨?_, fun k hk => ?_⟩
    · obtain hc | hc := hc <;> cases halfServes s.m h.val <;> simp [halfSt_returnHalf, hhalf, hc, switchEnd]
    · have hk' : ¬ h.val = k := fun e => hk e.symm
      cases halfServes s.m h.val <;> simp [halfSt_returnHalf, hhalf, hk']
  · push Not at hc
    obtain ⟨hh, hf⟩ := hc
    refine ⟨_, execClockSwitchComplete_not (.inr ⟨hh, hf⟩), (if_neg hd).mpr ⟨?_, fun _ _ => rfl⟩⟩
    split
    · contradiction
    · contradiction
    · rfl

end Sys2Proof.Machine

open Sys2Proof Sys2Proof.Machine

/-- Settles O40, by what each event does to the one schedule entry or half it takes. -/
theorem clockEvents : Obligations.ClockEvents := by
  intro s
  refine ⟨fun p x hx hj hf => ?_, fun p e x hx hrun hphase hkind hdue hone => ?_, fun h p z hp hz hrec hpower => ⟨fun hnow => ?_, fun hnow => ?_⟩,
    fun h hr => ?_⟩
  · subst hx
    refine ⟨_, execOptionalDecision_runs hj hf, ?_⟩
    dsimp only
    rw [sched_foldl_decideOptional]
    · refine List.map_congr_left fun y hy => ?_
      simp [hy, and_assoc, chosenBy]
    · intro e he
      simp only [undecided, List.mem_filter, Bool.and_eq_true, beq_iff_eq] at he
      exact he.2.1.1.2
  · subst hx
    have hopen : e ∈ Machine.clockEvents (partOf s.m p.val) := (List.mem_filter.mp (hdue ▸ List.mem_singleton_self e)).1
    have hdone : e.done = false := by
      unfold Machine.clockEvents at hopen
      simp only [List.mem_filter, Bool.and_eq_true, Bool.not_eq_true'] at hopen
      exact hopen.2.1.1
    have hcalm := calm_clockEvent_fixed hkind hdone hone
    refine ⟨_, execClockEvent_one hrun hphase hdue, ?_, ?_, fun h hh => ?_⟩
    · rw [sched_of_calm hcalm, partOf_switchesOf]
      refine List.mem_map.mpr ⟨e, ?_, by simp [sameEvent]⟩
      exact (List.mem_filter.mp (hone ▸ List.mem_singleton_self e)).1
    · rw [lateEvents_of_calm hcalm, partOf_switchesOf]
      rfl
    · rw [halves_of_calm hcalm, clk_switchesOf _ _ _ hh]
  · exact ⟨_, execClockReturn_early hp hz hnow, rfl⟩
  · refine ⟨_, execClockReturn_due hp hz hrec hpower hnow, ?_, fun k hk => ?_⟩
    · rw [halfSt_returnHalf, if_pos rfl]
      split <;> simp [*]
    · rw [halfSt_returnHalf, if_neg fun e => hk e.symm]
  · exact gives_clockSwitchComplete h hr
end

section
/-! Proofs. Sideband symbols: what they leave alone. -/

namespace Sys2Proof.Machine

/-- What the links and symbols of a module show: what has left it, its ports, what a stop holds, and what the master keeps of other jobs. -/
@[irreducible] def wires (m : Mod) : List Out × SMap Port × List Instr × SMap OtherJob := (m.out, m.ports, m.stopped, m.others)

theorem wires_eq_iff {m n : Mod} : wires n = wires m ↔ n.out = m.out ∧ n.ports = m.ports ∧ n.stopped = m.stopped ∧ n.others = m.others := by
  unfold wires
  simp

@[simp] theorem wires_modTile (t : Nat) (f : Tile → Tile) (m : Mod) : wires (modTile t f m) = wires m := by unfold wires; rfl
@[simp] theorem wires_modTd (t : Nat) (f : TileData → TileData) (m : Mod) : wires (modTd t f m) = wires m := by unfold wires; rfl
@[simp] theorem wires_modPart (p : Nat) (f : Part → Part) (m : Mod) : wires (modPart p f m) = wires m := by unfold wires; rfl
@[simp] theorem wires_modEp (k : Nat) (f : Ep → Ep) (m : Mod) : wires (modEp k f m) = wires m := by unfold wires; rfl
@[simp] theorem wires_modBar (b : Nat) (f : Bar → Bar) (m : Mod) : wires (modBar b f m) = wires m := by unfold wires; rfl
@[simp] theorem wires_modHalf (h : Nat) (f : HalfSt → HalfSt) (m : Mod) : wires (modHalf h f m) = wires m := by unfold wires; rfl
@[simp] theorem wires_noteSet (o b : Nat) (l : List Nat) (m : Mod) : wires (noteSet o b l m) = wires m := by unfold wires; rfl
@[simp] theorem wires_foldl {α : Type} {f : Mod → α → Mod} (h : ∀ m a, wires (f m a) = wires m) (l : List α) (m : Mod) :
    wires (l.foldl f m) = wires m := by
  induction l generalizing m with
  | nil => rfl
  | cons a l ih => exact (ih _).trans (h m a)
@[simp] theorem wires_if (c : Prop) [Decidable c] (a b : Mod) : wires (if c then a else b) = if c then wires a else wires b := apply_ite wires c a b

@[simp] theorem wires_signalTile (t cause detail : Nat) (at_ : BitVec 48 × Nat) (m : Mod) : wires (signalTile t cause detail at_ m) = wires m := by
  unfold signalTile
  split
  · exact wires_modPart ..
  · rfl
@[simp] theorem wires_leaveWait (t c : Nat) (m : Mod) : wires (leaveWait t c m) = wires m := by
  unfold leaveWait; dsimp only; (repeat' split) <;> simp
@[simp] theorem wires_trapTile (t pc slots cause info cycle : Nat) (banked quiet : Bool) (m : Mod) :
    wires (trapTile t pc slots cause info cycle banked quiet m) = wires m := by unfold trapTile; simp
@[simp] theorem wires_dropBundle (t : Nat) (m : Mod) : wires (dropBundle t m) = wires m := by unfold dropBundle; simp
@[simp] theorem wires_takeDue (t : Nat) (m : Mod) (x : DueTrap) : wires (takeDue t m x) = wires m := by unfold takeDue; simp
@[simp] theorem wires_dueTraps (t c : Nat) (m : Mod) : wires (dueTraps t c m) = wires m := by unfold dueTraps; simp
@[simp] theorem wires_cutBundle (t c : Nat) (m : Mod) : wires (cutBundle t c m) = wires m := by unfold cutBundle; split <;> simp
@[simp] theorem wires_interrupt (t c : Nat) (m : Mod) : wires (interrupt t c m) = wires m := by unfold interrupt; split <;> simp
@[simp] theorem wires_dueTrapsNow (m : Mod) : wires (dueTrapsNow m) = wires m := by unfold dueTrapsNow; simp
@[simp] theorem wires_stopTile (t : Nat) (quiet : Bool) (m : Mod) : wires (stopTile t quiet m) = wires m := by unfold stopTile; simp
@[simp] theorem wires_stopTiles (p : Nat) (m : Mod) : wires (stopTiles p m) = wires m := by unfold stopTiles; simp
@[simp] theorem wires_endStall (p at_ : Nat) (m : Mod) : wires (endStall p at_ m) = wires m := by unfold endStall; simp
@[simp] theorem wires_tryEndStall (p : Nat) (m : Mod) : wires (tryEndStall p m) = wires m := by unfold tryEndStall; simp
@[simp] theorem wires_checkStall (p : Nat) (m : Mod) : wires (checkStall p m) = wires m := by
  unfold checkStall; dsimp only; (repeat' split) <;> simp
@[simp] theorem wires_checkStalls (m : Mod) : wires (checkStalls m) = wires m := by unfold checkStalls; simp
@[simp] theorem wires_returnHalves (p : Nat) (m : Mod) : wires (returnHalves p m) = wires m := by unfold returnHalves returnHalf; simp
theorem wires_mapShards (p : Nat) (f : Shard → Shard) (m : Mod) : wires (mapShards p f m) = wires m := by unfold wires; rfl
theorem wires_dropUnits (f : Nat → Bool) (m : Mod) : wires (dropUnits f m) = wires m := by unfold wires; rfl
theorem wires_dropNmuReqs (p : Nat) (m : Mod) : wires (dropNmuReqs p m) = wires m := by unfold wires; rfl
theorem wires_blurShadows (p : Nat) (m : Mod) : wires (blurShadows p m) = wires m := by unfold wires; rfl
@[simp] theorem wires_abandonShards (p : Nat) (m : Mod) : wires (abandonShards p m) = wires m :=
  (wires_mapShards ..).trans ((wires_dropUnits ..).trans ((wires_dropNmuReqs ..).trans (wires_blurShadows ..)))
@[simp] theorem wires_dropLine (m : Mod) : wires (dropLine m) = wires m := by unfold wires; rfl

@[simp] theorem calm_stopTile (t : Nat) (quiet : Bool) (m : Mod) : calm (stopTile t quiet m) = calm m := by unfold stopTile; simp
@[simp] theorem calm_stopTiles (p : Nat) (m : Mod) : calm (stopTiles p m) = calm m := by unfold stopTiles; simp
@[simp] theorem calm_stopSequencer (p : Nat) (m : Mod) : calm (stopSequencer p m) = calm m := by unfold stopSequencer; simp
theorem calm_mapShards (p : Nat) (f : Shard → Shard) (m : Mod) : calm (mapShards p f m) = calm m := by unfold calm; rfl
theorem calm_dropNmuReqs (p : Nat) (m : Mod) : calm (dropNmuReqs p m) = calm m := by unfold calm; rfl
theorem calm_blurShadows (p : Nat) (m : Mod) : calm (blurShadows p m) = calm m := by unfold calm; rfl
@[simp] theorem calm_abandonShards (p : Nat) (m : Mod) : calm (abandonShards p m) = calm m :=
  (calm_mapShards ..).trans ((calm_dropUnits ..).trans ((calm_dropNmuReqs ..).trans (calm_blurShadows ..)))

end Sys2Proof.Machine
end

section
/-! Proofs. Sideband symbols that name a partition of the module, and echoes. -/

namespace Sys2Proof.Machine

/-! Symbols sent -/

theorem sendSym_rest (q ty : Nat) (tag : BitVec 16) (seq arg : W32) (m : Mod) :
    ∃ u, sendSym q ty tag seq arg m = { m with out := u } ∧ m.out <+: u ∧ (symOpen m q = true → Out.sym q ty tag seq arg ∈ u) := by
  unfold sendSym
  dsimp only
  split
  · exact ⟨_, rfl, List.prefix_append .., fun _ => by simp⟩
  · rename_i hclosed
    exact ⟨_, rfl, List.prefix_rfl, fun hopen => absurd (by simp [beq_iff_eq.mp hopen]) hclosed⟩

theorem foldl_sendSym_rest (ty : Nat) (tag : BitVec 16) (seq arg : W32) (l : List Nat) (m : Mod) :
    ∃ u, l.foldl (fun m q => sendSym q ty tag seq arg m) m = { m with out := u } ∧ m.out <+: u ∧
      ∀ q ∈ l, symOpen m q = true → Out.sym q ty tag seq arg ∈ u := by
  induction l generalizing m with
  | nil => exact ⟨m.out, rfl, List.prefix_rfl, fun _ h => absurd h List.not_mem_nil⟩
  | cons r l ih =>
    obtain ⟨u, hu, hgrow, hsent⟩ := sendSym_rest r ty tag seq arg m
    obtain ⟨v, hv, hgrow', hsent'⟩ := ih { m with out := u }
    refine ⟨v, by rw [List.foldl_cons, hu, hv], hgrow.trans hgrow', fun q hq hopen => ?_⟩
    obtain rfl | hq := List.mem_cons.mp hq
    · exact hgrow'.subset (hsent hopen)
    · exact hsent' q hq hopen

/-- A symbol sent down changes nothing but what leaves the module, and leaves by every downstream port that is UP (R383). -/
theorem sendDown_rest (ty : Nat) (tag : BitVec 16) (seq arg : W32) (m : Mod) :
    ∃ u, sendDown ty tag seq arg m = { m with out := u } ∧ m.out <+: u ∧
      ∀ q ∈ downPorts m, symOpen m q = true → Out.sym q ty tag seq arg ∈ u :=
  foldl_sendSym_rest ..

theorem sentDown_of_out {ty : Nat} {tag : BitVec 16} {seq arg : W32} {m m' : Mod} {u : List Out}
    (hu : ∀ q ∈ downPorts m, symOpen m q = true → Out.sym q ty tag seq arg ∈ u) (ho : m'.out = u) : sentDown ty tag seq arg m m' := by
  intro q hq hopen
  rw [ho]
  exact hu q hq hopen

/-! READY, GO and SLIP -/

theorem symPart_running {m : Mod} {tag : BitVec 16} {p : Nat} (h : symPart m tag = some p) :
    (partOf m p).jstate = .running ∧ (partOf m p).stepFailed = false := by
  unfold symPart at h
  split at h
  · split at h
    · rename_i hr
      cases h
      simpa using hr
    · cases h
  · cases h

theorem partOf_sendUp (ty : Nat) (tag : BitVec 16) (seq arg : W32) (m : Mod) (p : Nat) : partOf (sendUp ty tag seq arg m) p = partOf m p := by
  obtain ⟨u, hu, -⟩ := sendSym_rest m.upstream ty tag seq arg m
  unfold sendUp
  split
  · rfl
  · rw [hu]; rfl
theorem readyFrom_tryReady (p : Nat) (m : Mod) : (partOf (tryReady p m) p).readyFrom = (partOf m p).readyFrom := by
  unfold tryReady
  dsimp only
  split
  · rfl
  · split
    · rfl
    · rw [partOf_sendUp, partOf_modPart_self]

theorem execReady_kept {q : PortId} {y : Sym} {s : State} {p : Nat} (hp : symPart s.m y.jobTag = some p) (hopen : symOpen s.m q.val = true)
    (hdown : (downPorts s.m).contains q.val = true) (hseq : (y.seq - (partOf s.m p).superstep).toNat < 2 ^ 31) :
    Gives (.ready q y) s (fun m' => (y.seq.toNat, q.val) ∈ (partOf m' p).readyFrom) := by
  have he : exec (.ready q y) s = .next { s with
      m := tryReady p (modPart p (fun x => { x with
        readyFrom := (y.seq.toNat, q.val) :: x.readyFrom.filter (· ≠ (y.seq.toNat, q.val)) }) s.m) } := by
    show execReady q y s = _
    unfold execReady onMod
    dsimp only
    rw [hopen, hdown, if_neg (by decide), hp]
    dsimp only
    rw [if_neg (Nat.not_le.mpr hseq)]
  refine ⟨_, he, ?_⟩
  dsimp only
  rw [readyFrom_tryReady, partOf_modPart_self]
  exact List.mem_cons_self

theorem execGo_decides {q : PortId} {y : Sym} {s : State} {p : Nat} (hp : symPart s.m y.jobTag = some p) (hup : fromUp s.m q.val = true)
    (hd : decides s.m p y.seq = true) :
    ∃ u, exec (.go q y) s = .next { s with m := modPart p (takeGo y.seq) { s.m with out := u } } ∧
      ∀ q ∈ downPorts s.m, symOpen s.m q = true → Out.sym q symGo y.jobTag y.seq y.arg ∈ u := by
  obtain ⟨u, hu, -, hsent⟩ := sendDown_rest symGo y.jobTag y.seq y.arg s.m
  refine ⟨u, ?_, hsent⟩
  show execGo q y s = _
  unfold execGo onMod
  dsimp only
  rw [if_neg (by simp [hup]), hu, show symPart { s.m with out := u } y.jobTag = some p from hp]
  dsimp only
  rw [show decides { s.m with out := u } p y.seq = true from hd, if_pos rfl]

theorem execSlip_decides {q : PortId} {y : Sym} {s : State} {p : Nat} (hp : symPart s.m y.jobTag = some p) (hup : fromUp s.m q.val = true)
    (hd : decides s.m p y.seq = true) :
    ∃ u, exec (.slip q y) s = .next { s with m := modPart p slipSchedule { s.m with out := u } } ∧
      ∀ q ∈ downPorts s.m, symOpen s.m q = true → Out.sym q symSlip y.jobTag y.seq y.arg ∈ u := by
  obtain ⟨u, hu, -, hsent⟩ := sendDown_rest symSlip y.jobTag y.seq y.arg s.m
  refine ⟨u, ?_, hsent⟩
  show execSlip q y s = _
  unfold execSlip onMod
  dsimp only
  rw [if_neg (by simp [hup]), hu, show symPart { s.m with out := u } y.jobTag = some p from hp]
  dsimp only
  rw [show decides { s.m with out := u } p y.seq = true from hd, if_pos rfl]

/-- A GO for the event that is due next, or for the one after it, is kept (R44, R51). -/
theorem takeGo_keeps {m : Mod} {p : Nat} {seq : W32} (hd : decides m p seq = true) :
    ((takeGo seq (partOf m p)).goFor = some seq ∨ (takeGo seq (partOf m p)).goNext = some seq) ∧
      ∀ e, nextEvent (partOf m p) = some e → if (partOf m p).goFor = some (eventSeq (partOf m p) e) then
        (takeGo seq (partOf m p)).goFor = (partOf m p).goFor ∧ (takeGo seq (partOf m p)).goNext = some seq
        else (takeGo seq (partOf m p)).goFor = some seq := by
  obtain ⟨e, he⟩ : ∃ e, nextEvent (partOf m p) = some e := by
    cases hn : nextEvent (partOf m p) with
    | some e => exact ⟨e, rfl⟩
    | none => simp [decides, decisionEvent, hn] at hd
  unfold takeGo
  rw [he]
  dsimp only
  split
  · rename_i hgo
    exact ⟨.inr rfl, fun f hf => by cases hf; rw [if_pos hgo]; exact ⟨rfl, rfl⟩⟩
  · rename_i hgo
    exact ⟨.inl rfl, fun f hf => by cases hf; rw [if_neg hgo]⟩

/-! Abandonment -/

/-- A partition whose step is abandoned (R396, R397, R399). -/
def stepGone (w word : W32) (tick : BitVec 48) (phase : Nat) (ta : BitVec 48) (x : Part) : Part :=
  let x := if x.rstate = .running then recordFault w tick phase x else x
  { x with
    rstate := .abandoning, failSentAt := none, stepFailed := true, ta := ta, retrained := false
    lateFaults := if isLate word then satAdd 16 x.lateFaults 1 else x.lateFaults
    stepFirst := if x.committed then x.superstep + 1 else x.stepFirst
    base := if x.committed then nextBase x else x.base
    slipShift := 0
    committed := false, heldForCkpt := false }

theorem stepGone_shows (w word : W32) (tick : BitVec 48) (phase : Nat) (ta : BitVec 48) (x : Part) :
    (stepGone w word tick phase ta x).stepFailed = true ∧ (stepGone w word tick phase ta x).rstate = .abandoning ∧
      (stepGone w word tick phase ta x).ta = ta ∧ (x.rstate = .running → (stepGone w word tick phase ta x).faultWord = w) := by
  unfold stepGone
  exact ⟨rfl, rfl, rfl, fun hr => by dsimp only; rw [if_pos hr]; rfl⟩

theorem partOf_returnHalves (p r : Nat) (m : Mod) : partOf (returnHalves p m) r = partOf m r := by
  unfold returnHalves returnHalf
  exact partOf_foldl_modHalf (fun n y => if y.clk = .half then { y with clk := .toFull, switchFrom := n.now } else y) ..

theorem out_of_wires {m n : Mod} (h : wires n = wires m) : n.out = m.out := (wires_eq_iff.mp h).1

theorem stopSequencer_out (p : Nat) (m : Mod) : (stopSequencer p m).out = m.out := by
  have hheld : ∀ (l : List Nat) (n : Mod),
      (l.foldl (fun m q => modPort q (fun y => { y with held := [], forwarded := [] }) m) n).out = n.out := fun l => by
    induction l with
    | nil => exact fun _ => rfl
    | cons q l ih => exact fun n => (ih _).trans (modPort_out ..)
  unfold stopSequencer
  dsimp only
  rw [hheld, modPart_out]
  split
  · exact out_of_wires (wires_endStall ..)
  · rfl

/-- The step of a partition abandoned: its record, and what leaves the module meanwhile. -/
theorem abandonStep_shows {p : Nat} {seq word : W32} {remote : Bool} {ta : BitVec 48} {m : Mod} (hj : (partOf m p).jstate = .running)
    (hf : (partOf m p).stepFailed = false) (hs : (partOf m p).stepNum = seq) :
    jobSide (partOf (abandonStep p seq word remote ta m) p) =
        jobSide (stepGone (if remote then remoteWord word else word) word m.tick m.phase ta (partOf m p)) ∧
      (abandonStep p seq word remote ta m).out = m.out := by
  have hline : ∀ (c : Bool) (n : Mod), partOf (if c then dropLine n else n) p = partOf n p ∧ wires (if c then dropLine n else n) = wires n := by
    intro c n
    split
    · exact ⟨rfl, wires_dropLine n⟩
    · exact ⟨rfl, rfl⟩
  unfold abandonStep
  extract_lets x w noted gone lined
  have hnoted : partOf noted p = partOf m p ∧ noted.out = m.out ∧ noted.tick = m.tick ∧ noted.phase = m.phase := by
    unfold noted
    split <;> exact ⟨rfl, rfl, rfl, rfl⟩
  obtain ⟨hpart, hout, htick, hphase⟩ := hnoted
  have hgone : partOf gone p = stepGone w word m.tick m.phase ta (partOf m p) := by
    rw [← htick, ← hphase, ← hpart]
    exact partOf_modPart_self ..
  rw [if_neg (by simp [x, hj, hf, hs])]
  constructor
  · rw [jobSide_of_calm (calm_abandonShards ..), partOf_returnHalves, jobSide_of_calm (calm_stopSequencer ..), jobSide_of_calm (calm_stopTiles ..),
      (hline _ gone).1, hgone]
  · rw [out_of_wires (wires_abandonShards ..), out_of_wires (wires_returnHalves ..), stopSequencer_out, out_of_wires (wires_stopTiles ..),
      out_of_wires (hline _ gone).2]
    exact hout

theorem failed_of_jobSide {x y : Part} (h : jobSide x = jobSide y) :
    x.stepFailed = y.stepFailed ∧ x.rstate = y.rstate ∧ x.ta = y.ta ∧ x.faultWord = y.faultWord := by
  have hfailed := congrArg Part.stepFailed h
  have hstate := congrArg Part.rstate h
  have hta := congrArg Part.ta h
  have hword := congrArg Part.faultWord h
  exact ⟨hfailed, hstate, hta, hword⟩

theorem fromUp_not_master {m : Mod} {q : Nat} (h : fromUp m q = true) : (m.role != roleMaster) = true := by
  unfold fromUp at h
  simp only [Bool.and_eq_true] at h
  exact h.1.2

/-- A FAULT or an ABANDON that a running step takes: the step is abandoned, and what the symbol sent down has left. -/
theorem abandonOrHold_shows {p : Nat} {y : Sym} {ta : BitVec 48} {m : Mod} (hj : (partOf m p).jstate = .running)
    (hf : (partOf m p).stepFailed = false) (hs : (partOf m p).stepNum = y.seq) (hpower : m.power.active = false)
    (hup : (m.role != roleMaster) = true) :
    (partOf (abandonOrHold p y ta m) p).stepFailed = true ∧ (partOf (abandonOrHold p y ta m) p).rstate = .abandoning ∧
      (partOf (abandonOrHold p y ta m) p).ta = ta ∧
      ((partOf m p).rstate = .running → (partOf (abandonOrHold p y ta m) p).faultWord = remoteWord y.arg) ∧
      (abandonOrHold p y ta m).out = m.out := by
  obtain ⟨hside, hout⟩ := abandonStep_shows (word := y.arg) (remote := true) (ta := ta) hj hf hs
  obtain ⟨hfailed, hstate, hta, hword⟩ := failed_of_jobSide hside
  obtain ⟨gfailed, gstate, gta, gword⟩ := stepGone_shows (remoteWord y.arg) y.arg m.tick m.phase ta (partOf m p)
  unfold abandonOrHold
  rw [if_neg (by simp [hpower]), hup]
  exact ⟨hfailed.trans gfailed, hstate.trans gstate, hta.trans gta, fun hr => hword.trans (gword hr), hout⟩

theorem execFault_decides {q : PortId} {y : Sym} {s : State} {p : Nat} (hp : symPart s.m y.jobTag = some p) (hup : fromUp s.m q.val = true)
    (hd : decides s.m p y.seq = true) :
    ∃ u, exec (.fault q y) s = .next { s with
        m := abandonOrHold p { y with seq := (partOf s.m p).stepNum, arg := slipLimitWord } (decisionTick (partOf s.m p)) { s.m with out := u } } ∧
      ∀ q ∈ downPorts s.m, symOpen s.m q = true → Out.sym q symFault y.jobTag y.seq y.arg ∈ u := by
  obtain ⟨u, hu, -, hsent⟩ := sendDown_rest symFault y.jobTag y.seq y.arg s.m
  refine ⟨u, ?_, hsent⟩
  show execFault q y s = _
  unfold execFault onMod
  dsimp only
  rw [if_neg (by simp [hup]), hu, show symPart { s.m with out := u } y.jobTag = some p from hp]
  dsimp only
  rw [show decides { s.m with out := u } p y.seq = true from hd, if_pos rfl]
  rfl

theorem execAbandon_up {q : PortId} {y : Sym} {s : State} {p : Nat} (hp : symPart s.m y.jobTag = some p) (hup : fromUp s.m q.val = true) :
    ∃ u, exec (.abandon q y) s = .next { s with m := abandonOrHold p y (nearestTick s.m s.m.masterDelay) { s.m with out := u } } ∧
      ∀ q ∈ downPorts s.m, symOpen s.m q = true → Out.sym q symAbandon y.jobTag y.seq y.arg ∈ u := by
  obtain ⟨u, hu, -, hsent⟩ := sendDown_rest symAbandon y.jobTag y.seq y.arg s.m
  refine ⟨u, ?_, hsent⟩
  show execAbandon q y s = _
  unfold execAbandon onMod
  dsimp only
  rw [if_neg (by simp [hup]), hu, show symPart { s.m with out := u } y.jobTag = some p from hp]
  rfl

/-! FAIL -/

theorem symPart_none {m : Mod} {tag : BitVec 16} (h : runsJob m tag = false) : symPart m tag = none := by
  unfold runsJob at h
  unfold symPart
  cases hp : partOfTag m tag.toNat with
  | none => rfl
  | some p =>
    rw [hp] at h
    have hj : (partOf m p).jstate ≠ .running := fun hj => by simp [hj] at h
    simp [hj]

/-- A FAIL of a running step of the system master's own. -/
theorem execFail_own {q : PortId} {y : Sym} {s : State} {p : Nat} (hopen : symOpen s.m q.val = true)
    (hdown : (downPorts s.m).contains q.val = true) (hrole : s.m.role = roleMaster) (hp : symPart s.m y.jobTag = some p)
    (hs : y.seq = (partOf s.m p).stepNum) : exec (.fail q y) s = .next { s with m := masterFail p y.seq y.arg s.m } := by
  show execFail q y s = _
  unfold execFail onMod
  dsimp only
  rw [hopen, hdown, if_neg (by decide), if_neg (not_not_intro hrole), hp]
  dsimp only
  rw [if_pos (by simp [hs])]
/-- A FAIL of a job that the system master does not run. -/
theorem execFail_other {q : PortId} {y : Sym} {s : State} (hopen : symOpen s.m q.val = true) (hdown : (downPorts s.m).contains q.val = true)
    (hrole : s.m.role = roleMaster) (hr : runsJob s.m y.jobTag = false) : exec (.fail q y) s = .next { s with m := otherFail y s.m } := by
  show execFail q y s = _
  unfold execFail onMod
  dsimp only
  rw [hopen, hdown, if_neg (by decide), if_neg (not_not_intro hrole), symPart_none hr]
  dsimp only
  rw [hr, if_neg Bool.false_ne_true]
/-- Any other module relays a FAIL upstream. -/
theorem execFail_relay {q : PortId} {y : Sym} {s : State} (hopen : symOpen s.m q.val = true) (hdown : (downPorts s.m).contains q.val = true)
    (hrole : s.m.role ≠ roleMaster) (hup : s.m.upstream ≤ 50) (hopenUp : symOpen s.m s.m.upstream = true) :
    exec (.fail q y) s = .next { s with m := emit (.sym s.m.upstream symFail y.jobTag y.seq y.arg) s.m } := by
  show execFail q y s = _
  unfold execFail onMod sendUp sendSym
  dsimp only
  rw [hopen, hdown, if_neg (by decide), if_pos hrole, if_neg (by simp [hrole, hup]), if_pos (by simp [beq_iff_eq.mp hopenUp])]

theorem masterFail_first {p : Nat} {seq word : W32} {m : Mod} (hgo : (partOf m p).goSentCommit ≠ some seq) (hseen : (partOf m p).failSeen ≠ some seq)
    (hdue : (partOf m p).abandonDue = none) : (partOf (masterFail p seq word m) p).abandonDue = some (seq, word.toNat, m.tick + 1) := by
  unfold masterFail
  dsimp only
  rw [if_neg hgo, if_neg (by simp [hseen, hdue]), partOf_modPart_self]

theorem others_modOther (tag : BitVec 16) (f : OtherJob → OtherJob) (m : Mod) :
    mget {} (modOther tag f m).others tag.toNat = f (mget {} m.others tag.toNat) := by
  unfold modOther
  exact (mget_mmod ..).trans (if_pos rfl)

/-- The first FAIL of a step of another module's job orders ABANDON for the next tick (log entry 137). -/
theorem otherFail_first {y : Sym} {m : Mod} {o : OtherJob} (ho : o = mget {} m.others y.jobTag.toNat) (hf : o.failed = none)
    (hc : ∀ c, o.commit = some c → c.1 ≠ y.seq) : mget {} (otherFail y m).others y.jobTag.toNat =
      { o with failed := some (y.seq, m.tick + 1), abandon := some (y.seq, y.arg, m.tick + 1) } := by
  subst ho
  unfold otherFail
  dsimp only
  rw [if_neg (by simp [failedNow, hf])]
  split
  · rename_i c tx hcommit
    rw [if_neg (hc _ hcommit), others_modOther]
  · rw [others_modOther]
/-- One of a step whose commit has its GO is the following step's. -/
theorem otherFail_late {y : Sym} {m : Mod} {o : OtherJob} {t : BitVec 48} (ho : o = mget {} m.others y.jobTag.toNat) (hf : o.failed = none)
    (ha : o.abandon = none) (hc : o.commit = some (y.seq, t)) : (mget {} (otherFail y m).others y.jobTag.toNat).abandon =
      some (y.seq + 1, y.arg ||| 0x40000000, if tickReached m t then m.tick + 1 else t + 1) := by
  subst ho
  unfold otherFail
  dsimp only
  rw [if_neg (by simp [failedNow, hf]), hc]
  dsimp only
  rw [if_pos rfl, others_modOther, ha]
  rfl
/-- A second one within two of the longest symbol delays orders none. -/
theorem otherFail_again {y : Sym} {m : Mod} {o : OtherJob} {t : BitVec 48} (ho : o = mget {} m.others y.jobTag.toNat)
    (hf : o.failed = some (y.seq, t)) (ht : tickReached m (t + BitVec.ofNat 48 (2 * ((reportMax m + 639) / 640) + 1)) = false) :
    otherFail y m = m := by
  subst ho
  unfold otherFail
  dsimp only
  rw [if_pos (by simp [failedNow, hf, ht])]

/-! Echoes -/

theorem portOf_of_ports {m n : Mod} {q : Nat} (h : n.ports = m.ports) : portOf n q = portOf m q := by
  unfold portOf
  rw [h]

theorem execEchoReq_open {q : PortId} {w : W32} {s : State} (h : symOpen s.m q.val = true) :
    Gives (.echoReq q w) s (fun m' => ∃ v : W32, m'.out = s.m.out ++ [.sym q.val symEchoReply 0 0 v]) := by
  refine ⟨_, rfl, BitVec.ofNat 32 (Config.unstated s.m.free), ?_⟩
  unfold sendSym
  dsimp only
  have hst : (portOf (takeFree s.m).2 q.val).state = .up := beq_iff_eq.mp h
  rw [if_pos (by simp [hst])]
  rfl

/-- A measurement of a port whose echoes run (R390). -/
def echoTaken (trip n : Nat) (y : Port) : Port := { y with echoMax := Nat.max y.echoMax trip, echoCount := n + 1 }

theorem execEchoReply_training {q : PortId} {rt ta : Nat} {s : State} (hst : (portOf s.m q.val).state = .training)
    (he : (portOf s.m q.val).echoes = true) (hn : (portOf s.m q.val).echoCount < 256) :
    exec (.echoReply q rt ta) s = .next { s with
      m := if (portOf s.m q.val).echoCount + 1 < 256 then askEcho q.val (modPort q.val (echoTaken (rt - ta) (portOf s.m q.val).echoCount) s.m)
        else modPort q.val (echoTaken (rt - ta) (portOf s.m q.val).echoCount) s.m } := by
  show execEchoReply q rt ta s = _
  unfold execEchoReply onMod
  dsimp only
  rw [hst]
  dsimp only
  rw [if_neg (by simp [he, hn])]
  rfl

/-- The next request leaves a port in training. -/
theorem askEcho_training {q : Nat} {m : Mod} (hst : (portOf m q).state = .training) :
    ∃ v : W32, askEcho q m = emit (.sym q symEchoReq 0 0 v) m := by
  refine ⟨BitVec.ofNat 32 ((m.tick.toNat * 640 + m.phase) * 16), ?_⟩
  unfold askEcho sendSym
  dsimp only
  rw [if_pos (by simp [hst])]

theorem gives_echoReply_training {q : PortId} {rt ta : Nat} {s : State} (hst : (portOf s.m q.val).state = .training)
    (he : (portOf s.m q.val).echoes = true) (hn : (portOf s.m q.val).echoCount < 256) :
    Gives (.echoReply q rt ta) s (fun m' => (portOf m' q.val).echoMax = Nat.max (portOf s.m q.val).echoMax (rt - ta) ∧
      (portOf m' q.val).echoCount = (portOf s.m q.val).echoCount + 1 ∧
      ((portOf s.m q.val).echoCount + 1 < 256 → ∃ v : W32, m'.out = s.m.out ++ [.sym q.val symEchoReq 0 0 v])) := by
  refine ⟨_, execEchoReply_training hst he hn, ?_⟩
  split
  · obtain ⟨v, hv⟩ := askEcho_training (m := modPort q.val (echoTaken (rt - ta) (portOf s.m q.val).echoCount) s.m)
      (by rw [portOf_modPort_self]; exact hst)
    rw [hv, portOf_emit, portOf_modPort_self]
    exact ⟨rfl, rfl, fun _ => ⟨v, emit_out ..⟩⟩
  · rw [portOf_modPort_self]
    exact ⟨rfl, rfl, fun hmore => absurd hmore ‹_›⟩

/-- An echo at a port that is UP measures the tick hop, and on a board's first module the hop upstream while a TICK_SYNC asks (R390, R499). -/
theorem gives_echoReply_up {q : PortId} {rt ta : Nat} {s : State} (hst : (portOf s.m q.val).state = .up) :
    Gives (.echoReply q rt ta) s (fun m' => (portOf m' q.val).tickDelay16 = (rt - ta) / 2 ∧
      ((s.m.syncing ≠ none → s.m.role = rolePeer → q.val ≠ s.m.upstream) → m'.hopDelay =
        if s.m.syncing ≠ none ∧ s.m.role = roleBoard ∧ q.val = s.m.upstream then (rt - ta) / 2 % 2 ^ 16 else s.m.hopDelay)) := by
  have hdelay : ∀ m : Mod, m.ports = (modPort q.val (fun p => { p with tickDelay16 := (rt - ta) / 2 }) s.m).ports →
      (portOf m q.val).tickDelay16 = (rt - ta) / 2 := fun m hm => by
    rw [portOf_of_ports hm, portOf_modPort_self]
  have he : exec (.echoReply q rt ta) s = .next { s with
      m :=
        let m := modPort q.val (fun p => { p with tickDelay16 := (rt - ta) / 2 }) s.m
        if m.syncing == none || q.val ≠ m.upstream then m
        else if m.role = roleBoard then { m with hopDelay := (rt - ta) / 2 % 2 ^ 16 }
        else if m.role = rolePeer then let f := takeFree m; { f.2 with hopDelay := Config.unstated f.1 % 2 ^ 16 }
        else m } := by
    show execEchoReply q rt ta s = _
    unfold execEchoReply onMod
    dsimp only
    rw [hst]
  refine ⟨_, he, ?_⟩
  dsimp only [modPort_syncing, modPort_upstream, modPort_role]
  split
  · rename_i hno
    refine ⟨hdelay _ rfl, fun _ => ?_⟩
    rw [if_neg (fun h => by simp [h.1, h.2.2] at hno)]
    rfl
  · rename_i hyes
    simp only [Bool.or_eq_true, not_or, decide_eq_true_eq, not_not, beq_iff_eq] at hyes
    split
    · exact ⟨hdelay _ rfl, fun _ => by rw [if_pos ⟨hyes.1, ‹_›, hyes.2⟩]⟩
    · rename_i hboard
      split
      · exact ⟨hdelay _ rfl, fun hpeer => absurd hyes.2 (hpeer hyes.1 ‹_›)⟩
      · exact ⟨hdelay _ rfl, fun _ => by rw [if_neg fun h => hboard h.2.1]; rfl⟩

end Sys2Proof.Machine
end

section
/-! Proofs. The symbols that are due at a tick. -/

namespace Sys2Proof.Machine

/-! What holds of every partition of a table -/

theorem mget_mem_or {α : Type} (d : α) (k : Nat) (l : SMap α) : (k, mget d l k) ∈ l ∨ mget d l k = d := by
  induction l with
  | nil => exact .inr rfl
  | cons e l ih =>
    unfold mget
    split
    · rename_i h
      subst h
      exact .inl List.mem_cons_self
    · exact ih.imp_left (List.mem_cons_of_mem _)
theorem mem_mput {α : Type} {k : Nat} {v : α} {l : SMap α} {e : Nat × α} (h : e ∈ mput k v l) : e = (k, v) ∨ e ∈ l := by
  induction l with
  | nil => exact .inl (List.mem_singleton.mp h)
  | cons a l ih =>
    unfold mput at h
    split at h
    · exact List.mem_cons.mp h
    · split at h
      · exact (List.mem_cons.mp h).imp_right (List.mem_cons_of_mem _)
      · obtain h | h := List.mem_cons.mp h
        · exact .inr (h ▸ List.mem_cons_self)
        · exact (ih h).imp_right (List.mem_cons_of_mem _)
theorem mem_mdel {α : Type} {k : Nat} {l : SMap α} {e : Nat × α} (h : e ∈ mdel k l) : e ∈ l := by
  induction l with
  | nil => exact h
  | cons a l ih =>
    unfold mdel at h
    split at h
    · exact List.mem_cons_of_mem _ (ih h)
    · obtain h | h := List.mem_cons.mp h
      · exact h ▸ List.mem_cons_self
      · exact List.mem_cons_of_mem _ (ih h)

/-- A property of every partition that the module lists. -/
def eachPart (P : Part → Prop) (m : Mod) : Prop := ∀ e ∈ m.parts, P e.2

theorem eachPart.partOf {P : Part → Prop} {m : Mod} (h : eachPart P m) (hd : P {}) (p : Nat) : P (partOf m p) := by
  obtain hmem | hdef := mget_mem_or {} p m.parts
  · exact h _ hmem
  · unfold Machine.partOf
    rw [hdef]
    exact hd
theorem eachPart.modPart {P : Part → Prop} {m : Mod} (h : eachPart P m) (hd : P {}) {p : Nat} {f : Part → Part} (hf : ∀ x, P x → P (f x)) :
    eachPart P (modPart p f m) := by
  intro e he
  rw [modPart_parts] at he
  unfold mmod mset at he
  split at he
  · exact h e (mem_mdel he)
  · obtain rfl | he := mem_mput he
    · exact hf _ (h.partOf hd p)
    · exact h e he
theorem eachPart.of_parts {P : Part → Prop} {m n : Mod} (h : eachPart P m) (hn : n.parts = m.parts) : eachPart P n := by
  unfold eachPart
  rw [hn]
  exact h
theorem eachPart.foldl {α : Type} {P : Part → Prop} {f : Mod → α → Mod} (hf : ∀ m a, eachPart P m → eachPart P (f m a)) (l : List α) {m : Mod}
    (h : eachPart P m) : eachPart P (l.foldl f m) := by
  induction l generalizing m with
  | nil => exact h
  | cons a l ih => exact ih (hf m a h)

/-! Links at rest -/

/-- No beat of a partition is on its way to a port. -/
def restful (x : Part) : Prop := x.beats.any toPort = false

theorem restful_default : restful {} := rfl

theorem restful_endStall {p at_ : Nat} {m : Mod} (h : eachPart restful m) : eachPart restful (endStall p at_ m) := by
  unfold endStall
  refine eachPart.foldl (fun n t hn => hn.of_parts (modTd_parts ..)) _ ?_
  exact h.modPart restful_default fun _ hx => hx
theorem restful_tryEndStall {p : Nat} {m : Mod} (h : eachPart restful m) : eachPart restful (tryEndStall p m) := by
  unfold tryEndStall
  dsimp only
  split
  · exact h
  · exact restful_endStall h
theorem restful_late {x : Part} {f : Beat → Beat} (hf : ∀ b, toPort (f b) = toPort b) (h : restful x) {y : Part} (hy : y.beats = x.beats.map f) :
    restful y := by
  unfold restful at *
  rw [hy, List.any_map]
  exact (congrArg x.beats.any (funext hf)).trans h
theorem restful_checkStall {p : Nat} {m : Mod} (h : eachPart restful m) : eachPart restful (checkStall p m) := by
  unfold checkStall
  dsimp only
  split
  · exact restful_tryEndStall h
  · split
    · exact restful_tryEndStall h
    · refine (restful_tryEndStall h).modPart restful_default fun x hx => ?_
      refine restful_late (fun b => ?_) hx rfl
      split <;> rfl
theorem restful_checkStalls {m : Mod} (h : eachPart restful m) : eachPart restful (checkStalls m) := by
  unfold checkStalls
  split
  · exact eachPart.foldl (fun _ _ hn => restful_checkStall hn) _ h
  · exact h

/-- The links of a module are at rest: what stays so through cycles in which nothing is sent. -/
structure AtRest (m : Mod) : Prop where
  stopped : m.stopped = []
  ports : m.ports.any (fun x => !x.2.waiting.isEmpty || !x.2.resend.isEmpty || !x.2.delayed.isEmpty || remoteReady x.2) = false
  beats : eachPart restful m

theorem atRest_of_linksBusy {m : Mod} (hpower : m.power.active = false) (h : linksBusy m = false) : AtRest m := by
  unfold linksBusy at h
  rw [hpower, Bool.not_false, Bool.true_and, Bool.or_eq_false_iff, Bool.or_eq_false_iff] at h
  obtain ⟨⟨hstopped, hports⟩, hparts⟩ := h
  refine ⟨by simpa using hstopped, hports, fun e he => ?_⟩
  have hnone := List.any_eq_false.mp hparts e he
  unfold restful
  simpa using hnone
theorem AtRest.linksBusy {m : Mod} (h : AtRest m) : linksBusy m = false := by
  have hparts : m.parts.any (fun x => x.2.beats.any toPort) = false := List.any_eq_false.mpr fun e he => by
    rw [h.beats e he]
    exact Bool.false_ne_true
  unfold Machine.linksBusy
  rw [h.stopped, h.ports, hparts]
  exact Bool.and_false _
theorem AtRest.of_fields {m n : Mod} (h : AtRest m) (hs : n.stopped = m.stopped) (hp : n.ports = m.ports) (hx : n.parts = m.parts) : AtRest n :=
  ⟨hs.trans h.stopped, by rw [hp]; exact h.ports, h.beats.of_parts hx⟩
theorem AtRest.checkStalls {m : Mod} (h : AtRest m) : AtRest (checkStalls m) := by
  obtain ⟨-, hp, hs, -⟩ := wires_eq_iff.mp (wires_checkStalls m)
  exact ⟨hs.trans h.stopped, by rw [hp]; exact h.ports, restful_checkStalls h.beats⟩

/-! Time passes for the symbols -/

/-- A module some time later: what had left it has left it, its ports are as they were, and the other jobs are kept. -/
structure Onward (m n : Mod) : Prop where
  out : m.out <+: n.out
  ports : ∀ q, (portOf n q).state = (portOf m q).state
  others : n.others = m.others

theorem Onward.trans {m n k : Mod} (h : Onward m n) (g : Onward n k) : Onward m k :=
  ⟨h.out.trans g.out, fun q => (g.ports q).trans (h.ports q), g.others.trans h.others⟩
theorem Onward.of_wires {m n : Mod} (h : wires n = wires m) : Onward m n := by
  obtain ⟨ho, hp, -, hj⟩ := wires_eq_iff.mp h
  exact ⟨by rw [ho], fun q => by rw [portOf_of_ports hp], hj⟩
theorem Onward.refl (m : Mod) : Onward m m := of_wires rfl
theorem Onward.foldl {α : Type} {f : Mod → α → Mod} (hf : ∀ m a, Onward m (f m a)) (l : List α) (m : Mod) : Onward m (l.foldl f m) := by
  induction l generalizing m with
  | nil => exact refl m
  | cons a l ih => exact (hf m a).trans (ih _)
theorem Onward.emit (o : Out) (m : Mod) : Onward m (emit o m) := ⟨by rw [emit_out]; exact List.prefix_append .., fun _ => rfl, rfl⟩

theorem lineNow_onward (m : Mod) : Onward m (lineNow m) := by
  unfold lineNow
  split
  · exact (Onward.of_wires (by unfold wires; rfl)).trans (Onward.emit ..)
  · exact Onward.refl m
theorem lowerTick_onward (m : Mod) : Onward m (lowerTick m) := by
  unfold lowerTick
  split
  · exact (Onward.of_wires (by unfold wires; rfl)).trans (Onward.emit ..)
  · exact Onward.refl m
theorem advance_onward (n : Nat) (m : Mod) : Onward m (advance n m) := by
  have hpass : Onward m { m with
      now := if m.power.active then m.now else m.now + n, lost := if m.power.active then m.lost + n else m.lost, phase := m.phase + n } :=
    Onward.of_wires (by unfold wires; rfl)
  have hline : ∀ y : Mod, Onward y (if m.phase < 480 && decide (480 ≤ m.phase + n) then lineNow y else y) := fun y => by
    split
    · exact lineNow_onward y
    · exact Onward.refl y
  unfold advance
  dsimp only
  split
  · exact hpass.trans ((lowerTick_onward _).trans (hline _))
  · exact hpass.trans ((hline _).trans (lowerTick_onward _))

theorem lineNow_fields (m : Mod) : (lineNow m).stopped = m.stopped ∧ (lineNow m).ports = m.ports ∧ (lineNow m).parts = m.parts := by
  unfold lineNow
  split <;> exact ⟨rfl, rfl, rfl⟩
theorem lowerTick_fields (m : Mod) : (lowerTick m).stopped = m.stopped ∧ (lowerTick m).ports = m.ports ∧ (lowerTick m).parts = m.parts := by
  unfold lowerTick
  split <;> exact ⟨rfl, rfl, rfl⟩
theorem AtRest.lineNow {m : Mod} (h : AtRest m) : AtRest (lineNow m) :=
  h.of_fields (lineNow_fields m).1 (lineNow_fields m).2.1 (lineNow_fields m).2.2
theorem AtRest.lowerTick {m : Mod} (h : AtRest m) : AtRest (lowerTick m) :=
  h.of_fields (lowerTick_fields m).1 (lowerTick_fields m).2.1 (lowerTick_fields m).2.2
theorem AtRest.advance {m : Mod} (h : AtRest m) (n : Nat) : AtRest (advance n m) := by
  have hpass : AtRest { m with
      now := if m.power.active then m.now else m.now + n, lost := if m.power.active then m.lost + n else m.lost, phase := m.phase + n } :=
    h.of_fields rfl rfl rfl
  have hline : ∀ y : Mod, AtRest y → AtRest (if m.phase < 480 && decide (480 ≤ m.phase + n) then Machine.lineNow y else y) := fun y hy => by
    split
    · exact hy.lineNow
    · exact hy
  unfold Machine.advance
  dsimp only
  split
  · exact hline _ hpass.lowerTick
  · exact (hline _ hpass).lowerTick

/-- With its links at rest a module passes cycles in one go. -/
theorem passCycles_atRest {m : Mod} (h : AtRest m) (n : Nat) : AtRest (passCycles n m) ∧ Onward m (passCycles n m) := by
  cases n with
  | zero => exact ⟨h, Onward.refl m⟩
  | succ n =>
    unfold passCycles
    rw [h.linksBusy, if_neg Bool.false_ne_true]
    exact ⟨(h.advance _).checkStalls, (advance_onward ..).trans (Onward.of_wires (wires_checkStalls _))⟩

theorem respond_onward (r : Resp) (m : Mod) : Onward m (respond r m) := by
  unfold respond emitKite
  split
  · exact (Onward.of_wires (by unfold wires; rfl)).trans (Onward.emit ..)
  · exact Onward.of_wires (by unfold wires; rfl)
theorem answerQuote_atRest {m : Mod} (h : AtRest m) : AtRest (answerQuote m) ∧ Onward m (answerQuote m) := by
  unfold answerQuote
  split
  · split
    · exact ⟨by rw [respond_rest]; exact h.of_fields rfl rfl rfl, respond_onward ..⟩
    · exact ⟨h, Onward.refl m⟩
  · exact ⟨h, Onward.refl m⟩

/-! Cycle 0 -/

theorem sendSym_onward (q ty : Nat) (tag : BitVec 16) (seq arg : W32) (m : Mod) : Onward m (sendSym q ty tag seq arg m) := by
  unfold sendSym
  dsimp only
  split
  · exact Onward.emit ..
  · exact Onward.refl m
theorem modPort_onward {q : Nat} {f : Port → Port} (hf : ∀ x, (f x).state = x.state) (m : Mod) : Onward m (modPort q f m) := by
  refine ⟨by rw [modPort_out], fun r => ?_, rfl⟩
  rw [portOf_modPort]
  split
  · subst_vars; exact hf _
  · rfl
theorem drawOffset_onward (q : Nat) (m : Mod) : Onward m (drawOffset q m) := by
  have hfree : Onward m (takeFree m).2 := Onward.of_wires (by unfold wires; rfl)
  unfold drawOffset
  refine hfree.trans (modPort_onward ?_ _)
  exact fun _ => rfl
theorem sendTicks_onward (m : Mod) : Onward m (sendTicks m) :=
  Onward.foldl (fun _ _ => (drawOffset_onward ..).trans (sendSym_onward ..)) _ m
theorem sendRecords_onward (m : Mod) : Onward m (sendRecords m) := by
  unfold sendRecords
  split
  · exact Onward.refl m
  · refine Onward.foldl (fun n q => ?_) _ m
    dsimp only
    split
    · refine Onward.trans ?_ (Onward.emit ..)
      split
      · exact Onward.refl n
      · exact drawOffset_onward ..
    · exact Onward.refl n

/-- The ABANDON that is due for a job of other modules (R397; log entry 137). -/
def sendAbandon (m : Mod) (e : Nat × OtherJob) : Mod :=
  match e.2.abandon with
  | some (seq, word, due) =>
    if tickReached m due then
      sendDown symAbandon (BitVec.ofNat 16 e.1) seq (wireWord word) { m with others := mmod {} m.others e.1 (fun o => { o with abandon := none }) }
    else m
  | none => m

theorem sendAbandon_rest (m : Mod) (e : Nat × OtherJob) :
    ∃ u o, sendAbandon m e = { m with out := u, others := o } ∧ m.out <+: u ∧
      ∀ seq word due, e.2.abandon = some (seq, word, due) → tickReached m due = true →
        ∀ q ∈ downPorts m, symOpen m q = true → Out.sym q symAbandon (BitVec.ofNat 16 e.1) seq (wireWord word) ∈ u := by
  unfold sendAbandon
  split
  · rename_i seq word due he
    split
    · obtain ⟨u, hu, hgrow, hsent⟩ := sendDown_rest symAbandon (BitVec.ofNat 16 e.1) seq (wireWord word)
        { m with others := mmod {} m.others e.1 (fun o => { o with abandon := none }) }
      refine ⟨u, _, hu, hgrow, fun seq' word' due' he' _ => ?_⟩
      rw [he] at he'
      cases he'
      exact hsent
    · rename_i hnot
      refine ⟨m.out, m.others, rfl, List.prefix_rfl, fun seq' word' due' he' hdue => ?_⟩
      rw [he] at he'
      cases he'
      exact absurd hdue hnot
  · rename_i he
    exact ⟨m.out, m.others, rfl, List.prefix_rfl, fun _ _ _ he' => absurd (he.symm.trans he') nofun⟩

theorem foldl_sendAbandon_rest (l : List (Nat × OtherJob)) (m : Mod) :
    ∃ u o, l.foldl sendAbandon m = { m with out := u, others := o } ∧ m.out <+: u ∧
      ∀ e ∈ l, ∀ seq word due, e.2.abandon = some (seq, word, due) → tickReached m due = true →
        ∀ q ∈ downPorts m, symOpen m q = true → Out.sym q symAbandon (BitVec.ofNat 16 e.1) seq (wireWord word) ∈ u := by
  induction l generalizing m with
  | nil => exact ⟨m.out, m.others, rfl, List.prefix_rfl, fun _ h => absurd h List.not_mem_nil⟩
  | cons a l ih =>
    obtain ⟨u, o, hu, hgrow, hsent⟩ := sendAbandon_rest m a
    obtain ⟨v, j, hv, hgrow', hsent'⟩ := ih { m with out := u, others := o }
    refine ⟨v, j, by rw [List.foldl_cons, hu, hv], hgrow.trans hgrow', fun e he => ?_⟩
    obtain rfl | he := List.mem_cons.mp he
    · exact fun seq word due ha hdue q hq hopen => hgrow'.subset (hsent seq word due ha hdue q hq hopen)
    · exact hsent' e he

/-- On the system master the ABANDONs that are due leave at cycle 0 of a tick. -/
theorem sendAbandons_sends {m : Mod} (hrole : m.role = roleMaster) (hpower : m.power.active = false) {e : Nat × OtherJob} (he : e ∈ m.others)
    {seq word : W32} {due : BitVec 48} (ha : e.2.abandon = some (seq, word, due)) (hdue : tickReached m due = true) :
    sentDown symAbandon (BitVec.ofNat 16 e.1) seq (wireWord word) m (sendAbandons m) := by
  obtain ⟨u, o, hu, -, hsent⟩ := foldl_sendAbandon_rest m.others m
  have hall : sendAbandons m = m.others.foldl sendAbandon m := by
    unfold sendAbandons
    rw [if_neg (by simp [hrole, hpower])]
    rfl
  rw [hall, hu]
  exact sentDown_of_out (hsent e he seq word due ha hdue) rfl

/-! What follows in the same cycle only adds to what leaves the module -/

theorem hostEvent_grows (cl p sr d a : Nat) (m : Mod) : m.out <+: (hostEvent cl p sr d a m).out := by
  unfold hostEvent
  dsimp only
  split
  · rw [emit_out]; exact List.prefix_append ..
  · split <;> exact List.prefix_rfl
theorem faultPort_grows (q : Nat) (m : Mod) : m.out <+: (faultPort q m).out := by
  unfold faultPort
  extract_lets down part told
  have htold : m.out <+: told.out := hostEvent_grows 0x07 part q 1 0 down
  split
  · exact htold
  · exact htold
theorem startEchoes_grows (q : Nat) (m : Mod) : m.out <+: (startEchoes q m).out := by
  unfold startEchoes
  extract_lets f g peer named
  split
  · exact faultPort_grows q named
  · exact (sendSym_onward q symEchoReq 0 0 _ named).out
theorem trainings_grows (m : Mod) : m.out <+: (trainings m).out := by
  have hfold : ∀ (l : List (Nat × Port)) (n : Mod),
      n.out <+: (l.foldl (fun m x => if x.2.state == .training && !x.2.echoes then startEchoes x.1 m else m) n).out := fun l => by
    induction l with
    | nil => exact fun _ => List.prefix_rfl
    | cons x l ih =>
      intro n
      refine List.IsPrefix.trans ?_ (ih _)
      dsimp only
      split
      · exact startEchoes_grows ..
      · exact List.prefix_rfl
  exact hfold _ m

/-! The whole tick -/

theorem raiseTick_onward (m : Mod) : Onward m (raiseTick m) :=
  Onward.trans (n := { m with tickOutHigh := srcNow m + 320 }) (Onward.of_wires (by unfold wires; rfl)) (Onward.emit ..)
theorem tickLines_onward (m : Mod) : Onward m (tickLines m) := by
  have hraise : ∀ (c : Bool) (y : Mod), Onward y (if c then raiseTick y else y) := fun c y => by
    split
    · exact raiseTick_onward y
    · exact Onward.refl y
  have hrelease : ∀ (c : Bool) (y : Mod), Onward y (if c then emit (.barrier false) { y with released := false, releaseDue := true } else y) :=
    fun c y => by
    split
    · exact Onward.trans (n := { y with released := false, releaseDue := true }) (Onward.of_wires (by unfold wires; rfl)) (Onward.emit ..)
    · exact Onward.refl y
  unfold tickLines
  extract_lets lined raised
  exact (lineNow_onward m).trans ((hraise _ lined).trans (hrelease _ raised))

theorem downPorts_of_settled {m n : Mod} (h : settled n = settled m) : downPorts n = downPorts m := by
  have hrole := congrArg downPorts h
  unfold settled clock calm at hrole
  exact hrole
theorem role_of_settled {m n : Mod} (h : settled n = settled m) : n.role = m.role := by
  have hrole := congrArg Mod.role h
  unfold settled clock calm at hrole
  exact hrole

/-- What is sent down from a later module is sent down from this one. -/
theorem sentDown_of_onward {ty : Nat} {tag : BitVec 16} {seq arg : W32} {m n k : Mod} (h : Onward m n) (hset : settled n = settled m)
    (hsent : sentDown ty tag seq arg n k) : sentDown ty tag seq arg m k := by
  intro q hq hopen
  refine hsent q (by rwa [downPorts_of_settled hset]) ?_
  unfold symOpen at hopen ⊢
  rwa [h.ports]

theorem cycleZero_onward {m : Mod} (h : AtRest m) : Onward m (cycleZero m) := by
  have hstill : linkCycle m = m := by
    unfold linkCycle
    rw [h.linksBusy]
    rfl
  have hreset : ∀ n : Mod, Onward n { n with tick := m.tick + 1, phase := 0 } := fun n => Onward.of_wires (by unfold wires; rfl)
  unfold cycleZero
  rw [hstill]
  exact (advance_onward 1 m).trans ((hreset _).trans (Onward.of_wires ((wires_checkStalls _).trans (wires_dueTrapsNow _))))

/-- The next tick of the system master, its links at rest: what is due for jobs of other modules leaves (R397; log entry 137). -/
theorem nextTick_abandons {m : Mod} (hrole : m.role = roleMaster) (hpower : m.power.active = false) (hrest : AtRest m) (hs : m.syncing = none)
    {e : Nat × OtherJob} (he : e ∈ m.others) {seq word : W32} {due : BitVec 48} (ha : e.2.abandon = some (seq, word, due))
    (hdue : tickReached { m with tick := m.tick + 1, phase := 0 } due = true) :
    sentDown symAbandon (BitVec.ofNat 16 e.1) seq (wireWord word) m (nextTick m) := by
  obtain ⟨hpassed, hcycles⟩ := passCycles_atRest hrest (639 - m.phase)
  obtain ⟨hanswered, hquote⟩ := answerQuote_atRest hpassed
  have hlast := (passCycles_later (639 - m.phase) m).trans (Later.of_clock (clock_answerQuote _))
  obtain ⟨-, htick, -, hset⟩ := cycleZero_fields (answerQuote (passCycles (639 - m.phase) m))
  have hzero := (hcycles.trans hquote).trans (cycleZero_onward hanswered)
  have hsetZero := hset.trans hlast.settled
  show sentDown _ _ _ _ m (atTick (cycleZero (answerQuote (passCycles (639 - m.phase) m))))
  rw [atTick_eq ((syncing_of_settled hsetZero).trans hs)]
  generalize cycleZero (answerQuote (passCycles (639 - m.phase) m)) = z at *
  have hdone := (tickLines_later z).trans ((Later.of_clock (clock_sendTicks _)).trans (Later.of_clock (clock_sendRecords _)))
  have hon := hzero.trans ((tickLines_onward z).trans ((sendTicks_onward _).trans (sendRecords_onward _)))
  generalize sendRecords (sendTicks (tickLines z)) = n at *
  have hsetAll := hdone.settled.trans hsetZero
  have hdueNow : tickReached n due = true := by
    unfold tickReached at hdue ⊢
    rwa [hdone.tick, htick, hlast.tick]
  have hsent := sendAbandons_sends ((role_of_settled hsetAll).trans hrole) ((congrArg _ (power_of_settled hsetAll)).trans hpower) (hon.others ▸ he) ha hdueNow
  intro q hq hopen
  exact (trainings_grows _).subset (sentDown_of_onward hon hsetAll hsent q hq hopen)

/-- With no command running and no partition that ends, nothing is due before the tick goes on. -/
theorem finishDue_idle {ch : Chip} {m : Mod} (hrun : m.box.running = none) (hend : eachPart (fun x => x.ending = none) m) :
    finishCommand (endsDue ch m) = m := by
  have hends : endsDue ch m = m := by
    unfold endsDue
    generalize List.range 8 = l
    induction l with
    | nil => rfl
    | cons p l ih =>
      rw [List.foldl_cons, hend.partOf rfl p]
      exact ih
  rw [hends]
  unfold finishCommand
  rw [hrun]

end Sys2Proof.Machine

open Sys2Proof Sys2Proof.Machine

/-- Settles O45, by a rule for each symbol: the partition it names, and what it sends on. -/
theorem symbolsAct : Obligations.SymbolsAct := by
  intro q y s
  refine ⟨fun p hp => ⟨fun hopen hdown hseq => ?_, fun hup hd => ⟨?_, ?_, fun hpower => ?_⟩, fun hup hpower hseq => ?_,
    fun hopen hdown hrole hseq hgo hseen hdue => ?_⟩, fun hopen hdown hrole hup hopenUp => ?_,
    fun hopen hdown hrole hr o ho => ⟨fun hf hc => ?_, fun t hf ha hc => ?_, fun t hf ht => ?_⟩,
    fun o seq w t hrole hpower hlinks hs hrun hend he ha hdue => ?_, fun w hopen => execEchoReq_open hopen, fun rt ta => ⟨?_, ?_⟩⟩
  · exact execReady_kept hp hopen hdown hseq
  · obtain ⟨u, he, hsent⟩ := execGo_decides hp hup hd
    refine ⟨_, he, ?_⟩
    dsimp only
    rw [partOf_modPart_self]
    obtain ⟨hkept, hwhich⟩ := takeGo_keeps hd
    exact ⟨hkept, hwhich, sentDown_of_out hsent rfl⟩
  · obtain ⟨u, he, hsent⟩ := execSlip_decides hp hup hd
    refine ⟨_, he, ?_⟩
    dsimp only
    rw [partOf_modPart_self]
    exact ⟨rfl, sentDown_of_out hsent rfl⟩
  · have hslip : remoteWord slipLimitWord = 0x9FFF000D := by decide
    obtain ⟨hj, hf⟩ := symPart_running hp
    obtain ⟨u, he, hsent⟩ := execFault_decides hp hup hd
    obtain ⟨hfailed, hstate, -, hword, hout⟩ := abandonOrHold_shows (p := p) (m := { s.m with out := u })
      (y := { y with seq := (partOf s.m p).stepNum, arg := slipLimitWord }) (ta := decisionTick (partOf s.m p)) hj hf rfl hpower (fromUp_not_master hup)
    exact ⟨_, he, hfailed, hstate, fun hr => (hword hr).trans hslip, sentDown_of_out hsent hout⟩
  · obtain ⟨hj, hf⟩ := symPart_running hp
    obtain ⟨u, he, hsent⟩ := execAbandon_up hp hup
    obtain ⟨hfailed, hstate, hta, -, hout⟩ := abandonOrHold_shows (p := p) (m := { s.m with out := u }) (ta := nearestTick s.m s.m.masterDelay)
      hj hf hseq.symm hpower (fromUp_not_master hup)
    exact ⟨_, he, hfailed, hstate, hta, sentDown_of_out hsent hout⟩
  · exact ⟨_, execFail_own hopen hdown hrole hp hseq, masterFail_first hgo hseen hdue⟩
  · exact ⟨_, execFail_relay hopen hdown hrole hup hopenUp, emit_out ..⟩
  · exact ⟨_, execFail_other hopen hdown hrole hr, otherFail_first ho hf hc⟩
  · exact ⟨_, execFail_other hopen hdown hrole hr, otherFail_late ho hf ha hc⟩
  · exact ⟨_, execFail_other hopen hdown hrole hr, otherFail_again ho hf ht⟩
  · have htag : BitVec.ofNat 16 y.jobTag.toNat = y.jobTag := by simp
    have hsent := nextTick_abandons hrole hpower (atRest_of_linksBusy hpower hlinks) hs he ha hdue
    rw [htag] at hsent
    refine ⟨_, ?_, hsent⟩
    show Host.Outcome.next { s with m := nextTick (finishCommand (endsDue s.chip s.m)) } = _
    rw [finishDue_idle hrun hend]
  · exact gives_echoReply_training
  · exact gives_echoReply_up
end

section
/-! Proofs. The commands of a job: its start, scrubs and checkpoints that are armed or over. -/

namespace Sys2Proof.Machine

/-! JOB_START -/

theorem foldl_max_le {l : List SchedEv} {a n : Nat} (ha : a ≤ n) (h : ∀ e ∈ l, e.offset ≤ n) : l.foldl (fun a e => Nat.max a e.offset) a ≤ n := by
  induction l generalizing a with
  | nil => exact ha
  | cons e l ih =>
    exact ih (Nat.max_le.mpr ⟨ha, h e List.mem_cons_self⟩) fun f hf => h f (List.mem_cons_of_mem e hf)

/-- A tick ahead, by at most 2^46 (R41). -/
theorem tickPast_false {m : Mod} {t : BitVec 48} (h : 0 < (t - m.tick).toNat) (hle : (t - m.tick).toNat ≤ 2 ^ 46) : tickPast m t = false := by
  have hne : t ≠ m.tick := fun he => by simp [he] at h
  have hnear : ¬ 2 ^ 47 ≤ (t - m.tick).toNat := by omega
  unfold tickPast
  rw [beq_false_of_ne hne, decide_eq_false hnear]
  rfl
theorem tickFar_false {m : Mod} {t : BitVec 48} (hle : (t - m.tick).toNat ≤ 2 ^ 46) : tickFar m t = false := by
  unfold tickFar
  simpa using hle
theorem toNat_add_sub_le {t b : BitVec 48} {n : Nat} (h : (t - b).toNat + n ≤ 2 ^ 46) : (t + BitVec.ofNat 48 n - b).toNat ≤ 2 ^ 46 := by
  have he : t + BitVec.ofNat 48 n - b = (t - b) + BitVec.ofNat 48 n := by
    rw [BitVec.sub_eq_add_neg, BitVec.sub_eq_add_neg, BitVec.add_assoc, BitVec.add_comm (BitVec.ofNat 48 n), ← BitVec.add_assoc]
  rw [he, BitVec.toNat_add, BitVec.toNat_ofNat]
  omega

/-- What JOB_START makes of a partition (R438). -/
def armedJob (t : BitVec 48) (retain : Bool) (x : Part) : Part :=
  armStep t { x with jstate := .armed, retain := retain, startTick := t, restartTick := t }

theorem jobStart_carries {f : Frame} {s : State} (ha : accepts f 0x0302 s.m) (hf : plainOk f [(0, 0x107), (1, all32), (2, 0xFFFF)] = true)
    (hj : (partOf s.m (argPart f)).jstate = .loaded) (ht : 0 < (BitVec.ofNat 48 (arg48 f 1) - s.m.tick).toNat)
    (hle : (BitVec.ofNat 48 (arg48 f 1) - s.m.tick).toNat ≤ 2 ^ 46)
    (hsched : ∀ e ∈ (partOf s.m (argPart f)).sched, (BitVec.ofNat 48 (arg48 f 1) - s.m.tick).toNat + e.offset ≤ 2 ^ 46) :
    Carries (.jobStart f) f 0x0302 s [] [] (modPart (argPart f) (armedJob (BitVec.ofNat 48 (arg48 f 1)) (bit (arg f 0) 8)) s.m) := by
  have hpast : tickPast (taken f 0x0302 s.m) (BitVec.ofNat 48 (arg48 f 1)) = false := tickPast_false ht hle
  have hfar : tickFar (taken f 0x0302 s.m) (BitVec.ofNat 48 (arg48 f 1)) = false := tickFar_false hle
  have hany : (partOf s.m (argPart f)).sched.any
      (fun e => tickFar (taken f 0x0302 s.m) (BitVec.ofNat 48 (arg48 f 1) + BitVec.ofNat 48 e.offset)) = false :=
    List.any_eq_false.mpr fun e he => by
      have hnear : tickFar (taken f 0x0302 s.m) (BitVec.ofNat 48 (arg48 f 1) + BitVec.ofNat 48 e.offset) = false :=
        tickFar_false (toNat_add_sub_le (hsched e he))
      rw [hnear]
      exact Bool.false_ne_true
  have hlast : (partOf s.m (argPart f)).sched.foldl (fun a e => Nat.max a e.offset) 0 ≤ 2 ^ 46 :=
    foldl_max_le (Nat.zero_le _) fun e he => Nat.le_trans (Nat.le_add_left ..) (hsched e he)
  have hend := decide_eq_false (Nat.not_lt.mpr hlast)
  refine (carries_done rfl ha rfl ?_).rest ⟨_, s.m.out, rfl⟩
  simp only [partOf_taken, hpast, hfar, hany, hf, hj, List.forall_mem_cons, List.not_mem_nil]
  exact ⟨rfl, rfl, rfl, trivial, hend, fun _ h => h.elim⟩

theorem gives_jobStart {f : Frame} {s : State} {t : BitVec 48} (ha : accepts f 0x0302 s.m)
    (hf : plainOk f [(0, 0x107), (1, all32), (2, 0xFFFF)] = true) (hj : (partOf s.m (argPart f)).jstate = .loaded)
    (he : t = BitVec.ofNat 48 (arg48 f 1)) (ht : 0 < (t - s.m.tick).toNat) (hle : (t - s.m.tick).toNat ≤ 2 ^ 46)
    (hsched : ∀ e ∈ (partOf s.m (argPart f)).sched, (t - s.m.tick).toNat + e.offset ≤ 2 ^ 46) :
    Gives (.jobStart f) s (fun m' => answered f 0x0302 0 [] [] m' ∧ otherParts (argPart f) s.m m' ∧
      m' = { s.m with parts := m'.parts, box := m'.box, out := m'.out } ∧
      partOf m' (argPart f) = armedJob t (bit (arg f 0) 8) (partOf s.m (argPart f))) := by
  subst he
  refine Gives.mono (jobStart_carries ha hf hj ht hle hsched) fun m' ⟨hans, hm⟩ => ⟨hans, ?_⟩
  have hparts : m'.parts = (modPart (argPart f) (armedJob (BitVec.ofNat 48 (arg48 f 1)) (bit (arg f 0) 8)) s.m).parts := by rw [hm]
  obtain ⟨hpart, hothers⟩ := partOf_of_parts hparts
  exact ⟨hothers, by rw [hm]; rfl, hpart⟩

/-! JOB_START_TICK -/

/-- Does the tile run from its START_PC? -/
def startedFrom (d d' : TileData) : Prop := d'.st = .running ∧ d'.pc = d.startPc

theorem goTile_ne {t u : Nat} (h : t ≠ u) (m : Mod) : tileOf (goTile t m) u = tileOf m u := by
  unfold goTile
  extract_lets d c
  split
  · split
    · rw [(trapTile_padKept ..).others u h.symm, tileOf_modTd, if_neg h]
    · rw [tileOf_modTd, if_neg h]
  · rw [tileOf_modTd, if_neg h]
  · rfl

theorem goTile_idle {t : Nat} {m : Mod} (hst : (tdOf m t).st = .idle) (hstop : (tdOf m t).stopDue = false) :
    startedFrom (tdOf m t) (tdOf (goTile t m) t) := by
  unfold goTile
  dsimp only
  rw [hst]
  dsimp only
  rw [hstop, if_neg Bool.false_ne_true, tdOf_modTd_self]
  exact ⟨rfl, rfl⟩
theorem goTile_running {t : Nat} {m : Mod} (hst : (tdOf m t).st = .running) : goTile t m = m := by
  unfold goTile
  dsimp only
  rw [hst]

/-- The tiles of a list start, each once, whatever else is in it. -/
theorem foldl_goTile_started {l : List Nat} {t : Nat} {d : TileData} {m : Mod} (h : startedFrom d (tdOf m t)) :
    startedFrom d (tdOf (l.foldl (fun m t => goTile t m) m) t) := by
  induction l generalizing m with
  | nil => exact h
  | cons u l ih =>
    refine ih ?_
    dsimp only
    by_cases hu : u = t
    · subst hu
      rw [goTile_running h.1]
      exact h
    · unfold tdOf at h ⊢
      rwa [goTile_ne hu]
theorem foldl_goTile_idle {l : List Nat} {t : Nat} (ht : t ∈ l) {m : Mod} (hst : (tdOf m t).st = .idle) (hstop : (tdOf m t).stopDue = false) :
    startedFrom (tdOf m t) (tdOf (l.foldl (fun m t => goTile t m) m) t) := by
  induction l generalizing m with
  | nil => exact absurd ht List.not_mem_nil
  | cons u l ih =>
    by_cases hu : u = t
    · subst hu
      exact foldl_goTile_started (l := l) (goTile_idle hst hstop)
    · have htd : tdOf (goTile u m) t = tdOf m t := by
        unfold tdOf
        rw [goTile_ne hu]
      rw [List.foldl_cons, ← htd]
      exact ih ((List.mem_cons.mp ht).resolve_left (Ne.symm hu)) (by rw [htd]; exact hst) (by rw [htd]; exact hstop)

@[simp] theorem calm_goTile (t : Nat) (m : Mod) : calm (goTile t m) = calm m := by
  unfold goTile
  dsimp only
  split
  · split
    · simp
    · exact calm_modTd ..
  · exact calm_modTd ..
  · rfl

/-- A partition at cycle 0 of its start (R86, R438). -/
def startedPart (at_ : Nat) (x : Part) : Part := { x with boundary := at_, xphase := .compute, rstate := .running, stepFailed := false }

/-- Where neither a checkpoint nor a clock event holds the tiles, they start with the partition. -/
theorem startTiles_free {p c : Nat} {m : Mod} (hck : (partOf m p).ckpt = none) (hclk : Machine.clockEvents (partOf m p) = []) :
    startTiles p c m = modPart p (startedPart (c - (partOf m p).lag)) ((tilesOfPart m p).foldl (fun m t => goTile t m) m) := by
  have hside : jobSide (partOf ((tilesOfPart m p).foldl (fun m t => goTile t m) m) p) = jobSide (partOf m p) :=
    jobSide_of_calm (calm_foldl (fun _ _ => calm_goTile ..) _ _) p
  generalize hn : (tilesOfPart m p).foldl (fun m t => goTile t m) m = n at hside
  have hnock : (partOf n p).ckpt = none := (congrArg Part.ckpt hside).trans hck
  have hnoclk : Machine.clockEvents (partOf n p) = [] := (congrArg Machine.clockEvents hside).trans hclk
  have hheld : holdForCkpt p (c - (partOf m p).lag) (modPart p (startedPart (c - (partOf m p).lag)) n) =
      modPart p (startedPart (c - (partOf m p).lag)) n := by
    unfold holdForCkpt
    rw [partOf_modPart_self, show (startedPart (c - (partOf m p).lag) (partOf n p)).ckpt = none from hnock]
  unfold startTiles
  extract_lets at_ gone
  rw [show gone = n from hn]
  show holdForClock p at_ (holdForCkpt p at_ (modPart p (startedPart at_) n)) = _
  rw [hheld]
  unfold holdForClock
  rw [partOf_modPart_self, show Machine.clockEvents (startedPart (c - (partOf m p).lag) (partOf n p)) = [] from hnoclk]
  rfl

theorem startLine_fields (p : Nat) (m : Mod) :
    (startLine p m).parts = m.parts ∧ (startLine p m).tiles = m.tiles := by
  unfold startLine
  split
  · exact ⟨rfl, rfl⟩
  · dsimp only
    split
    · unfold lineNow
      split <;> exact ⟨rfl, rfl⟩
    · exact ⟨rfl, rfl⟩

theorem gives_jobStartTick {k : PartId} {s : State} (hpower : s.m.power.active = false) (hj : (partOf s.m k.val).jstate = .armed)
    (ht : tickReached s.m (partOf s.m k.val).startTick = true) (hck : (partOf s.m k.val).ckpt = none)
    (hclk : Machine.clockEvents (partOf s.m k.val) = []) :
    Gives (.jobStartTick k) s (fun m' => (partOf m' k.val).jstate = .running ∧ (partOf m' k.val).xphase = .compute ∧
      ∀ t, t ∈ tilesOfPart s.m k.val → (tdOf s.m t).st = .idle → (tdOf s.m t).stopDue = false → startedFrom (tdOf s.m t) (tdOf m' t)) := by
  have he : exec (.jobStartTick k) s = .next { s with
      m := startTiles k.val (Nat.max (cycleOfTick s.m (partOf s.m k.val).startTick) s.m.power.restartNow)
        (startLine k.val (modPart k.val (fun x => { x with jstate := .running }) s.m)) } := by
    show execJobStartTick k s = _
    unfold execJobStartTick onMod
    dsimp only
    rw [if_neg (by simp [hpower, hj, ht])]
  refine ⟨_, he, ?_⟩
  obtain ⟨hparts, htiles⟩ := startLine_fields k.val (modPart k.val (fun x => { x with jstate := .running }) s.m)
  have hpart : partOf (startLine k.val (modPart k.val (fun x => { x with jstate := .running }) s.m)) k.val =
      { partOf s.m k.val with jstate := .running } := by
    unfold partOf at *
    rw [hparts]
    exact partOf_modPart_self ..
  have htile : ∀ t, tdOf (startLine k.val (modPart k.val (fun x => { x with jstate := .running }) s.m)) t = tdOf s.m t := fun t => by
    unfold tdOf tileOf
    rw [htiles]
    rfl
  have hof : tilesOfPart (startLine k.val (modPart k.val (fun x => { x with jstate := .running }) s.m)) k.val = tilesOfPart s.m k.val := by
    unfold tilesOfPart
    rw [hpart]
  generalize startLine k.val (modPart k.val (fun x => { x with jstate := .running }) s.m) = n at *
  rw [startTiles_free (by rw [hpart]; exact hck) (by rw [hpart]; exact hclk)]
  have hside : jobSide (partOf ((tilesOfPart n k.val).foldl (fun m t => goTile t m) n) k.val) = jobSide (partOf n k.val) :=
    jobSide_of_calm (calm_foldl (fun _ _ => calm_goTile ..) _ _) k.val
  refine ⟨?_, ?_, fun t ht hst hstop => ?_⟩
  · rw [partOf_modPart_self]
    exact (congrArg Part.jstate hside).trans (by rw [hpart])
  · rw [partOf_modPart_self]
    rfl
  · rw [tdOf_modPart, ← htile t]
    exact foldl_goTile_idle (hof ▸ ht) (by rw [htile]; exact hst) (by rw [htile]; exact hstop)

/-! SCRUB, CKPT_SAVE and the end of a save -/

theorem scrub_carries {f : Frame} {s : State} (ha : accepts f 0x0305 s.m) (hf : plainOk f [(0, 7)] = true)
    (hr : (partOf s.m (argPart f)).rstate = .killedRetained) : Carries (.scrub f) f 0x0305 s [] []
      (modPart (argPart f) (fun y => { y with jstate := .scrubbing, rstate := .scrubbing, endAs := some (.none, y.endCause) }) s.m) := by
  refine (carries_done rfl ha rfl ?_).rest ⟨_, s.m.out, rfl⟩
  simp [hf, hr]

/-- The save that CKPT_SAVE arms (R441). -/
def armedSave (f : Frame) : CkptArm :=
  { step := BitVec.ofNat 32 (arg f 1), resume := BitVec.ofNat 48 (arg48 f 2), dest := bits (arg f 4) 13 0, port := bits (arg f 4) 21 16
    addr := arg48 f 5, capacity := arg f 7 * 4096, tag := bits (arg f 8) 15 0, seq := f.seq, opcode := 0x0306, running := false, due := false }

theorem ckptSave_carries {f : Frame} {s : State} (ha : accepts f 0x0306 s.m)
    (hf : plainOk f [(0, 7), (1, all32), (2, all32), (3, 0xFFFF), (4, 0x3F3FFF), (5, all32), (6, 0xFFFF), (7, all32), (8, 0xFFFF)] = true)
    (hlive : jobLive (partOf s.m (argPart f)) = true) (hck : (partOf s.m (argPart f)).ckpt = none)
    (ht : 0 < (BitVec.ofNat 48 (arg48 f 2) - s.m.tick).toNat) (hle : (BitVec.ofNat 48 (arg48 f 2) - s.m.tick).toNat ≤ 2 ^ 46)
    (hbad : badRemote f = false) (hstep : (BitVec.ofNat 32 (arg f 1) - (partOf s.m (argPart f)).stepNum).toNat ≤ 2 ^ 30) :
    Carries (.ckptSave f) f 0x0306 s [] [] (modPart (argPart f) (fun x => { x with ckpt := some (armedSave f) }) s.m) := by
  have hpast : tickPast (taken f 0x0306 s.m) (BitVec.ofNat 48 (arg48 f 2)) = false := tickPast_false ht hle
  have hfar : tickFar (taken f 0x0306 s.m) (BitVec.ofNat 48 (arg48 f 2)) = false := tickFar_false hle
  have hnear := decide_eq_false (Nat.not_lt.mpr hstep)
  refine (carries_done rfl ha rfl ?_).rest ⟨_, s.m.out, rfl⟩
  simp only [partOf_taken, hpast, hfar, hf, hlive, hck, hbad, List.forall_mem_cons, List.not_mem_nil]
  exact ⟨rfl, rfl, rfl, trivial, trivial, hnear, fun _ h => h.elim⟩

theorem gives_ckptSave {f : Frame} {s : State} {t : BitVec 48} (ha : accepts f 0x0306 s.m)
    (hf : plainOk f [(0, 7), (1, all32), (2, all32), (3, 0xFFFF), (4, 0x3F3FFF), (5, all32), (6, 0xFFFF), (7, all32), (8, 0xFFFF)] = true)
    (hlive : jobLive (partOf s.m (argPart f)) = true) (hck : (partOf s.m (argPart f)).ckpt = none)
    (he : t = BitVec.ofNat 48 (arg48 f 2)) (ht : 0 < (t - s.m.tick).toNat) (hle : (t - s.m.tick).toNat ≤ 2 ^ 46)
    (hbad : badRemote f = false) (hstep : (BitVec.ofNat 32 (arg f 1) - (partOf s.m (argPart f)).stepNum).toNat ≤ 2 ^ 30) :
    Gives (.ckptSave f) s (fun m' => answered f 0x0306 0 [] [] m' ∧ otherParts (argPart f) s.m m' ∧
      ∃ k, partOf m' (argPart f) = { partOf s.m (argPart f) with ckpt := some k } ∧ k.step = BitVec.ofNat 32 (arg f 1) ∧ k.resume = t ∧
        k.addr = arg48 f 5 ∧ k.capacity = 4096 * arg f 7 ∧ k.seq = f.seq ∧ k.due = false) := by
  subst he
  refine Gives.mono (ckptSave_carries ha hf hlive hck ht hle hbad hstep) fun m' ⟨hans, hm⟩ => ⟨hans, ?_⟩
  have hparts : m'.parts = (modPart (argPart f) (fun x => { x with ckpt := some (armedSave f) }) s.m).parts := by rw [hm]
  obtain ⟨hpart, hothers⟩ := partOf_of_parts hparts
  exact ⟨hothers, armedSave f, hpart, rfl, rfl, rfl, Nat.mul_comm .., rfl, rfl⟩

theorem partOf_hostEvent (cl p sr d a : Nat) (m : Mod) (r : Nat) : partOf (hostEvent cl p sr d a m) r = partOf m r := by
  obtain ⟨b, u, he, -, -⟩ := hostEvent_rest cl p sr d a m
  rw [he]
  rfl

/-- The end of a save releases the partition (R441). -/
theorem releaseCkpt_shows (p : Nat) (m : Mod) : (partOf (releaseCkpt p m) p).ckpt = none ∧ (partOf (releaseCkpt p m) p).heldForCkpt = false := by
  have hcalm : calm (releaseCkpt p m) = calm (modPart p (fun x => { x with ckpt := none, heldForCkpt := false }) m) := by
    unfold releaseCkpt
    refine calm_foldl (fun n t => ?_) _ _
    split
    · rfl
    · split
      · exact calm_releaseAt ..
      · exact calm_modTd ..
  have hside := jobSide_of_calm hcalm p
  rw [partOf_modPart_self] at hside
  exact ⟨congrArg Part.ckpt hside, congrArg Part.heldForCkpt hside⟩

theorem gives_ckptSaveComplete {q : PartId} {ok : Bool} {k : CkptArm} {s : State} (hck : (partOf s.m q.val).ckpt = some k)
    (hrun : k.running = true) (hpower : s.m.power.active = false) :
    Gives (.ckptSaveComplete q ok) s (fun m' => (partOf m' q.val).ckpt = none ∧ (partOf m' q.val).heldForCkpt = false) := by
  have he : exec (.ckptSaveComplete q ok) s = .next { s with m := endSave q.val (if ok then stOk else stRemote) k s.m } := by
    show execCkptSaveComplete q ok s = _
    unfold execCkptSaveComplete onMod
    dsimp only
    rw [hck]
    dsimp only
    rw [if_pos (by rw [hrun, hpower]; rfl)]
  refine ⟨_, he, ?_⟩
  unfold endSave commandDone
  dsimp only
  rw [partOf_hostEvent]
  exact releaseCkpt_shows ..

end Sys2Proof.Machine
end

section
/-! Proofs. Loading and restoring a job. -/

namespace Sys2Proof.Machine

theorem execCommandChip_gives {c : Instr} {f : Frame} {o : Nat} {long : Bool} {run : Chip → Mod → Answer} {s : State}
    (hc : exec c s = execCommandChip f o long run s) (h : accepts f o s.m) (ha : (run s.chip (taken f o s.m)).after = id) :
    Gives c s (fun m' => answered f o (run s.chip (taken f o s.m)).status (run s.chip (taken f o s.m)).w (run s.chip (taken f o s.m)).data m' ∧
      m' = { (run s.chip (taken f o s.m)).m with box := m'.box, out := m'.out }) := by
  refine ⟨command f o long (run s.chip) s.m, ?_, ?_⟩
  · rw [hc]
    unfold execCommandChip onChipIf
    rw [h.1]
    rfl
  · rw [command_accepts h]
    dsimp only
    rw [ha]
    split
    · exact ⟨rfl, rfl⟩
    · exact ⟨answerOf_respond .., respond_rest ..⟩

theorem partOf_foldl {α : Type} {f : Mod → α → Mod} {p : Nat} (h : ∀ m a, partOf (f m a) p = partOf m p) (l : List α) (m : Mod) :
    partOf (l.foldl f m) p = partOf m p := by
  induction l generalizing m with
  | nil => rfl
  | cons a l ih => exact (ih _).trans (h m a)

/-! LOAD -/

/-- The partition a LOAD leaves (R437). -/
theorem finishLoad_shows (p : Nat) (f : Lof) (secs : List Sec) (objs : List Obj) (owner : W32) (tag : BitVec 16) (hash : List Byte) (m : Mod) :
    (partOf (finishLoad p f secs objs owner tag hash m) p).jstate = .loaded ∧
      (partOf (finishLoad p f secs objs owner tag hash m) p).rstate = .restartWait ∧
      (partOf (finishLoad p f secs objs owner tag hash m) p).owner = owner ∧
      (partOf (finishLoad p f secs objs owner tag hash m) p).tag = tag ∧
      (partOf (finishLoad p f secs objs owner tag hash m) p).hash = hash := by
  unfold finishLoad
  extract_lets rebased set tagged bridled ported
  have hset : (partOf set p).jstate = .loaded ∧ (partOf set p).rstate = .restartWait ∧ (partOf set p).owner = owner ∧ (partOf set p).tag = tag ∧
      (partOf set p).hash = hash := by
    unfold set
    rw [partOf_modPart_self]
    exact ⟨rfl, rfl, rfl, rfl, rfl⟩
  have htagged : partOf tagged p = partOf set p := partOf_foldl (fun _ _ => partOf_modEp ..) _ _
  have hbridled : partOf bridled p = partOf tagged p := by
    unfold bridled
    split <;> rfl
  have hported : partOf ported p = partOf bridled p := partOf_foldl (fun _ _ => partOf_modPort ..) _ _
  rw [partOf_foldl (fun _ _ => partOf_modTile ..), hported, hbridled, htagged]
  exact hset

/-- A LOAD whose steps all succeed has finished. -/
theorem loadSteps_ok {p own : Nat} {bytes ranks : List Byte} {owner : W32} {tag : BitVec 16} {m m1 : Mod}
    (h : loadSteps p bytes ranks own owner tag m = .ok m1) :
    ∃ secs objs after, m1 = finishLoad p (readLof bytes) secs objs owner tag (sha384 bytes) after := by
  unfold loadSteps at h
  extract_lets f patches touched idle early at h
  split at h
  · cases h
  · split at h
    · cases h
    · extract_lets value at h
      split at h
      · cases h
      · split at h
        · cases h
        · extract_lets after at h
          split at h
          · cases h
          · split at h
            · cases h
            · cases h
              exact ⟨_, _, _, rfl⟩

theorem firstStatus_none_iff {l : List (Bool × Nat)} : firstStatus l = none ↔ ∀ e ∈ l, e.1 = false := by
  simp [firstStatus]

theorem gives_load {f : Frame} {s : State} {m1 : Mod} {l r : Bool × List Byte × Mod} (ha : accepts f 0x0301 s.m)
    (hf : plainOk f [(0, 7), (1, all32), (2, 0xFFFF), (3, all32), (4, all32), (5, 0xFFFF), (6, all32), (7, 0xFFFF), (8, 0x3FFF), (9, 0x3FFF)] = true)
    (hidle : (partOf s.m (argPart f)).rstate = .idle) (htiles : ∀ t ∈ tilesOfPart s.m (argPart f), tileStopped (tdOf s.m t) = true)
    (hreads : firstStatus (readChecks (taken f 0x0301 s.m) (argPart f) (arg48 f 1) (arg f 3) ++
      readChecks (taken f 0x0301 s.m) (argPart f) (arg48 f 6) (2 * arg f 8)) = none)
    (hl : l = readDram (taken f 0x0301 s.m) (arg48 f 1) (arg f 3)) (hr : r = readDram l.2.2 (arg48 f 6) (2 * arg f 8))
    (hlok : l.1 = false) (hrok : r.1 = false) (hhead : headFail s.chip r.2.2 (argPart f) (arg f 8) (arg f 9) l.2.1 r.2.1 = none)
    (hsteps : loadSteps (argPart f) l.2.1 r.2.1 (arg f 9) (BitVec.ofNat 32 (arg f 4)) (BitVec.ofNat 16 (arg f 5))
      (unloadOld s.chip (argPart f) r.2.2) = .ok m1) :
    Gives (.load f) s (fun m' => answered f 0x0301 0 [] [] m' ∧ (partOf m' (argPart f)).jstate = .loaded ∧
      (partOf m' (argPart f)).rstate = .restartWait ∧ (partOf m' (argPart f)).owner = BitVec.ofNat 32 (arg f 4) ∧
      (partOf m' (argPart f)).tag = BitVec.ofNat 16 (arg f 5) ∧ (partOf m' (argPart f)).hash = sha384 l.2.1) := by
  have hbusy : (tilesOfPart (taken f 0x0301 s.m) (argPart f)).any (fun t => !tileStopped (tdOf (taken f 0x0301 s.m) t)) = false :=
    List.any_eq_false.mpr fun t ht => by
      rw [show tileStopped (tdOf (taken f 0x0301 s.m) t) = true from htiles t ht]
      decide
  have hans : loadAnswer s.chip f (taken f 0x0301 s.m) =
      { status := stOk, m := m1, undo := .load (argPart f) (tablesOf r.2.2), most := (arg f 3 + 3) / 4 + (2 * arg f 8 + 3) / 4 } := by
    unfold loadAnswer
    dsimp only
    rw [checked_pass]
    · rw [← hl, ← hr, hlok, hrok, if_neg (by decide), hhead]
      dsimp only
      rw [hsteps]
    · intro e he
      rw [List.append_assoc, List.append_assoc] at he
      obtain he | he := List.mem_append.mp he
      · obtain rfl | he := List.mem_cons.mp he
        · rw [hf]; rfl
        · obtain rfl := List.mem_singleton.mp he
          rw [partOf_taken, hidle]
          rfl
      · rw [← List.append_assoc] at he
        obtain he | he := List.mem_append.mp he
        · exact firstStatus_none_iff.mp hreads e he
        · obtain rfl := List.mem_singleton.mp he
          exact hbusy
  obtain ⟨secs, objs, after, rfl⟩ := loadSteps_ok hsteps
  refine Gives.mono (execCommandChip_gives rfl ha (by rw [hans])) fun m' ⟨hm, hrest⟩ => ?_
  rw [hans] at hm hrest
  obtain ⟨hj, hrs, ho, ht, hh⟩ := finishLoad_shows (argPart f) (readLof l.2.1) secs objs (BitVec.ofNat 32 (arg f 4)) (BitVec.ofNat 16 (arg f 5))
    (sha384 l.2.1) after
  refine ⟨hm, ?_⟩
  rw [hrest]
  exact ⟨hj, hrs, ho, ht, hh⟩

/-! What is sent on a link changes its port alone -/

theorem resendNext_rest (q : Nat) (b : LinkBeat) (r : List LinkBeat) (m : Mod) :
    ∃ ps u, resendNext q b r m = { m with ports := ps, out := u } := ⟨_, _, rfl⟩
theorem takeLink_rest (q cls : Nat) (first last : Bool) (tag transfer : Nat) (body : List W32) (m : Mod) :
    ∃ ps u, takeLink q cls first last tag transfer body m = { m with ports := ps, out := u } := ⟨_, _, rfl⟩
theorem sendWaiting_rest (q i : Nat) (m : Mod) : ∃ ps u, sendWaiting q i m = { m with ports := ps, out := u } := by
  unfold sendWaiting
  split
  · exact ⟨_, _, rfl⟩
  · rename_i b _
    obtain ⟨ps, u, he⟩ := takeLink_rest q b.cls b.first b.last 0 0 b.body (modPort q (fun p => { p with waiting := dropNth p.waiting i }) m)
    rw [he]
    dsimp only
    split <;> exact ⟨_, _, rfl⟩
theorem serveLink_rest (own : Bool) (q n : Nat) (m : Mod) : ∃ ps u, serveLink own q n m = { m with ports := ps, out := u } := by
  induction n generalizing m with
  | zero => exact ⟨_, _, rfl⟩
  | succ n ih =>
    unfold serveLink
    dsimp only
    split
    · exact ⟨_, _, rfl⟩
    · split
      · rename_i b r _
        obtain ⟨ps, u, he⟩ := resendNext_rest q b r m
        obtain ⟨ps', u', he'⟩ := ih (resendNext q b r m)
        exact ⟨ps', u', by rw [he', he]⟩
      · split
        · exact ⟨_, _, rfl⟩
        · split
          · exact ⟨_, _, rfl⟩
          · rename_i i _
            obtain ⟨ps, u, he⟩ := sendWaiting_rest q i m
            obtain ⟨ps', u', he'⟩ := ih (sendWaiting q i m)
            exact ⟨ps', u', by rw [he', he]⟩
theorem queueBeats_rest (q : Nat) (l : List WaitBeat) (m : Mod) : ∃ ps u, queueBeats q l m = { m with ports := ps, out := u } := by
  unfold queueBeats
  split
  · exact ⟨_, _, rfl⟩
  · obtain ⟨ps, u, he⟩ := serveLink_rest true q 32 (modPort q (fun p => { p with waiting := p.waiting ++ l }) m)
    exact ⟨ps, u, by rw [he]; rfl⟩
theorem sendDma_rest (q op : Nat) (k : DmaPkt) (m : Mod) : ∃ ps u, sendDma q op k m = { m with ports := ps, out := u } := queueBeats_rest ..
theorem sendGets_rest (k : CkptArm) (n : Nat) (m : Mod) : ∃ ps u, sendGets k n m = { m with ports := ps, out := u } := by
  unfold sendGets
  generalize List.range n = l
  induction l generalizing m with
  | nil => exact ⟨_, _, rfl⟩
  | cons i l ih =>
    obtain ⟨ps, u, he⟩ := sendDma_rest k.port opGet (ckPacket m k (4096 * i) 4096 []) m
    obtain ⟨ps', u', he'⟩ := ih (sendDma k.port opGet (ckPacket m k (4096 * i) 4096 []) m)
    exact ⟨ps', u', by rw [List.foldl_cons, he', he]⟩

/-! CKPT_RESTORE -/

/-- Where CKPT_RESTORE gets its image from (R443). -/
def restoreArm (f : Frame) : CkptArm :=
  { step := 0, resume := 0, dest := bits (arg f 4) 13 0, port := bits (arg f 4) 21 16, addr := arg48 f 5, capacity := 0
    tag := bits (arg f 8) 15 0, seq := f.seq, opcode := 0x0307, running := false, due := false }

/-- What CKPT_RESTORE does once its checks have passed. -/
def restoreAnswer (ch : Chip) (f : Frame) (image : Option (List Byte)) (m : Mod) : Answer :=
  match image with
  | none => { status := stRemote, m := sendGets (restoreArm f) (arg f 7) m, undo := .restore (argPart f), most := 1024 * arg f 7 }
  | some img =>
    match if imageOk (img.take (4096 * arg f 7)) then matchEntries (sendGets (restoreArm f) (arg f 7) m) (argPart f) (img.take (4096 * arg f 7)) else none with
    | none => { refuse stCkpt (unloadJob ch (argPart f) (sendGets (restoreArm f) (arg f 7) m)) with most := 1024 * arg f 7 }
    | some l =>
      { status := stOk, m := restoreAll (argPart f) (img.take (4096 * arg f 7)) l (sendGets (restoreArm f) (arg f 7) m)
        undo := .restore (argPart f), most := 1024 * arg f 7 }

theorem ckptRestore_gives {f : Frame} {image : Option (List Byte)} {s : State} (ha : accepts f 0x0307 s.m)
    (hf : plainOk f [(0, 7), (4, 0x3F3FFF), (5, all32), (6, 0xFFFF), (7, all32), (8, 0xFFFF)] = true)
    (hj : (partOf s.m (argPart f)).jstate = .loaded) (hbad : badRemote f = false) (hport : portIn s.m (argPart f) (bits (arg f 4) 21 16) = true)
    (hup : (portOf s.m (bits (arg f 4) 21 16)).state = .up) :
    Gives (.ckptRestore f image) s (fun m' =>
      answered f 0x0307 (restoreAnswer s.chip f image (taken f 0x0307 s.m)).status (restoreAnswer s.chip f image (taken f 0x0307 s.m)).w
        (restoreAnswer s.chip f image (taken f 0x0307 s.m)).data m' ∧
      m' = { (restoreAnswer s.chip f image (taken f 0x0307 s.m)).m with box := m'.box, out := m'.out }) := by
  have hans : ∀ a : Answer, checked [(!plainOk f [(0, 7), (4, 0x3F3FFF), (5, all32), (6, 0xFFFF), (7, all32), (8, 0xFFFF)], stBadCommand),
      ((partOf (taken f 0x0307 s.m) (argPart f)).jstate != .loaded, stPartState),
      (badRemote f || !portIn (taken f 0x0307 s.m) (argPart f) (bits (arg f 4) 21 16), stBadArgument),
      ((portOf (taken f 0x0307 s.m) (bits (arg f 4) 21 16)).state != .up, stLinkDown)] (taken f 0x0307 s.m) a = a := fun a => by
    refine checked_pass ?_
    have hport' : portIn (taken f 0x0307 s.m) (argPart f) (bits (arg f 4) 21 16) = true := hport
    simp [hf, hj, hbad, hport', hup]
  have hrun := execCommandChip_gives (c := .ckptRestore f image) (s := s) (run := fun ch m =>
    let p := argPart f
    let q := bits (arg f 4) 21 16
    checked [(!plainOk f [(0, 7), (4, 0x3F3FFF), (5, all32), (6, 0xFFFF), (7, all32), (8, 0xFFFF)], stBadCommand),
      ((partOf m p).jstate != .loaded, stPartState), (badRemote f || !portIn m p q, stBadArgument), ((portOf m q).state != .up, stLinkDown)] m
      (restoreAnswer ch f image m)) (o := 0x0307) (long := true) ?_ ha ?_
  · dsimp only at hrun
    rwa [hans] at hrun
  · cases image <;> rfl
  · dsimp only
    rw [hans]
    unfold restoreAnswer
    cases image with
    | none => rfl
    | some img =>
      dsimp only
      split <;> rfl

theorem partOf_unloadJob (ch : Chip) (p : Nat) (m : Mod) :
    (partOf (unloadJob ch p m) p).jstate = .none ∧ (partOf (unloadJob ch p m) p).endCause = 6 := by
  unfold unloadJob
  rw [partOf_hostEvent, partOf_modPart_self]
  exact ⟨rfl, rfl⟩

/-- The image is looked at as if nothing had been asked for on the link. -/
theorem matchEntries_sendGets (k : CkptArm) (n : Nat) (m : Mod) (p : Nat) (img : List Byte) :
    matchEntries (sendGets k n m) p img = matchEntries m p img := by
  obtain ⟨ps, u, he⟩ := sendGets_rest k n m
  rw [he]
  rfl

theorem restoreAnswer_fits {ch : Chip} {f : Frame} {img : List Byte} {m : Mod} {l : List (Obj × Nat × Nat)}
    (hok : imageOk (img.take (4096 * arg f 7)) = true) (hl : matchEntries m (argPart f) (img.take (4096 * arg f 7)) = some l) :
    restoreAnswer ch f (some img) m =
      { status := stOk, m := restoreAll (argPart f) (img.take (4096 * arg f 7)) l (sendGets (restoreArm f) (arg f 7) m)
        undo := .restore (argPart f), most := 1024 * arg f 7 } := by
  unfold restoreAnswer
  dsimp only
  rw [hok, if_pos rfl, matchEntries_sendGets, hl]
theorem restoreAnswer_unfit {ch : Chip} {f : Frame} {img : List Byte} {m : Mod} (hok : imageOk (img.take (4096 * arg f 7)) = false) :
    restoreAnswer ch f (some img) m =
      { refuse stCkpt (unloadJob ch (argPart f) (sendGets (restoreArm f) (arg f 7) m)) with most := 1024 * arg f 7 } := by
  unfold restoreAnswer
  dsimp only
  rw [hok, if_neg Bool.false_ne_true]

theorem restoreAll_shows (p : Nat) (img : List Byte) (l : List (Obj × Nat × Nat)) (m : Mod) :
    (partOf (restoreAll p img l m) p).stepNum = BitVec.ofNat 32 (leAt img 12 4) ∧
      (partOf (restoreAll p img l m) p).superstep = BitVec.ofNat 32 (leAt img 16 4) ∧
      (partOf (restoreAll p img l m) p).lossMean = BitVec.ofNat 32 (leAt img 20 4) ∧
      (partOf (restoreAll p img l m) p).restoreRequired = false := by
  unfold restoreAll
  rw [partOf_modPart_self]
  exact ⟨rfl, rfl, rfl, rfl⟩

end Sys2Proof.Machine
end

section
/-! Proofs. The beats a link takes, and the start of a checkpoint. -/

namespace Sys2Proof.Machine

/-! The header of a link beat -/

theorem testBit_b2n (b : Bool) (i : Nat) : (b2n b).testBit i = (decide (i = 0) && b) := by
  cases b
  · simp [b2n]
  · cases i with
    | zero => rfl
    | succ i => exact Nat.testBit_lt_two_pow (Nat.one_lt_two_pow (Nat.succ_ne_zero i))

theorem testBit_linkHeader (cls seq : Nat) (first last : Bool) {i : Nat} (hi : i < 64) :
    (linkHeader cls seq first last 0 0).toNat.testBit i =
      ((decide (61 ≤ i) && cls.testBit (i - 61)) || ((decide (45 ≤ i) && (seq % 65536).testBit (i - 45)) ||
        ((decide (44 ≤ i) && (decide (i - 44 = 0) && first)) || (decide (43 ≤ i) && (decide (i - 43 = 0) && last))))) := by
  unfold linkHeader pack
  simp only [packN, BitVec.toNat_ofNat, Nat.testBit_mod_two_pow, Nat.testBit_or, Nat.testBit_shiftLeft, testBit_b2n, hi, decide_true,
    Bool.true_and, Nat.zero_testBit, Bool.and_false, Bool.or_false, ge_iff_le]

/-- The header of a beat that takes the link in its turn reads back as its class and its place in the packet (R375). -/
theorem linkHeader_reads {cls seq : Nat} {first last : Bool} (h : cls < 8) :
    bits (linkHeader cls seq first last 0 0).toNat 63 61 = cls ∧ bit (linkHeader cls seq first last 0 0).toNat 44 = first ∧
      bit (linkHeader cls seq first last 0 0).toNat 43 = last := by
  have hseq : ∀ i, 16 ≤ i → (seq % 65536).testBit i = false := fun i hi =>
    Nat.testBit_lt_two_pow (Nat.lt_of_lt_of_le (Nat.mod_lt _ (by decide)) (Nat.pow_le_pow_right (n := 2) (by decide) hi))
  have hcls : ∀ i, 3 ≤ i → cls.testBit i = false := fun i hi =>
    Nat.testBit_lt_two_pow (Nat.lt_of_lt_of_le h (Nat.pow_le_pow_right (n := 2) (by decide) hi))
  refine ⟨Nat.eq_of_testBit_eq fun i => ?_, ?_, ?_⟩
  · unfold bits
    rw [Nat.testBit_mod_two_pow, Nat.testBit_shiftRight]
    by_cases hi : i < 3
    · have hnot : ¬(61 + i - 44 = 0) ∧ ¬(61 + i - 43 = 0) := by omega
      rw [testBit_linkHeader _ _ _ _ (by omega), hseq (61 + i - 45) (by omega)]
      simp [hi, hnot.1, hnot.2]
    · simp [hi, hcls i (by omega)]
  · unfold bit
    rw [testBit_linkHeader _ _ _ _ (by decide)]
    simp
  · unfold bit
    rw [testBit_linkHeader _ _ _ _ (by decide)]
    simp

/-! Beats that wait at a port -/

theorem eq_or_mem_dropNth {α : Type} {l : List α} {i : Nat} {a : α} (h : nth? l i = some a) : ∀ w ∈ l, w = a ∨ w ∈ dropNth l i := by
  induction l generalizing i with
  | nil => exact fun _ hw => absurd hw List.not_mem_nil
  | cons b l ih =>
    cases i with
    | zero =>
      cases h
      exact fun w hw => List.mem_cons.mp hw
    | succ i =>
      intro w hw
      obtain rfl | hw := List.mem_cons.mp hw
      · exact .inr List.mem_cons_self
      · exact (ih h w hw).imp_right (List.mem_cons_of_mem _)

/-- A beat with its class, place and words is at a port: it waits there, or has left with a header that says so. -/
theorem beatAtPort_of_waiting {q : Nat} {w : WaitBeat} {m : Mod} (h : w ∈ (portOf m q).waiting) : beatAtPort q w.cls w.first w.body m :=
  .inl ⟨w, h, rfl, rfl, rfl⟩

theorem beatAtPort_resendNext {q r cls : Nat} {first : Bool} {body : List W32} {b : LinkBeat} {l : List LinkBeat} {m : Mod}
    (h : beatAtPort q cls first body m) : beatAtPort q cls first body (resendNext r b l m) := by
  obtain ⟨w, hw, hc⟩ | ⟨hdr, ho, hc⟩ := h
  · refine .inl ⟨w, ?_, hc⟩
    unfold resendNext
    rw [portOf_emit, portOf_modPort]
    split
    · subst_vars; exact hw
    · exact hw
  · refine .inr ⟨hdr, ?_, hc⟩
    unfold resendNext
    rw [emit_out, modPort_out]
    exact List.mem_append_left _ ho

/-- What a beat that takes the link leaves: its port with the beat in its replay buffer, and the beat sent. -/
theorem sendWaiting_shows {q i : Nat} {b : WaitBeat} {m : Mod} (h : nth? (portOf m q).waiting i = some b) :
    (portOf (sendWaiting q i m) q).waiting = dropNth (portOf m q).waiting i ∧
      (portOf (sendWaiting q i m) q).replay = (portOf m q).replay ++
        [⟨linkHeader b.cls (portOf m q).sendSeq b.first b.last 0 0, b.body⟩] ∧
      Out.link q (linkHeader b.cls (portOf m q).sendSeq b.first b.last 0 0) b.body ∈ (sendWaiting q i m).out ∧
      m.out <+: (sendWaiting q i m).out ∧ ∀ r, r ≠ q → portOf (sendWaiting q i m) r = portOf m r := by
  have htaken : ∀ n : Mod, n = takeLink q b.cls b.first b.last 0 0 b.body (modPort q (fun p => { p with waiting := dropNth p.waiting i }) m) →
      (portOf n q).waiting = dropNth (portOf m q).waiting i ∧
        (portOf n q).replay = (portOf m q).replay ++ [⟨linkHeader b.cls (portOf m q).sendSeq b.first b.last 0 0, b.body⟩] ∧
        n.out = m.out ++ [.link q (linkHeader b.cls (portOf m q).sendSeq b.first b.last 0 0) b.body] ∧ ∀ r, r ≠ q → portOf n r = portOf m r := by
    rintro n rfl
    unfold takeLink
    dsimp only
    simp only [portOf_emit, portOf_modPort_self, emit_out, modPort_out]
    refine ⟨trivial, trivial, trivial, fun r hr => ?_⟩
    rw [portOf_modPort, if_neg hr.symm, portOf_modPort, if_neg hr.symm]
  obtain ⟨hw, hreplay, hout, hothers⟩ := htaken _ rfl
  unfold sendWaiting
  rw [h]
  dsimp only
  split
  · refine ⟨hw, hreplay, ?_, ?_, hothers⟩ <;> rw [emit_out, hout]
    · simp
    · rw [List.append_assoc]; exact List.prefix_append ..
  · refine ⟨hw, hreplay, ?_, ?_, hothers⟩ <;> rw [hout]
    · simp
    · exact List.prefix_append ..

theorem beatAtPort_sendWaiting {q r i cls : Nat} {first : Bool} {body : List W32} {m : Mod} (hcls : cls < 8)
    (h : beatAtPort q cls first body m) : beatAtPort q cls first body (sendWaiting r i m) := by
  cases hb : nth? (portOf m r).waiting i with
  | none =>
    unfold sendWaiting
    rw [hb]
    exact h
  | some b =>
    obtain ⟨hw, -, hsent, hgrow, hothers⟩ := sendWaiting_shows hb
    obtain ⟨w, hmem, hc⟩ | ⟨hdr, ho, hc⟩ := h
    · by_cases hr : r = q
      · subst hr
        obtain rfl | hmem := eq_or_mem_dropNth hb w hmem
        · obtain ⟨rfl, rfl, rfl⟩ := hc
          obtain ⟨hclass, hfirst, -⟩ := linkHeader_reads (seq := (portOf m r).sendSeq) (first := w.first) (last := w.last) hcls
          exact .inr ⟨_, hsent, hclass, hfirst⟩
        · exact .inl ⟨w, hw ▸ hmem, hc⟩
      · exact .inl ⟨w, (hothers q (Ne.symm hr)).symm ▸ hmem, hc⟩
    · exact .inr ⟨hdr, hgrow.subset ho, hc⟩

theorem beatAtPort_serveLink {own : Bool} {q r n cls : Nat} {first : Bool} {body : List W32} {m : Mod} (hcls : cls < 8)
    (h : beatAtPort q cls first body m) : beatAtPort q cls first body (serveLink own r n m) := by
  induction n generalizing m with
  | zero => exact h
  | succ n ih =>
    unfold serveLink
    dsimp only
    split
    · exact h
    · split
      · exact ih (beatAtPort_resendNext h)
      · split
        · exact h
        · split
          · exact h
          · exact ih (beatAtPort_sendWaiting hcls h)

/-- The header beat of a DMA packet that is sent from a port that is UP is at the port. -/
theorem beatAtPort_sendDma {q op : Nat} {k : DmaPkt} {m : Mod} (hup : (portOf m q).state = .up) :
    beatAtPort q clsDma true (padBeat (dmaHeader op k)) (sendDma q op k m) := by
  obtain ⟨b, l, hbeats⟩ : ∃ b l, beatsOfWords (padBeat k.payload) ++ [padBeat [BitVec.ofNat 32 (crc32c (wordsBytes (padBeat k.payload)))]] = b :: l := by
    cases beatsOfWords (padBeat k.payload) with
    | nil => exact ⟨_, _, rfl⟩
    | cons b l => exact ⟨_, _, rfl⟩
  have hhead : waitBeats clsDma (srcNow m) none true (packetBeats (dmaHeader op k) k.payload) =
      ⟨clsDma, true, false, padBeat (dmaHeader op k), srcNow m, none⟩ :: waitBeats clsDma (srcNow m) none false (b :: l) := by
    unfold packetBeats
    dsimp only
    rw [List.cons_append, hbeats]
    rfl
  unfold sendDma sendBeats queueBeats
  rw [if_neg (not_not_intro hup), hhead]
  refine beatAtPort_serveLink (by decide) (beatAtPort_of_waiting (w := ⟨clsDma, true, false, padBeat (dmaHeader op k), srcNow m, none⟩) ?_)
  rw [portOf_modPort_self]
  exact List.mem_append_right _ List.mem_cons_self

/-! The image of a job without objects -/

theorem length_shaRounds (k w v : List W64) (hv : v.length = 8) : (shaRounds k w v).length = 8 := by
  induction k generalizing w v with
  | nil => exact hv
  | cons a k ih =>
    refine ih _ _ ?_
    unfold shaRound
    simp [hv]
theorem length_foldl_shaBlock (l : List (List Byte)) (v : List W64) (hv : v.length = 8) : (l.foldl shaBlock v).length = 8 := by
  induction l generalizing v with
  | nil => exact hv
  | cons b l ih =>
    refine ih _ ?_
    unfold shaBlock
    rw [List.length_zipWith, length_shaRounds _ _ _ hv, hv]
    rfl
theorem length_beBytes (n v : Nat) : (beBytes n v).length = n := by
  unfold beBytes
  rw [List.length_reverse, leBytes_length]
/-- A digest has 48 bytes. -/
theorem length_sha384 (msg : List Byte) : (sha384 msg).length = 48 := by
  have hsum : ∀ l : List W64, (l.flatMap (fun w => beBytes 8 w.toNat)).length = 8 * l.length := fun l => by
    induction l with
    | nil => rfl
    | cons w l ih => rw [List.flatMap_cons, List.length_append, ih, length_beBytes, List.length_cons]; omega
  unfold sha384
  dsimp only
  rw [hsum, List.length_take, length_foldl_shaBlock _ _ (by decide)]
  rfl
/-- Four bytes make a word. -/
theorem length_bytesWords (n : Nat) (l : List Byte) (h : l.length = 4 * n) : (bytesWords l).length = n := by
  induction n generalizing l with
  | zero =>
    rw [List.length_eq_zero_iff.mp h]
    rfl
  | succ n ih =>
    match l, h with
    | a :: b :: c :: d :: r, h =>
      unfold bytesWords
      rw [List.length_cons, ih r (by simp only [List.length_cons] at h; omega)]

theorem ckEntries_none {m : Mod} {p : Nat} (h : (partOf m p).objects = []) : ckEntries m p = [] := by
  unfold ckEntries
  rw [h]
  rfl
theorem imageBytes_none {m : Mod} {p : Nat} (h : (partOf m p).objects = []) : imageBytes m p = 304 := by
  unfold imageBytes
  rw [ckEntries_none h]
  rfl
theorem length_ckHeader (x : Part) (entries total : Nat) (h : x.hash.length = 48) : (ckHeader x entries total).length = 256 := by
  unfold ckHeader
  simp only [List.length_append, leBytes_length, List.length_replicate, List.length_cons, List.length_nil, h]
/-- Without objects the image is its header and its digest, and reads nothing (R442). -/
theorem ckImage_none {m : Mod} {p : Nat} (h : (partOf m p).objects = []) (hh : (partOf m p).hash.length = 48) :
    ∃ bytes, ckImage m p = (false, bytes, m) ∧ bytes.length = 4 * 76 := by
  unfold ckImage
  rw [ckEntries_none h]
  refine ⟨_, rfl, ?_⟩
  rw [List.length_append, length_sha384]
  show (ckHeader (partOf m p) 0 (imageBytes m p) ++ []).length + 48 = _
  rw [List.append_nil, length_ckHeader _ _ _ hh]

/-- An image of 304 bytes leaves in one packet. -/
theorem sendImage_one {k : CkptArm} {ws : List W32} {m : Mod} (h : ws.length = 76) :
    sendImage k ws m = sendDma k.port opPut (ckPacket m k 0 304 ws) m := by
  unfold sendImage
  rw [h]
  show sendDma k.port opPut (ckPacket m k (4096 * 0) (4 * ((ws.drop (1024 * 0)).take 1024).length) ((ws.drop (1024 * 0)).take 1024)) m = _
  rw [List.drop_zero, List.take_of_length_le (by omega), h]

/-- The header of a packet does not depend on what it carries. -/
theorem dmaHeader_ckPacket (op : Nat) (m n : Mod) (k : CkptArm) (off len : Nat) (ws : List W32) (h : n.moduleNum = m.moduleNum) :
    dmaHeader op (ckPacket n k off len ws) = dmaHeader op (ckPacket m k off len []) := by
  unfold dmaHeader ckPacket
  rw [h]

/-- An image of 304 bytes that is sent leaves its header at the port, and the partitions alone. -/
theorem sendImage_shows {k : CkptArm} {bytes : List Byte} {m : Mod} (hlen : bytes.length = 4 * 76) (hup : (portOf m k.port).state = .up) :
    (∀ p, partOf (sendImage k (bytesWords bytes) m) p = partOf m p) ∧
      beatAtPort k.port clsDma true (padBeat (dmaHeader opPut (ckPacket m k 0 304 []))) (sendImage k (bytesWords bytes) m) := by
  rw [sendImage_one (length_bytesWords 76 bytes hlen), ← dmaHeader_ckPacket opPut m m k 0 304 (bytesWords bytes) rfl]
  refine ⟨fun p => ?_, beatAtPort_sendDma hup⟩
  obtain ⟨ps, u, hsent⟩ := sendDma_rest k.port opPut (ckPacket m k 0 304 (bytesWords bytes)) m
  rw [hsent]
  rfl

/-- What the start of a save makes of the partition: its later ticks move, and a late start is counted (R441). -/
def savedPart (k : CkptArm) (late : Bool) (x : Part) : Part :=
  moveForCkpt k { x with lateEvents := if late then satAdd 32 x.lateEvents 1 else x.lateEvents }

theorem savedPart_shows (k : CkptArm) (late : Bool) (x : Part) :
    (savedPart k late x).objects = x.objects ∧ (savedPart k late x).hash = x.hash ∧ (savedPart k late x).heldForCkpt = x.heldForCkpt ∧
      (savedPart k late x).lateEvents = if late then satAdd 32 x.lateEvents 1 else x.lateEvents := by
  unfold savedPart moveForCkpt
  split <;> exact ⟨rfl, rfl, rfl, rfl⟩

/-- The module as the image of a save is taken. -/
def saveBegun (p : Nat) (k : CkptArm) (m : Mod) : Mod :=
  modPart p (savedPart k (boundaryTick m p ((partOf m p).commitTick + 1)).2) m

/-- CHECKPOINT_START of a job whose save is due and whose image fits (R441). -/
theorem execCheckpointStart_fits {q : PartId} {k : CkptArm} {s : State} {bytes : List Byte} (hck : (partOf s.m q.val).ckpt = some k)
    (hpower : s.m.power.active = false) (hj : (partOf s.m q.val).jstate = .running) (hfail : (partOf s.m q.val).stepFailed = false)
    (hdue : k.due = true) (hrun : k.running = false) (hheld : (partOf s.m q.val).heldForCkpt = true)
    (ht : tickReached s.m (boundaryTick s.m q.val ((partOf s.m q.val).commitTick + 1)).1 = true)
    (hcap : imageBytes (saveBegun q.val k s.m) q.val ≤ k.capacity) (hport : portIn s.m q.val k.port = true) (hup : (portOf s.m k.port).state = .up)
    (himg : ckImage (saveBegun q.val k s.m) q.val = (false, bytes, saveBegun q.val k s.m)) :
    exec (.checkpointStart q) s = .next { s with
      m := sendImage k (bytesWords bytes) (modPart q.val (fun x => { x with ckpt := some { k with running := true } }) (saveBegun q.val k s.m)) } := by
  have hsaved : modPart q.val (fun x => moveForCkpt k { x with
      lateEvents := if (boundaryTick s.m q.val ((partOf s.m q.val).commitTick + 1)).2 then satAdd 32 x.lateEvents 1 else x.lateEvents }) s.m =
    saveBegun q.val k s.m := rfl
  have hport' : portIn (saveBegun q.val k s.m) q.val k.port = true := hport
  have hup' : (portOf (saveBegun q.val k s.m) k.port).state = .up := hup
  show execCheckpointStart q s = _
  unfold execCheckpointStart onMod
  dsimp only
  rw [hck]
  dsimp only
  rw [if_neg (by rw [hpower, hrun, hdue, hheld, ht]; simp [hj, hfail]), hsaved, himg, hport']
  dsimp only
  rw [if_neg (by simp [hcap]), if_neg (not_not_intro hup'), if_neg Bool.false_ne_true]

theorem gives_checkpointStart {q : PartId} {k : CkptArm} {s : State} (hck : (partOf s.m q.val).ckpt = some k) (hpower : s.m.power.active = false)
    (hj : (partOf s.m q.val).jstate = .running) (hfail : (partOf s.m q.val).stepFailed = false) (hdue : k.due = true) (hrun : k.running = false)
    (hheld : (partOf s.m q.val).heldForCkpt = true)
    (ht : tickReached s.m (boundaryTick s.m q.val ((partOf s.m q.val).commitTick + 1)).1 = true) (hobj : (partOf s.m q.val).objects = [])
    (hhash : (partOf s.m q.val).hash.length = 48) (hcap : 304 ≤ k.capacity) (hport : portIn s.m q.val k.port = true)
    (hup : (portOf s.m k.port).state = .up) :
    Gives (.checkpointStart q) s (fun m' => (partOf m' q.val).ckpt = some { k with running := true } ∧ (partOf m' q.val).heldForCkpt = true ∧
      (partOf m' q.val).lateEvents = (if (boundaryTick s.m q.val ((partOf s.m q.val).commitTick + 1)).2 then
        satAdd 32 (partOf s.m q.val).lateEvents 1 else (partOf s.m q.val).lateEvents) ∧
      beatAtPort k.port clsDma true (padBeat (dmaHeader opPut (ckPacket s.m k 0 304 []))) m') := by
  obtain ⟨hobj', hhash', hheld', hlate⟩ := savedPart_shows k (boundaryTick s.m q.val ((partOf s.m q.val).commitTick + 1)).2 (partOf s.m q.val)
  have hpart : partOf (saveBegun q.val k s.m) q.val = _ := partOf_modPart_self ..
  have hempty : (partOf (saveBegun q.val k s.m) q.val).objects = [] := by rw [hpart, hobj', hobj]
  obtain ⟨bytes, himg, hlen⟩ := ckImage_none hempty (by rw [hpart, hhash', hhash])
  have hcap' : imageBytes (saveBegun q.val k s.m) q.val ≤ k.capacity := by rw [imageBytes_none hempty]; exact hcap
  refine ⟨_, execCheckpointStart_fits hck hpower hj hfail hdue hrun hheld ht hcap' hport hup himg, ?_⟩
  obtain ⟨hparts, hat⟩ := sendImage_shows (k := k) (m := modPart q.val (fun x => { x with ckpt := some { k with running := true } }) (saveBegun q.val k s.m))
    hlen hup
  rw [hparts, partOf_modPart_self, hpart]
  exact ⟨rfl, hheld'.trans hheld, hlate, hat⟩

end Sys2Proof.Machine
end

section
/-! Proofs. The end of a killed job: what stopping a partition leaves to its engines. -/

namespace Sys2Proof.Machine

/-- A module some changes later in which nothing has been given to the engines of any partition, and nothing taken from the links: what decides
whether the job of a partition may end at once (R413). -/
structure Quieter (m n : Mod) : Prop where
  engines : n.engines = m.engines
  chain : n.chainBlks = m.chainBlks
  now : n.now = m.now
  clocks : ∀ h, (halfSt m h).clk = .full → (halfSt n h).clk = .full
  ports : ∀ q, (portOf n q).state = (portOf m q).state ∧ (portOf n q).assigned = (portOf m q).assigned ∧ (portOf n q).part = (portOf m q).part
  debt : ∀ q, linkDebt (portOf m q) ≤ linkDebt (portOf n q)
  tiles : ∀ t, (tileOf m t).bundle = none → (tileOf n t).bundle = none ∧ (tdOf n t).dmaq = (tdOf m t).dmaq

theorem Quieter.trans {m n k : Mod} (h : Quieter m n) (g : Quieter n k) : Quieter m k where
  engines := g.engines.trans h.engines
  chain := g.chain.trans h.chain
  now := g.now.trans h.now
  clocks x hx := g.clocks x (h.clocks x hx)
  ports q := by
    obtain ⟨hs, ha, hp⟩ := h.ports q
    obtain ⟨gs, ga, gp⟩ := g.ports q
    exact ⟨gs.trans hs, ga.trans ha, gp.trans hp⟩
  debt q := Nat.le_trans (h.debt q) (g.debt q)
  tiles t ht := by
    obtain ⟨hb, hd⟩ := h.tiles t ht
    obtain ⟨gb, gd⟩ := g.tiles t hb
    exact ⟨gb, gd.trans hd⟩

/-- A change of none of these tables. -/
theorem Quieter.of_tables {m n : Mod} (he : n.engines = m.engines) (hc : n.chainBlks = m.chainBlks) (hn : n.now = m.now)
    (hh : n.halves = m.halves) (hp : n.ports = m.ports) (ht : n.tiles = m.tiles) : Quieter m n where
  engines := he
  chain := hc
  now := hn
  clocks x hx := by unfold halfSt at hx ⊢; rwa [hh]
  ports q := by rw [portOf_of_ports hp]; exact ⟨rfl, rfl, rfl⟩
  debt q := by rw [portOf_of_ports hp]
  tiles t hb := by
    have htile : tileOf n t = tileOf m t := by unfold tileOf; rw [ht]
    unfold tdOf
    rw [htile]
    exact ⟨hb, rfl⟩
theorem Quieter.refl (m : Mod) : Quieter m m := of_tables rfl rfl rfl rfl rfl rfl
theorem Quieter.foldl {α : Type} {f : Mod → α → Mod} (hf : ∀ m a, Quieter m (f m a)) (l : List α) (m : Mod) : Quieter m (l.foldl f m) := by
  induction l generalizing m with
  | nil => exact refl m
  | cons a l ih => exact (hf m a).trans (ih _)

theorem Quieter.modTile {t : Nat} {f : Tile → Tile} (hf : ∀ x, x.bundle = none → (f x).bundle = none ∧ (f x).d.dmaq = x.d.dmaq) (m : Mod) :
    Quieter m (modTile t f m) where
  engines := rfl
  chain := rfl
  now := rfl
  clocks _ hx := hx
  ports _ := ⟨rfl, rfl, rfl⟩
  debt _ := Nat.le_refl _
  tiles u hu := by
    unfold tdOf
    rw [tileOf_modTile]
    split
    · subst_vars; exact hf _ hu
    · exact ⟨hu, rfl⟩
theorem Quieter.modTd {t : Nat} {f : TileData → TileData} (hf : ∀ d, (f d).dmaq = d.dmaq) (m : Mod) : Quieter m (modTd t f m) :=
  Quieter.modTile (fun x hx => ⟨by rw [hx]; rfl, hf x.d⟩) m
theorem Quieter.modPort {q : Nat} {f : Port → Port}
    (hf : ∀ x, (f x).state = x.state ∧ (f x).assigned = x.assigned ∧ (f x).part = x.part ∧ linkDebt x ≤ linkDebt (f x)) (m : Mod) :
    Quieter m (modPort q f m) where
  engines := rfl
  chain := rfl
  now := rfl
  clocks _ hx := hx
  ports r := by
    rw [portOf_modPort]
    split
    · rename_i h
      subst h
      obtain ⟨hs, ha, hp, -⟩ := hf (portOf m q)
      exact ⟨hs, ha, hp⟩
    · exact ⟨rfl, rfl, rfl⟩
  debt r := by
    rw [portOf_modPort]
    split
    · subst_vars
      exact (hf _).2.2.2
    · exact Nat.le_refl _
  tiles _ hb := ⟨hb, rfl⟩
theorem Quieter.modPart (p : Nat) (f : Part → Part) (m : Mod) : Quieter m (modPart p f m) := of_tables rfl rfl rfl rfl rfl rfl
theorem Quieter.modEp (k : Nat) (f : Ep → Ep) (m : Mod) : Quieter m (modEp k f m) := of_tables rfl rfl rfl rfl rfl rfl
theorem Quieter.modBar (b : Nat) (f : Bar → Bar) (m : Mod) : Quieter m (modBar b f m) := of_tables rfl rfl rfl rfl rfl rfl
theorem Quieter.emit (o : Out) (m : Mod) : Quieter m (emit o m) := of_tables rfl rfl rfl rfl rfl rfl
theorem Quieter.takeFree (m : Mod) : Quieter m (takeFree m).2 := of_tables rfl rfl rfl rfl rfl rfl

/-! Tiles -/

theorem countWait_dmaq (c : Nat) (d : TileData) : (countWait c d).dmaq = d.dmaq := by
  unfold countWait
  split
  · simp
  · rfl
theorem countIdle_dmaq (c : Nat) (d : TileData) : (countIdle c d).dmaq = d.dmaq := by
  unfold countIdle
  split
  · exact addCtr_dmaq ..
  · rfl
theorem recordTrap_dmaq (pc slots cause info cycle : Nat) (at_ : BitVec 48 × Nat) (d : TileData) :
    (recordTrap pc slots cause info cycle at_ d).dmaq = d.dmaq := by
  unfold recordTrap
  split
  · rfl
  · exact (countWait_dmaq ..).trans (countIdle_dmaq ..)
theorem spRecord_dmaq (c port : Nat) (l : List Nat) (d : TileData) : (spRecord c port l d).dmaq = d.dmaq := by
  unfold spRecord
  induction l generalizing d with
  | nil => rfl
  | cons a l ih => exact (ih _).trans rfl
theorem wakeUp_dmaq (next : Nat) (d : TileData) : (wakeUp next d).dmaq = d.dmaq := countWait_dmaq ..
theorem xResult_dmaq (key : Nat) (v : W32) (k cycle : Nat) (d : TileData) : (xResult key v k cycle d).dmaq = d.dmaq := by
  unfold xResult
  split
  · rfl
  · dsimp only
    split
    · exact setS_dmaq ..
    · exact setP_dmaq ..

theorem quieter_signalTile (t cause detail : Nat) (at_ : BitVec 48 × Nat) (m : Mod) : Quieter m (signalTile t cause detail at_ m) := by
  unfold signalTile
  split
  · exact Quieter.modPart ..
  · exact Quieter.refl m
theorem quieter_leaveWait (t c : Nat) (m : Mod) : Quieter m (leaveWait t c m) := by
  have hstall : ∀ h : Nat, Quieter m (match handleEp m t h with
      | some k => modEp k (fun x => { x with stall := Nat.min (x.stall + (c - (tdOf m t).wait.since)) (2 ^ 42 - 1) }) m
      | none => m) := fun h => by
    split
    · exact Quieter.modEp ..
    · exact Quieter.refl m
  unfold leaveWait
  dsimp only
  split
  · exact hstall _
  · exact hstall _
  · exact Quieter.modBar ..
  · exact Quieter.refl m
theorem quieter_trapTile (t pc slots cause info cycle : Nat) (banked quiet : Bool) (m : Mod) :
    Quieter m (trapTile t pc slots cause info cycle banked quiet m) := by
  unfold trapTile
  extract_lets d stopped at_ left trapped cd
  have htrapped : Quieter m trapped := (quieter_leaveWait t cycle m).trans
    (Quieter.modTile (fun x hx => ⟨by dsimp only; rw [hx, ite_self], recordTrap_dmaq ..⟩) _)
  split
  · exact Quieter.refl m
  · split
    · exact htrapped
    · exact htrapped.trans (quieter_signalTile ..)
theorem quieter_dropBundle (t : Nat) (m : Mod) : Quieter m (dropBundle t m) :=
  Quieter.modTile (fun x hx => by rw [hx]; exact ⟨hx, rfl⟩) m
theorem quieter_takeDue (t : Nat) (m : Mod) (x : DueTrap) : Quieter m (takeDue t m x) :=
  (Quieter.modTd (spRecord_dmaq _ _ _) m).trans (quieter_trapTile ..)
theorem quieter_dueTraps (t c : Nat) (m : Mod) : Quieter m (dueTraps t c m) := by
  unfold dueTraps
  refine Quieter.trans (Quieter.modTd ?_ m) (Quieter.foldl (fun _ _ => quieter_takeDue ..) _ _)
  exact fun _ => rfl
theorem quieter_stopTile (t : Nat) (quiet : Bool) (m : Mod) : Quieter m (stopTile t quiet m) := by
  unfold stopTile
  dsimp only
  split
  · exact (quieter_dropBundle t m).trans ((quieter_dueTraps ..).trans (quieter_trapTile ..))
  · split
    · refine Quieter.modTd ?_ m
      exact fun _ => rfl
    · exact Quieter.refl m
theorem quieter_stopTiles (p : Nat) (m : Mod) : Quieter m (stopTiles p m) := Quieter.foldl (fun _ _ => quieter_stopTile ..) _ m
theorem quieter_endWait (t c : Nat) (m : Mod) : Quieter m (endWait t c m) := by
  unfold endWait
  dsimp only
  split
  · exact quieter_dueTraps ..
  · have hwoken := (quieter_dueTraps t (wakeCycle (tdOf m t) (coreK m t) c) m).trans
      (Quieter.modTd (t := t) (f := fun d => { wakeUp (wakeCycle (tdOf (dueTraps t (wakeCycle (tdOf m t) (coreK m t) c) m) t)
        (coreK (dueTraps t (wakeCycle (tdOf m t) (coreK m t) c) m) t) c) d with shown := (d.wait.kind, c) }) (fun _ => wakeUp_dmaq ..) _)
    split
    · exact hwoken.trans (quieter_trapTile ..)
    · exact hwoken
theorem quieter_putStatus (t rd code value c : Nat) (m : Mod) : Quieter m (putStatus t rd code value c m) :=
  Quieter.modTd (xResult_dmaq _ _ _ _) m
theorem quieter_wakeBwait (b c code : Nat) (m : Mod) (t : Nat) : Quieter m (wakeBwait b c code m t) := by
  unfold wakeBwait
  dsimp only
  split
  · split
    · exact (quieter_putStatus ..).trans (quieter_endWait ..)
    · exact Quieter.refl m
  · exact Quieter.refl m
theorem quieter_breakBar (b cause c : Nat) (fails : Bool) (m : Mod) : Quieter m (breakBar b cause c fails m) := by
  unfold breakBar
  extract_lets x broken woken
  have hwoken : Quieter m woken := (Quieter.modBar ..).trans (Quieter.foldl (fun _ _ => quieter_wakeBwait ..) _ _)
  split
  · exact Quieter.refl m
  · split
    · exact hwoken.trans (Quieter.modPart ..)
    · exact hwoken
theorem quieter_goneFrom (b cause c : Nat) (waits fails : Bool) (m : Mod) : Quieter m (goneFrom b cause c waits fails m) := by
  unfold goneFrom
  dsimp only
  split
  · exact Quieter.refl m
  · split
    · exact quieter_breakBar ..
    · exact Quieter.modBar ..

/-! Links -/

theorem linkDebt_le {x y : Port} (hold : y.oldDebt = x.oldDebt) (h : payloadBeats x ≤ payloadBeats y) : linkDebt x ≤ linkDebt y := by
  unfold linkDebt
  rw [hold]
  exact Nat.sub_le_sub_right h _

theorem filter_dropNth_length {α : Type} (P : α → Bool) {l : List α} {i : Nat} {a : α} (h : nth? l i = some a) :
    (l.filter P).length = ((dropNth l i).filter P).length + if P a then 1 else 0 := by
  induction l generalizing i with
  | nil => cases h
  | cons b l ih =>
    cases i with
    | zero =>
      cases h
      show ((a :: l).filter P).length = (l.filter P).length + _
      by_cases ha : P a = true <;> simp [ha]
    | succ i =>
      have hrest := ih h
      show ((b :: l).filter P).length = ((b :: dropNth l i).filter P).length + _
      by_cases hb : P b = true
      · rw [List.filter_cons_of_pos hb, List.filter_cons_of_pos hb, List.length_cons, List.length_cons, hrest]
        omega
      · rw [List.filter_cons_of_neg hb, List.filter_cons_of_neg hb, hrest]

/-- What a port keeps when a beat takes its link, or waits for it. -/
def portSide (x : Port) : LinkState × Bool × Nat × Nat := (x.state, x.assigned, x.part, x.oldDebt)

theorem portSide_modPort {q : Nat} {f : Port → Port} (hf : ∀ x, portSide (f x) = portSide x) (r : Nat) (m : Mod) :
    portSide (portOf (modPort q f m) r) = portSide (portOf m r) := by
  rw [portOf_modPort]
  split
  · rename_i h
    subst h
    exact hf _
  · rfl
theorem portSide_sendWaiting (q i r : Nat) (m : Mod) : portSide (portOf (sendWaiting q i m) r) = portSide (portOf m r) := by
  unfold sendWaiting
  split
  · rfl
  · rename_i b _
    have htaken : portSide (portOf (takeLink q b.cls b.first b.last 0 0 b.body (modPort q (fun p => { p with waiting := dropNth p.waiting i }) m)) r) =
        portSide (portOf m r) := by
      unfold takeLink
      dsimp only
      rw [portOf_emit]
      refine (portSide_modPort ?_ r _).trans (portSide_modPort ?_ r m)
      · exact fun _ => rfl
      · exact fun _ => rfl
    dsimp only
    split
    · rw [portOf_emit]
      exact htaken
    · exact htaken

/-- A change of the ports that keeps that side of each, and what each has still to have acknowledged. -/
theorem Quieter.of_ports {m : Mod} {ps : SMap Port} {u : List Out} {n : Mod} (hn : n = { m with ports := ps, out := u })
    (hside : ∀ r, portSide (portOf n r) = portSide (portOf m r)) (hdebt : ∀ r, payloadBeats (portOf m r) ≤ payloadBeats (portOf n r)) :
    Quieter m n where
  engines := by rw [hn]
  chain := by rw [hn]
  now := by rw [hn]
  clocks h hh := by rw [hn]; exact hh
  ports r := by
    have h := hside r
    unfold portSide at h
    simp only [Prod.mk.injEq] at h
    obtain ⟨hs, ha, hp, -⟩ := h
    exact ⟨hs, ha, hp⟩
  debt r := by
    have h := hside r
    unfold portSide at h
    simp only [Prod.mk.injEq] at h
    obtain ⟨-, -, -, hold⟩ := h
    exact linkDebt_le hold (hdebt r)
  tiles t ht := by rw [hn]; exact ⟨ht, rfl⟩

/-- A beat of a reduction packet's payload that takes its slot is still to be acknowledged. -/
theorem payloadBeats_sendWaiting (q i r : Nat) (m : Mod) : payloadBeats (portOf m r) ≤ payloadBeats (portOf (sendWaiting q i m) r) := by
  cases hb : nth? (portOf m q).waiting i with
  | none =>
    unfold sendWaiting
    rw [hb]
  | some b =>
    obtain ⟨hw, hreplay, -, -, hothers⟩ := sendWaiting_shows hb
    by_cases hr : r = q
    · subst hr
      have hcount := filter_dropNth_length (fun b => b.cls == clsReduction && !b.first && !b.last) hb
      have hkept : (if (b.cls == clsReduction && !b.first && !b.last) = true then 1 else 0) ≤
          ([(⟨linkHeader b.cls (portOf m r).sendSeq b.first b.last 0 0, b.body⟩ : LinkBeat)].filter payloadBeat).length := by
        split
        · rename_i hpay
          simp only [Bool.and_eq_true, beq_iff_eq] at hpay
          obtain ⟨hclass, hfirst, hlast⟩ := linkHeader_reads (cls := b.cls) (seq := (portOf m r).sendSeq) (first := b.first) (last := b.last)
            (by rw [hpay.1.1]; decide)
          have hbeat : payloadBeat ⟨linkHeader b.cls (portOf m r).sendSeq b.first b.last 0 0, b.body⟩ = true := by
            unfold payloadBeat
            dsimp only
            rw [hclass, hfirst, hlast, hpay.1.1, hpay.1.2, hpay.2]
            rfl
          rw [List.filter_cons_of_pos hbeat]
          exact Nat.le_add_left ..
        · exact Nat.zero_le _
      unfold payloadBeats
      rw [hw, hreplay, List.filter_append, List.length_append, hcount]
      omega
    · rw [hothers r hr]

theorem quieter_sendWaiting (q i : Nat) (m : Mod) : Quieter m (sendWaiting q i m) := by
  obtain ⟨ps, u, hn⟩ := sendWaiting_rest q i m
  exact Quieter.of_ports hn (fun r => portSide_sendWaiting q i r m) fun r => payloadBeats_sendWaiting q i r m
theorem quieter_resendNext (q : Nat) (b : LinkBeat) (r : List LinkBeat) (m : Mod) : Quieter m (resendNext q b r m) := by
  unfold resendNext
  refine Quieter.trans (Quieter.modPort ?_ m) (Quieter.emit ..)
  exact fun x => ⟨rfl, rfl, rfl, Nat.le_refl _⟩
theorem quieter_serveLink (own : Bool) (q n : Nat) (m : Mod) : Quieter m (serveLink own q n m) := by
  induction n generalizing m with
  | zero => exact Quieter.refl m
  | succ n ih =>
    unfold serveLink
    dsimp only
    split
    · exact Quieter.refl m
    · split
      · exact (quieter_resendNext ..).trans (ih _)
      · split
        · exact Quieter.refl m
        · split
          · exact Quieter.refl m
          · exact (quieter_sendWaiting ..).trans (ih _)
theorem quieter_queueBeats (q : Nat) (l : List WaitBeat) (m : Mod) : Quieter m (queueBeats q l m) := by
  unfold queueBeats
  split
  · exact Quieter.refl m
  · refine Quieter.trans (Quieter.modPort ?_ m) (quieter_serveLink ..)
    refine fun x => ⟨rfl, rfl, rfl, linkDebt_le rfl ?_⟩
    unfold payloadBeats
    dsimp only
    rw [List.filter_append, List.length_append]
    omega
theorem quieter_freeBeats (n : Nat) (m : Mod) : Quieter m (freeBeats n m).2 := by
  induction n generalizing m with
  | zero => exact Quieter.refl m
  | succ n ih => exact (Quieter.takeFree m).trans (ih _)
theorem quieter_sendChan (q at_ : Nat) (k : ChanPkt) (m : Mod) : Quieter m (sendChan q at_ k m) := by
  unfold sendChan
  split
  · exact Quieter.of_tables rfl rfl rfl rfl rfl rfl
  · unfold sendChanLink
    split
    · exact Quieter.refl m
    · exact (quieter_freeBeats ..).trans (quieter_queueBeats ..)
theorem quieter_dropOutgoing (p : Option Nat) (q : Nat) (m : Mod) : Quieter m (dropOutgoing p q m) := by
  have hcounted : Quieter m { m with routeDrops := satAdd 32 m.routeDrops 1 } := Quieter.of_tables rfl rfl rfl rfl rfl rfl
  unfold dropOutgoing
  dsimp only
  split
  · exact hcounted.trans (Quieter.modPart ..)
  · exact hcounted
theorem quieter_sendBack (at_ : Nat) (k : ChanPkt) (m : Mod) : Quieter m (sendBack at_ k m) := by
  unfold sendBack
  split
  · exact quieter_sendChan ..
  · split
    · split
      · exact quieter_sendChan ..
      · exact quieter_dropOutgoing ..
    · exact quieter_dropOutgoing ..
theorem quieter_closeEndpoint (k c : Nat) (m : Mod) : Quieter m (closeEndpoint k c m) := by
  unfold closeEndpoint
  dsimp only
  split
  · exact Quieter.refl m
  · exact (Quieter.modEp ..).trans (Quieter.foldl (fun _ _ => quieter_sendBack ..) _ _)

/-! The partition -/

theorem quieter_stopSequencer (p : Nat) (m : Mod) : Quieter m (stopSequencer p m) := by
  have hstall : Quieter m (if (partOf m p).xphase = .stall then endStall p (Nat.max m.now (partOf m p).stallFrom) m else m) := by
    split
    · unfold endStall
      refine (Quieter.modPart ..).trans (Quieter.foldl (fun n t => Quieter.modTd ?_ n) _ _)
      intro d
      split <;> simp
    · exact Quieter.refl m
  unfold stopSequencer
  refine (hstall.trans (Quieter.modPart ..)).trans (Quieter.foldl (fun n q => Quieter.modPort ?_ n) _ _)
  exact fun x => ⟨rfl, rfl, rfl, Nat.le_refl _⟩
theorem quieter_returnHalf (h c : Nat) (m : Mod) : Quieter m (returnHalf h c m) where
  engines := rfl
  chain := rfl
  now := rfl
  clocks k hk := by
    rw [halfSt_returnHalf]
    split
    · rename_i he
      subst he
      rw [if_neg (by rw [hk]; decide)]
      exact hk
    · exact hk
  ports _ := ⟨rfl, rfl, rfl⟩
  debt _ := Nat.le_refl _
  tiles _ hb := ⟨hb, rfl⟩
theorem quieter_returnHalves (p : Nat) (m : Mod) : Quieter m (returnHalves p m) := Quieter.foldl (fun _ _ => quieter_returnHalf ..) _ m
theorem quieter_abandonShards (p : Nat) (m : Mod) : Quieter m (abandonShards p m) := by
  have hblur : Quieter m (blurShadows p m) := Quieter.of_tables rfl rfl rfl rfl rfl rfl
  have hdrop : ∀ n, Quieter n (dropNmuReqs p n) := fun _ => Quieter.of_tables rfl rfl rfl rfl rfl rfl
  have hunits : ∀ f n, Quieter n (dropUnits f n) := fun _ _ => Quieter.of_tables rfl rfl rfl rfl rfl rfl
  have hmap : ∀ f n, Quieter n (mapShards p f n) := fun _ _ => Quieter.of_tables rfl rfl rfl rfl rfl rfl
  exact hblur.trans ((hdrop _).trans ((hunits _ _).trans (hmap _ _)))

end Sys2Proof.Machine
end

section
/-! Proofs. JOB_KILL of a job whose engines are idle (R413). -/

namespace Sys2Proof.Machine

/-! What the end of a job does to a partition -/

theorem calm_wakeBwait (b c code : Nat) (m : Mod) (t : Nat) : calm (wakeBwait b c code m t) = calm m := by
  unfold wakeBwait
  dsimp only
  split
  · split
    · exact (calm_endWait ..).trans (calm_putStatus ..)
    · rfl
  · rfl
theorem calm_breakBar (b cause c : Nat) (m : Mod) : calm (breakBar b cause c false m) = calm m := by
  unfold breakBar
  dsimp only
  split
  · rfl
  · exact (calm_foldl (fun _ _ => calm_wakeBwait ..) _ _).trans (calm_modBar ..)
theorem calm_goneFrom (b cause c : Nat) (waits : Bool) (m : Mod) : calm (goneFrom b cause c waits false m) = calm m := by
  unfold goneFrom
  dsimp only
  split
  · rfl
  · split
    · exact calm_breakBar ..
    · exact calm_modBar ..
theorem calm_closeEndpoint (k c : Nat) (m : Mod) : calm (closeEndpoint k c m) = calm m := by
  unfold closeEndpoint
  dsimp only
  split
  · rfl
  · exact (calm_foldl (fun _ _ => calm_sendBack ..) _ _).trans (calm_modEp ..)

theorem xphase_stopSequencer (p : Nat) (m : Mod) : (partOf (stopSequencer p m) p).xphase = .compute := by
  unfold stopSequencer
  dsimp only
  rw [partOf_foldl (fun _ _ => partOf_modPort ..), partOf_modPart_self]

theorem partOf_abandonShards (p r : Nat) (m : Mod) : partOf (abandonShards p m) r = partOf m r := by
  unfold abandonShards mapShards stopNmus dropNmuReqs dropUnits blurShadows
  rfl

/-- The closing of a partition: its job, its engines and its exchange phase after it. -/
theorem closePartition_shows (p : Nat) (m : Mod) : jobSide (partOf (closePartition p m) p) = jobSide (partOf m p) ∧
    Quieter m (closePartition p m) ∧ (partOf (closePartition p m) p).xphase = .compute := by
  have hwins : ∀ (n : Mod) (t : Nat), calm (modTd t (fun d =>
        { d with wins := mmapVals {} (fun _ (w : TileWin) => { w with opened := false }) d.wins }) n) = calm n ∧
      Quieter n (modTd t (fun d => { d with wins := mmapVals {} (fun _ (w : TileWin) => { w with opened := false }) d.wins }) n) := fun n t => by
    refine ⟨calm_modTd .., Quieter.modTd ?_ n⟩
    exact fun _ => rfl
  have hdwins : ∀ (n : Mod) (l : SMap DWin), calm { n with dwins := l } = calm n ∧ Quieter n { n with dwins := l } := fun n l =>
    ⟨by unfold calm; rfl, Quieter.of_tables rfl rfl rfl rfl rfl rfl⟩
  have hclose : ∀ (c : Nat) (n : Mod) (e : Nat × Ep), calm (if epInPart n p e.2 && isReceive e.2 then closeEndpoint e.1 c n else n) = calm n ∧
      Quieter n (if epInPart n p e.2 && isReceive e.2 then closeEndpoint e.1 c n else n) := fun c n e => by
    split
    · exact ⟨calm_closeEndpoint .., quieter_closeEndpoint ..⟩
    · exact ⟨rfl, Quieter.refl n⟩
  unfold closePartition
  extract_lets waits bars stopped wins dwins c closed gone
  have hcalm : calm gone = calm m := calc
    calm gone = calm closed := calm_foldl (fun _ _ => calm_goneFrom ..) _ _
    _ = calm dwins := calm_foldl (fun n e => (hclose c n e).1) _ _
    _ = calm wins := (hdwins ..).1
    _ = calm stopped := calm_foldl (fun n t => (hwins n t).1) _ _
    _ = calm m := calm_stopTiles ..
  have hswins : Quieter stopped wins := Quieter.foldl (fun n t => (hwins n t).2) _ _
  have hsdwins : Quieter wins dwins := (hdwins ..).2
  have hsclosed : Quieter dwins closed := Quieter.foldl (fun n e => (hclose c n e).2) _ _
  have hsgone : Quieter closed gone := Quieter.foldl (fun _ _ => quieter_goneFrom ..) _ _
  have hquiet : Quieter m gone := (quieter_stopTiles p m).trans (hswins.trans (hsdwins.trans (hsclosed.trans hsgone)))
  refine ⟨?_, hquiet.trans ((quieter_stopSequencer ..).trans ((quieter_returnHalves ..).trans (quieter_abandonShards ..))), ?_⟩
  · rw [jobSide_of_calm (calm_abandonShards ..), partOf_returnHalves, jobSide_of_calm (calm_stopSequencer ..), jobSide_of_calm hcalm]
  · rw [partOf_abandonShards, partOf_returnHalves]
    exact xphase_stopSequencer ..

/-! Engines that are idle stay so -/

theorem all_congr_mem {α : Type} {l : List α} {f g : α → Bool} (h : ∀ a ∈ l, f a = true → g a = true) (hf : l.all f = true) : l.all g = true := by
  rw [List.all_eq_true] at hf ⊢
  exact fun a ha => h a ha (hf a ha)

theorem Quieter.tilesOfPart {m n : Mod} {p : Nat} (hh : (partOf n p).halves = (partOf m p).halves) : tilesOfPart n p = tilesOfPart m p := by
  unfold Machine.tilesOfPart
  rw [hh]
theorem Quieter.portsOf {m n : Mod} (h : Quieter m n) (p : Nat) : portsOf n p = portsOf m p := by
  unfold Machine.portsOf
  congr 1
  funext q
  obtain ⟨-, ha, hp⟩ := h.ports q
  rw [ha, hp]
theorem Quieter.dmaIdle {m n : Mod} (h : Quieter m n) {d e : TileData} (hd : e.dmaq = d.dmaq) : dmaIdle n e = dmaIdle m d := by
  unfold Machine.dmaIdle
  rw [hd]
  congr 1
  funext x
  obtain ⟨hs, -, -⟩ := h.ports x.port
  rw [hs]

/-- A job of an engine of a closed partition that could proceed could proceed before. -/
theorem Quieter.jobReady {m n : Mod} (h : Quieter m n) {e j : Nat} (hx : (partOf n (portOf n e).part).xphase = .compute)
    (hr : jobReady n e j = true) : jobReady m e j = true := by
  have hengine : ∀ k, engineOf n k = engineOf m k := fun k => by unfold engineOf; rw [h.engines]
  have hctx : ctxOf n e j = ctxOf m e j := by unfold ctxOf; rw [hengine]
  have hlimbs : ∀ b r, sumLimbs n e j b r = sumLimbs m e j b r := fun b r => by unfold sumLimbs; rw [hctx, hengine]
  have hchain : ∀ k, chainDebt n k = chainDebt m k := fun k => by unfold chainDebt; rw [hengine, h.chain]
  have hload : fabricLoad n e = fabricLoad m e := by unfold fabricLoad; rw [hengine, h.now]
  have hopen : ∀ r k, outputsOpen n e r k = true → outputsOpen m e r k = true := fun r k ho => by
    have hdebt := h.debt r.outPort
    unfold outputsOpen at ho ⊢
    simp only [hx, hchain, hload, bne_self_eq_false, Bool.false_and, Bool.or_false, Bool.and_eq_true, Bool.or_eq_true, decide_eq_true_eq] at ho ⊢
    obtain ⟨⟨⟨hlink, hnext⟩, hfabric⟩, hown⟩ := ho
    exact ⟨⟨⟨hlink.imp_right fun hl => by omega, hnext⟩, hfabric⟩, .inl hown⟩
  unfold Machine.jobReady at hr ⊢
  rw [hctx, hengine, Bool.and_eq_true] at hr
  rw [Bool.and_eq_true]
  refine ⟨hr.1, ?_⟩
  cases hmatch : matchJob (engineOf m e) j <;> rw [hmatch] at hr
  case ready b r k =>
    have hout := hr.2
    dsimp only at hout ⊢
    rw [hlimbs] at hout
    exact hopen _ _ hout
  all_goals exact hr.2

theorem mem_portsOf {m : Mod} {p q : Nat} (h : q ∈ portsOf m p) : (portOf m q).part = p := by
  unfold portsOf indices at h
  simp only [List.mem_filter, Bool.and_eq_true, beq_iff_eq] at h
  exact h.2.2

/-- A partition whose engines are idle and whose tiles have retired is as ready to end once it is closed (R413). -/
theorem Quieter.endReady {m n : Mod} (h : Quieter m n) {p : Nat} (hh : (partOf n p).halves = (partOf m p).halves)
    (hx : (partOf n p).xphase = .compute) (hq : dmasQuiet p m) : endReady p n = true := by
  obtain ⟨hready, hretired⟩ := hq
  unfold Machine.endReady at hready ⊢
  simp only [Bool.and_eq_true, Bool.not_eq_true'] at hready ⊢
  obtain ⟨⟨hdma, hsums⟩, hfull⟩ := hready
  refine ⟨⟨?_, ?_⟩, ?_⟩
  · unfold dmasIdle at hdma ⊢
    rw [Quieter.tilesOfPart hh]
    refine all_congr_mem (fun t ht hi => ?_) hdma
    rw [h.dmaIdle (h.tiles t (hretired t ht)).2]
    exact hi
  · unfold sumsLeft at hsums ⊢
    rw [List.any_eq_false] at hsums ⊢
    rw [h.portsOf]
    intro e he hany
    obtain ⟨j, hj, hjob⟩ := List.any_eq_true.mp hany
    have hpart : (portOf n e).part = p := (h.ports e).2.2.trans (mem_portsOf he)
    exact hsums e he (List.any_eq_true.mpr ⟨j, hj, h.jobReady (by rw [hpart]; exact hx) hjob⟩)
  · unfold halvesFull at hfull ⊢
    rw [hh]
    refine all_congr_mem (fun k _ hk => ?_) hfull
    rw [beq_iff_eq] at hk ⊢
    exact h.clocks k hk

/-! The end of the job -/

theorem noteMulti_shows (c : Bool) (p : Nat) (m : Mod) :
    Quieter m (noteMulti c p m) ∧ partOf (noteMulti c p m) p = { partOf m p with multi := c || (partOf m p).multi } := by
  unfold noteMulti
  cases c with
  | false => exact ⟨Quieter.refl m, rfl⟩
  | true =>
    rw [if_pos rfl]
    refine ⟨Quieter.of_tables rfl rfl rfl rfl rfl rfl, ?_⟩
    have hset : ∀ (o b : Nat) (l : List Nat) (n : Mod), partOf (noteSet o b l n) p = partOf n p := fun _ _ _ _ => rfl
    rw [hset, partOf_modPart_self]
    rfl

theorem quieter_hostEvent (cl p sr d a : Nat) (m : Mod) : Quieter m (hostEvent cl p sr d a m) := by
  obtain ⟨b, u, he, -, -⟩ := hostEvent_rest cl p sr d a m
  rw [he]
  exact Quieter.of_tables rfl rfl rfl rfl rfl rfl

/-- The order of a scrub of a job whose tiles need not be retained (R413). -/
theorem orderScrub_shows {p cause : Nat} {last : JobState} {m : Mod} (hr : (partOf m p).retain = false) :
    partOf (orderScrub p cause last m) p =
      { partOf m p with ending := none, endCause := cause, jstate := .scrubbing, rstate := .scrubbing, endAs := some (last, cause) } := by
  unfold orderScrub
  extract_lets told
  have htold : partOf told p = { partOf m p with ending := none, endCause := cause } := by
    unfold told
    rw [partOf_hostEvent, partOf_modPart_self]
  rw [if_neg (by rw [htold, hr]; decide), partOf_modPart_self, htold]

theorem ends_of_jobSide {x y : Part} (h : jobSide x = jobSide y) : x.halves = y.halves ∧ x.retain = y.retain ∧ x.ckpt = y.ckpt := by
  have hhalves := congrArg Part.halves h
  have hretain := congrArg Part.retain h
  have hckpt := congrArg Part.ckpt h
  exact ⟨hhalves, hretain, hckpt⟩

/-- A job that ends on idle engines is scrubbed at once, with its cause and without its save (R413). -/
theorem endJob_shows {ch : Chip} {p cause : Nat} {last : JobState} {m : Mod} (hend : (partOf m p).ending = none)
    (hretain : (partOf m p).retain = false) (hq : dmasQuiet p m) :
    (partOf (endJob ch p cause last m) p).jstate = .scrubbing ∧ (partOf (endJob ch p cause last m) p).endCause = cause ∧
      (partOf (endJob ch p cause last m) p).endAs = some (last, cause) ∧ (partOf (endJob ch p cause last m) p).ckpt = none ∧
      (partOf (endJob ch p cause last m) p).ending = none := by
  obtain ⟨hside, hquiet, hphase⟩ := closePartition_shows p m
  unfold endJob
  extract_lets x closed told noted marked
  rw [if_neg (by simp [x, hend])]
  have hxtold : Quieter closed told ∧ partOf told p = partOf closed p := by
    unfold told
    cases hck : x.ckpt with
    | none => exact ⟨Quieter.refl _, rfl⟩
    | some k => exact ⟨quieter_hostEvent .., partOf_hostEvent ..⟩
  obtain ⟨hqtold, hptold⟩ := hxtold
  obtain ⟨hqnoted, hpnoted⟩ := noteMulti_shows (x.rstate != .running && !x.causes.isEmpty) p told
  have hmarked : partOf marked p = _ := partOf_modPart_self ..
  have hnoted : partOf noted p = { partOf closed p with multi := (x.rstate != .running && !x.causes.isEmpty) || (partOf closed p).multi } := by
    rw [← hptold]
    exact hpnoted
  rw [hnoted] at hmarked
  have hqmarked : Quieter m marked := hquiet.trans (hqtold.trans (hqnoted.trans (Quieter.modPart ..)))
  have hfields : (partOf marked p).halves = (partOf closed p).halves ∧ (partOf marked p).xphase = (partOf closed p).xphase ∧
      (partOf marked p).retain = (partOf closed p).retain ∧ (partOf marked p).ckpt = none := by
    rw [hmarked]
    exact ⟨rfl, rfl, rfl, rfl⟩
  obtain ⟨hhalves, hxphase, hret, hck⟩ := hfields
  obtain ⟨hclosed, hretained, -⟩ := ends_of_jobSide hside
  rw [if_pos (hqmarked.endReady (hhalves.trans hclosed) (hxphase.trans hphase) hq)]
  have hidle : jobSide (partOf (idleEngines ch p marked) p) = jobSide (partOf marked p) := jobSide_of_calm (calm_idleEngines ..) p
  obtain ⟨-, hkept, hsaved⟩ := ends_of_jobSide hidle
  rw [orderScrub_shows (hkept.trans (hret.trans (hretained.trans hretain)))]
  exact ⟨rfl, rfl, rfl, hsaved.trans hck, rfl⟩

/-- The answer of JOB_KILL (R413). -/
def killAnswer (f : Frame) (ch : Chip) (m : Mod) : Answer :=
  checked [(!plainOk f [(0, 7)], stBadCommand), (!killable (partOf m (argPart f)), stNoJob)] m
    (if m.power.active then
      { status := stOk, m := { m with power := { m.power with heldKills := m.power.heldKills ++ [argPart f] } }, hold := true }
     else { status := stOk, m := killNow ch (argPart f) m, hold := endWaits (killNow ch (argPart f) m) (argPart f) })

theorem killNow_eq_endJob {ch : Chip} {p : Nat} {m : Mod} (hc : commitDue m p = false) (hk : killable (partOf m p) = true) :
    killNow ch p m = endJob ch p 2 .none m := by
  unfold killNow
  dsimp only
  rw [hc, Bool.false_and, if_neg Bool.false_ne_true, if_pos hk]

/-- JOB_KILL of a job whose engines are idle ends it at once with cause 2 (R413). -/
theorem gives_jobKill {f : Frame} {s : State} {p : Nat} {x : Part} (hp : p = argPart f) (hx : x = partOf s.m p) (ha : accepts f 0x0303 s.m)
    (hf : plainOk f [(0, 7)] = true) (hk : killable x = true) (hpower : s.m.power.active = false) (hc : commitDue s.m p = false)
    (hretain : x.retain = false) (hend : x.ending = none) (hq : dmasQuiet p s.m) :
    Gives (.jobKill f) s (fun m' => answered f 0x0303 0 [] [] m' ∧ (partOf m' p).jstate = .scrubbing ∧ (partOf m' p).endCause = 2 ∧
      (partOf m' p).endAs = some (.none, 2) ∧ (partOf m' p).ckpt = none) := by
  subst hx hp
  have hquiet : dmasQuiet (argPart f) (taken f 0x0303 s.m) := hq
  obtain ⟨hj, hcause, has, hck, hended⟩ := endJob_shows (ch := s.chip) (cause := 2) (last := .none) (m := taken f 0x0303 s.m) hend hretain hquiet
  have hkill : killNow s.chip (argPart f) (taken f 0x0303 s.m) = endJob s.chip (argPart f) 2 .none (taken f 0x0303 s.m) := killNow_eq_endJob hc hk
  have hans : killAnswer f s.chip (taken f 0x0303 s.m) =
      { status := stOk, m := endJob s.chip (argPart f) 2 .none (taken f 0x0303 s.m), hold := false } := by
    unfold killAnswer
    have hactive : (taken f 0x0303 s.m).power.active = false := hpower
    rw [checked_pass (by simp [hf, hk]), hactive, if_neg Bool.false_ne_true, hkill]
    unfold endWaits
    rw [hended]
    rfl
  have hafter : (killAnswer f s.chip (taken f 0x0303 s.m)).after = id := by rw [hans]
  refine Gives.mono (execCommandChip_gives (c := .jobKill f) (run := killAnswer f) rfl ha hafter) fun m' ⟨hm, hrest⟩ => ?_
  rw [hans] at hm hrest
  refine ⟨hm, ?_⟩
  rw [hrest]
  exact ⟨hj, hcause, has, hck⟩

end Sys2Proof.Machine
end

section
/-! Proofs. CKPT_RESTORE (R442, R443), and the commands of a job. -/

namespace Sys2Proof.Machine

/-- CKPT_RESTORE of an image that fits sets what the image holds of the step (R443). -/
theorem gives_ckptRestore_fits {f : Frame} {s : State} {img : List Byte} {l : List (Obj × Nat × Nat)} (ha : accepts f 0x0307 s.m)
    (hf : plainOk f [(0, 7), (4, 0x3F3FFF), (5, all32), (6, 0xFFFF), (7, all32), (8, 0xFFFF)] = true)
    (hj : (partOf s.m (argPart f)).jstate = .loaded) (hbad : badRemote f = false) (hport : portIn s.m (argPart f) (bits (arg f 4) 21 16) = true)
    (hup : (portOf s.m (bits (arg f 4) 21 16)).state = .up) (hok : imageOk (img.take (4096 * arg f 7)) = true)
    (hl : matchEntries (taken f 0x0307 s.m) (argPart f) (img.take (4096 * arg f 7)) = some l) :
    Gives (.ckptRestore f (some img)) s (fun m' => answered f 0x0307 0 [] [] m' ∧
      (partOf m' (argPart f)).stepNum = BitVec.ofNat 32 (leAt (img.take (4096 * arg f 7)) 12 4) ∧
      (partOf m' (argPart f)).superstep = BitVec.ofNat 32 (leAt (img.take (4096 * arg f 7)) 16 4) ∧
      (partOf m' (argPart f)).lossMean = BitVec.ofNat 32 (leAt (img.take (4096 * arg f 7)) 20 4) ∧ (partOf m' (argPart f)).restoreRequired = false) := by
  refine Gives.mono (ckptRestore_gives ha hf hj hbad hport hup) fun m' ⟨hans, hm⟩ => ?_
  rw [restoreAnswer_fits hok hl] at hans hm
  refine ⟨hans, ?_⟩
  rw [hm]
  exact restoreAll_shows ..

/-- An image that does not fit unloads the job (R443). -/
theorem gives_ckptRestore_unfit {f : Frame} {s : State} {img : List Byte} (ha : accepts f 0x0307 s.m)
    (hf : plainOk f [(0, 7), (4, 0x3F3FFF), (5, all32), (6, 0xFFFF), (7, all32), (8, 0xFFFF)] = true)
    (hj : (partOf s.m (argPart f)).jstate = .loaded) (hbad : badRemote f = false) (hport : portIn s.m (argPart f) (bits (arg f 4) 21 16) = true)
    (hup : (portOf s.m (bits (arg f 4) 21 16)).state = .up) (hok : imageOk (img.take (4096 * arg f 7)) = false) :
    Gives (.ckptRestore f (some img)) s (fun m' => answered f 0x0307 0x52 [] [] m' ∧ (partOf m' (argPart f)).jstate = .none ∧
      (partOf m' (argPart f)).endCause = 6) := by
  refine Gives.mono (ckptRestore_gives ha hf hj hbad hport hup) fun m' ⟨hans, hm⟩ => ?_
  rw [restoreAnswer_unfit hok] at hans hm
  refine ⟨hans, ?_⟩
  rw [hm]
  exact partOf_unloadJob ..

/-- A restore whose image does not come changes no partition, tile or DRAM word (R442). -/
theorem gives_ckptRestore_none {f : Frame} {s : State} (ha : accepts f 0x0307 s.m)
    (hf : plainOk f [(0, 7), (4, 0x3F3FFF), (5, all32), (6, 0xFFFF), (7, all32), (8, 0xFFFF)] = true)
    (hj : (partOf s.m (argPart f)).jstate = .loaded) (hbad : badRemote f = false) (hport : portIn s.m (argPart f) (bits (arg f 4) 21 16) = true)
    (hup : (portOf s.m (bits (arg f 4) 21 16)).state = .up) :
    Gives (.ckptRestore f none) s (fun m' => answered f 0x0307 0x53 [] [] m' ∧ m'.parts = s.m.parts ∧ m'.tiles = s.m.tiles ∧ m'.dram = s.m.dram) := by
  refine Gives.mono (ckptRestore_gives ha hf hj hbad hport hup) fun m' ⟨hans, hm⟩ => ⟨hans, ?_⟩
  obtain ⟨ps, u, he⟩ := sendGets_rest (restoreArm f) (arg f 7) (taken f 0x0307 s.m)
  have hkept : (restoreAnswer s.chip f none (taken f 0x0307 s.m)).m = { taken f 0x0307 s.m with ports := ps, out := u } := he
  rw [hm, hkept]
  exact ⟨rfl, rfl, rfl⟩

end Sys2Proof.Machine

open Sys2Proof Sys2Proof.Machine

/-- Settles O56. A command that is accepted answers with what its checks leave; JOB_KILL ends the job at once since closing a partition gives
nothing to its engines, so that one that was ready to end still is. -/
theorem jobCommands : Obligations.JobCommands := by
  unfold Obligations.JobCommands
  intro f s p x hp hx
  subst hx hp
  refine ⟨?_, ?_, ?_, ?_, ?_, ?_, ?_, ?_, ?_⟩
  · intro m0 m1 l r ha hm0 hf hidle htiles hreads hl hr hlok hrok hhead hsteps
    subst hm0
    exact gives_load ha hf hidle htiles hreads hl hr hlok hrok hhead hsteps
  · exact fun t ha hf hj he ht hle hsched => gives_jobStart ha hf hj he ht hle hsched
  · rintro k y rfl hpower hj ht hck hclk
    exact gives_jobStartTick hpower hj ht hck hclk
  · exact fun ha hf hk hpower hc hretain hend hq => gives_jobKill rfl rfl ha hf hk hpower hc hretain hend hq
  · exact fun ha hf hr => scrub_carries ha hf hr
  · exact fun t ha hf hlive hck he ht hle hbad hstep => gives_ckptSave ha hf hlive hck he ht hle hbad hstep
  · rintro q y k rfl hck hpower hj hfail hdue hrun hheld ht hobj hhash hcap hport hup
    exact gives_checkpointStart hck hpower hj hfail hdue hrun hheld ht hobj hhash hcap hport hup
  · exact fun q ok k hck hrun hpower => gives_ckptSaveComplete hck hrun hpower
  · rintro m0 img cut ha hf hj hbad hport hup rfl rfl
    exact ⟨fun l hok hl => gives_ckptRestore_fits ha hf hj hbad hport hup hok hl,
      fun hok => gives_ckptRestore_unfit ha hf hj hbad hport hup hok, gives_ckptRestore_none ha hf hj hbad hport hup⟩
end
